-- ==== Sys2Proof/Word.lean ====
section
/-!
DEFINITION. The two word types: the byte of memories and messages, and the 64-bit word of the Octip registers.
-/

namespace Sys2Proof

/-- One byte. -/
abbrev Byte := BitVec 8

/-- One Octip register (R311). -/
abbrev Word := BitVec 64

end Sys2Proof
end

