-- ==== Sys2Proof/Syntax.lean ====
section
/-!
DEFINITION. The commands the block takes, with the types of their operands. One constructor of `Instr` for each row of
spec/opcode_table.json.
-/

namespace Sys2Proof

/-- Who makes an access or gives a command: the origins of R15. A firmware origin carries its pod, core, world and
privilege level (0 U, 1 S, 2 M). -/
inductive Origin where
  | hw
  | fw (pod core world priv : Nat)
  | pf
  | vf (n : Nat)
  | ring (node : Nat)
  | tuber
  | debug
  | smbus
  | peer
  deriving DecidableEq, Repr

/-- What a read of host memory returned: its bytes, or a failure (completer abort, unsupported request, poisoned
completion: reason 0x0300). -/
inductive HostRead where
  | ok (data : List Byte)
  | failed
  deriving DecidableEq, Repr

/-- How a media command ended: GOOD (with the EOM bit of a tape write at early warning), BUSY, TASK SET FULL, CHECK
CONDITION with its sense key, ASC, ASCQ, information field and sense bytes, RESERVATION CONFLICT, another SCSI status,
or a failure on transport. -/
inductive MediaStatus where
  | good (eom : Bool)
  | busy
  | taskSetFull
  | check (key asc ascq info : Nat) (sense : List Byte)
  | conflict
  | other (code : Nat)
  | transport
  deriving DecidableEq, Repr

/-- What discovery finds out about one end device (R235, R236, R249). `kind` is coded as MPT_DEV_INFO.TYPE, `lbs` is log2 of
the logical block size minus 9 (15 when not learnt). `depth` counts the expanders on the way to it; the last one's phy `phy` attaches
it. The record lengths are those of READ BLOCK LIMITS, the granularity as a power of two. -/
structure FoundDevice where
  name : Nat
  kind : Nat
  lanes : List Nat
  depth : Nat
  expander : Nat
  phy : Nat
  dual : Bool
  lbs : Nat
  blocks : Nat
  tapeReady : Bool
  tapeMinRecord : Nat
  tapeMaxRecord : Nat
  tapeGranularity : Nat
  deriving DecidableEq, Repr

/-- The end of a command that a port sends on the way to another: READ POSITION, REPORT ZONES (R250, R254, R264). -/
structure MediaAnswer where
  status : MediaStatus
  data : List Byte
  deriving DecidableEq, Repr

/-- The requesters of the memory front ends (R275). -/
inductive MemClient where
  | media | spread | gather | engine | css | host | core | scrub
  deriving DecidableEq, Repr

/-- A wrong symbol in a DRAM line: in the chunk of stripe `stripe`, byte column `col`, by exclusive or with `err`. -/
structure SymbolError where
  stripe : Nat
  col : Nat
  err : Nat
  deriving DecidableEq, Repr

/-- The areas of the MRAM (R296, R303). -/
inductive MramArea where
  | journal | changeLog | descLog | custody | device | firmware
  deriving DecidableEq, Repr

/-- Who runs an Octip instruction and how its encoding stood: the logical pod and core, the guard (negate bit `gN`,
predicate `gP`), the length of the instruction in parcels with its prefixes, whether its prefix sequence is allowed
(R317) and whether its fixed fields hold the values the form requires (R315, R319). -/
structure OctCtx where
  pod : Nat
  core : Nat
  gN : Bool := false
  gP : Nat := 0
  parcels : Nat := 2
  prefixOk : Bool := true
  fieldsOk : Bool := true
  deriving DecidableEq, Repr

/-- A source operand: a g register or an immediate already extended to 64 bits (R315, R318). -/
inductive Src where
  | reg (n : Nat)
  | imm (w : Word)
  deriving DecidableEq, Repr

/-- The operands of an AMO (R319, R405): width, near or far hint, acquire and release, registers. -/
structure AmoOp where
  eight : Bool
  hint : Nat
  acqRel : Bool
  d : Nat
  a : Nat
  b : Nat
  deriving DecidableEq, Repr

/-- The arrays cache scrub reads (R391). -/
inductive CacheArray where
  | l1d (pod core line : Nat)
  | l2 (pod line : Nat)
  | l3 (slice line : Nat)
  | directory (slice line : Nat)
  deriving DecidableEq, Repr

/-- What a scrub read of an array found (R391). -/
inductive ScrubOutcome where
  | clean | corrected | uncorrectable
  deriving DecidableEq, Repr

/-- The regions of *Level-2 restarts*. -/
inductive Region where
  | aon | css | memory | coreDomain | code | pack0 | pack1 | sealGroup | mediaA | mediaB | host | ringW | ringE | tuber
  deriving DecidableEq, Repr

/-- One report on an error pin (R440): its source, whether it is a UE, the base level of the UE kind, what the capture
records of it, and for RAIL the power domain of the rail. -/
structure FaultIn where
  source : Nat
  ue : Bool
  base : Nat
  access : Nat := 0
  kind : Nat := 0
  addr : Nat := 0
  detail : Nat := 0
  origin : Nat := 0
  injected : Bool := false
  noReact : Bool := false
  rail : Option Nat := none
  deriving DecidableEq, Repr

/-- A ring frame (R472): its header fields and its payload; the two checks are operands of the command. -/
structure Frame where
  dst : Nat
  broadcast : Bool := false
  src : Nat
  cls : Nat
  retx : Bool := false
  wrapped : Bool := false
  seq : Nat := 0
  gen : Nat := 0
  claim : Nat
  pairId : Nat
  origin : Nat := 0
  session : Nat
  hops : Nat := 0
  kind : Nat
  payload : List Byte
  deriving DecidableEq, Repr

/-- The items of the mirror stream (R521), their bytes as the partner's MRAM holds them. -/
inductive MirrorItem where
  | journal (record : List Byte)
  | descLog (entry : List Byte)
  | custody (state : List Byte)
  | reservation (which upTo : Nat)
  | handle (record : List Byte)
  deriving DecidableEq, Repr

/-- The common fields of a REMOTE message (R101, R483). -/
structure RemoteHdr where
  src : Nat
  token : Nat
  fn : Nat
  sch : Nat
  gen : Nat
  addr : Nat
  len : Nat
  req : Nat
  deriving DecidableEq, Repr

/-- An envelope set as INSTALL reads it from host memory (R577), and whether the NAND reads back as written (R535). -/
structure InstallSet where
  data : HostRead
  readBackOk : Bool
  deriving DecidableEq, Repr

/-- The PERSISTENT RESERVE commands and the SMP command the device issues itself (R257 to R263). -/
inductive PrKind where
  | register | reserve | preempt | readReservation | clearAffiliation
  deriving DecidableEq, Repr

/-- The commands of the block: one constructor for each row of the opcode table, in its order. The docstring of each
meaning names the rules it follows. Operands that come from outside the module (data a host read returns, the status of
a media command, what a sensor reads) stand in the command. -/
inductive Instr where
  | registerWrite (by_ : Origin) (addr size v : Nat)
  | lowHalfRead (by_ : Origin) (addr : Nat)
  | hostReadIssue (sch len : Nat)
  | hostReadCompletion (sch : Nat) (data : HostRead)
  | epbStart (by_ : Origin)
  | epbStop (by_ : Origin) (uj : Nat)
  | epbCal (by_ : Origin)
  | epbCalDone (traffic : Bool) (mw : Nat)
  | epbLiveUpdate (bytes uj : Nat)
  | stripeBufferGrant
  | doorbellWrite (fn off : Nat) (data : List Byte)
  | ctlStart (fn : Nat)
  | ctlHalt (fn : Nat)
  | ctlClear (fn : Nat)
  | ctlResume (fn : Nat)
  | ctlTest (fn : Nat)
  | controlWordInvalid (fn : Nat)
  | engineSlotGrant (sch : Nat)
  | orderFetch (sch : Nat) (data : HostRead)
  | ordIngest (sch : Nat) (list : HostRead)
  | ordChunk (sch : Nat)
  | ordProbe (sch : Nat)
  | ordPack (sch : Nat)
  | ordSeal (sch : Nat)
  | ordSpread (sch : Nat) (block : HostRead)
  | ordDigest (sch : Nat)
  | ordCommit (sch : Nat)
  | ordGather (sch : Nat) (map : HostRead)
  | ordUnseal (sch : Nat)
  | ordUnpack (sch : Nat)
  | ordEmit (sch : Nat) (list : HostRead) (digFault : Bool)
  | ordVerify (sch : Nat)
  | ordMedia (sch : Nat) (block list dataOut : HostRead)
  | ordZone (sch : Nat)
  | ordJump (sch : Nat)
  | ordBranch (sch : Nat)
  | ordWait (sch : Nat)
  | waitExpire (sch : Nat)
  | ordNote (sch : Nat)
  | ordCallCore (sch : Nat) (arg : HostRead)
  | ordEnd (sch : Nat)
  | callPost (sch : Nat)
  | callAnswer (by_ : Origin) (v : Nat)
  | callCoreTimeout (sch : Nat)
  | cohReady (by_ : Origin)
  | clearDrained (sch : Nat)
  | statusWordPost (fn cq : Nat)
  | cqCoalesceTimeout (fn cq : Nat)
  | journalRecordDurable
  | retireRecordWrite (fn cq : Nat)
  | journalCarry
  | contextAgeTick
  | contextFill (sch : Nat)
  | journalReplay
  | redriveStart (sch : Nat)
  | functionReset (fn : Nat) (clearQueues : Bool)
  | functionResetComplete (fn : Nat)
  | schAssign (by_ : Origin)
  | schRelease (by_ : Origin)
  | streamPlaceGrant
  | chunkInputData (sch n : Nat)
  | probeLookup (sch : Nat)
  | domCreate (by_ : Origin)
  | domDestroy (by_ : Origin)
  | domSet (by_ : Origin)
  | domainCmdComplete (ok : Bool)
  | idxClear (by_ : Origin)
  | idxClearComplete
  | idxPurge (by_ : Origin)
  | purgeScanComplete (slot : Nat)
  | purgeSlotFree (by_ : Origin) (mask : Nat)
  | idxLoad (by_ : Origin)
  | idxLoadComplete
  | packChunkDone (sch ordinal engine : Nat) (mismatch : Bool)
  | unpackChunk (sch : Nat)
  | sealChunk (sch lanePair : Nat) (mismatch : Bool)
  | unsealChunk (sch : Nat) (mismatch : Bool)
  | keySlotLoad (handle : Nat) (unwraps : Bool)
  | spreadChunk (sch : Nat) (synFault digFault : Bool)
  | shardWriteIssue (stripe shard : Nat) (answer : Option MediaAnswer)
  | shardWriteComplete (stripe shard : Nat) (status : MediaStatus)
  | commitDlogWrite (sch : Nat)
  | dlogHeadWrite (by_ : Origin) (v : Nat)
  | dirRequestPost
  | dreqHeadWrite (by_ : Origin) (v : Nat)
  | dreqRearm (by_ : Origin)
  | dirFilled (by_ : Origin) (kind : Nat)
  | dirAbsent (by_ : Origin) (kind : Nat)
  | dirFlush (by_ : Origin)
  | dirFlushComplete
  | epochClose
  | epochSigned
  | manifestWriteComplete (statuses : List MediaStatus)
  | manifestNoticePost
  | manifestRetry
  | laneLinkChange (lane : Nat) (up : Bool) (rate sasAddr : Nat)
  | discRun (by_ : Origin)
  | broadcastChange (lane : Nat)
  | discoveryComplete (found : List FoundDevice) (expanders : Nat)
  | devRelease (by_ : Origin)
  | mediaCommandTimeout (cmd : Nat)
  | mediaOrderComplete (sch : Nat) (status : MediaStatus) (data : List Byte)
  | syncCacheComplete (dev : Nat) (status : MediaStatus)
  | writeFilemarksComplete (dev : Nat) (status : MediaStatus)
  | scrubPace (dev : Nat) (answer : Option MediaAnswer)
  | scrubVerifyComplete (dev : Nat) (status : MediaStatus)
  | mediaEventPost
  | injectReorderRelease (slot : Nat)
  | memRead (req : MemClient) (line : Nat) (errs : List SymbolError)
  | memWrite (req : MemClient) (addr : Nat) (data : List Byte)
  | channelTimeout (stripe channel : Nat)
  | frontEndSwitchComplete
  | stripeMark (by_ : Origin) (stripe : Nat)
  | stripeClear (by_ : Origin) (stripe : Nat)
  | memAgePromote (group : Nat)
  | refreshDue (group : Nat)
  | mr4Poll (rates : List Nat)
  | dqsOscCheck (stripe channel drift : Nat)
  | channelRetrainComplete (stripe channel : Nat) (ok : Bool)
  | patrolScrubRead (errs : List SymbolError)
  | mramWriteComplete
  | jnlScrubRead (area : MramArea) (block : Nat) (badA badB : Bool)
  | mramDieFail (die : Nat)
  | supplyFault
  | coreStart (pod core : Nat)
  | opAdd (c : OctCtx) (ov : Bool) (d a b : Nat)
  | opSub (c : OctCtx) (ov : Bool) (d a b : Nat)
  | opAnd (c : OctCtx) (d a b : Nat)
  | opOr (c : OctCtx) (d a b : Nat)
  | opXor (c : OctCtx) (d a b : Nat)
  | opAndn (c : OctCtx) (d a b : Nat)
  | opSll (c : OctCtx) (d a b : Nat)
  | opSrl (c : OctCtx) (d a b : Nat)
  | opSra (c : OctCtx) (d a b : Nat)
  | opRol (c : OctCtx) (d a b : Nat)
  | opRor (c : OctCtx) (d a b : Nat)
  | opMin (c : OctCtx) (d a b : Nat)
  | opMax (c : OctCtx) (d a b : Nat)
  | opMinu (c : OctCtx) (d a b : Nat)
  | opMaxu (c : OctCtx) (d a b : Nat)
  | opNeg (c : OctCtx) (ov : Bool) (d a : Nat)
  | opMul (c : OctCtx) (ov : Bool) (d a b : Nat)
  | opMulh (c : OctCtx) (d a b : Nat)
  | opMulhu (c : OctCtx) (d a b : Nat)
  | opDiv (c : OctCtx) (w32 : Bool) (d a b : Nat)
  | opDivu (c : OctCtx) (w32 : Bool) (d a b : Nat)
  | opRem (c : OctCtx) (w32 : Bool) (d a b : Nat)
  | opRemu (c : OctCtx) (w32 : Bool) (d a b : Nat)
  | opCmpEq (c : OctCtx) (pt pf a : Nat) (b : Src)
  | opCmpNe (c : OctCtx) (pt pf a : Nat) (b : Src)
  | opCmpLt (c : OctCtx) (pt pf a : Nat) (b : Src)
  | opCmpGe (c : OctCtx) (pt pf a : Nat) (b : Src)
  | opCmpLtu (c : OctCtx) (pt pf a : Nat) (b : Src)
  | opCmpGeu (c : OctCtx) (pt pf a : Nat) (b : Src)
  | opPand (c : OctCtx) (d a b : Nat)
  | opPor (c : OctCtx) (d a b : Nat)
  | opPxor (c : OctCtx) (d a b : Nat)
  | opPandn (c : OctCtx) (d a b : Nat)
  | opMovgp (c : OctCtx) (d a : Nat)
  | opMovpg (c : OctCtx) (d a : Nat)
  | opAddi (c : OctCtx) (d a : Nat) (imm : Word)
  | opAndi (c : OctCtx) (d a : Nat) (imm : Word)
  | opOri (c : OctCtx) (d a : Nat) (imm : Word)
  | opXori (c : OctCtx) (d a : Nat) (imm : Word)
  | opSlli (c : OctCtx) (d a n : Nat)
  | opSrli (c : OctCtx) (d a n : Nat)
  | opSrai (c : OctCtx) (d a n : Nat)
  | opRori (c : OctCtx) (d a n : Nat)
  | opMov (c : OctCtx) (d a : Nat)
  | opLi (c : OctCtx) (d : Nat) (imm : Word)
  | opLih (c : OctCtx) (d : Nat) (imm : Word)
  | opLa (c : OctCtx) (d : Nat) (imm : Word)
  | opLd (c : OctCtx) (size : Nat) (sx aq : Bool) (d a : Nat) (off : Word)
  | opSt (c : OctCtx) (size : Nat) (rl : Bool) (d a : Nat) (off : Word)
  | opFld (c : OctCtx) (size : Nat) (aq : Bool) (d a : Nat) (off : Word)
  | opFst (c : OctCtx) (size : Nat) (rl : Bool) (d a : Nat) (off : Word)
  | opJump (c : OctCtx) (off : Word)
  | opCall (c : OctCtx) (off : Word)
  | opJumpr (c : OctCtx) (a : Nat)
  | opCallr (c : OctCtx) (a : Nat)
  | opRet (c : OctCtx)
  | opEret (c : OctCtx)
  | opFadd (c : OctCtx) (f32 : Bool) (d a b : Nat)
  | opFsub (c : OctCtx) (f32 : Bool) (d a b : Nat)
  | opFmul (c : OctCtx) (f32 : Bool) (d a b : Nat)
  | opFdiv (c : OctCtx) (f32 : Bool) (d a b : Nat)
  | opFsqrt (c : OctCtx) (f32 : Bool) (d a : Nat)
  | opFmin (c : OctCtx) (f32 : Bool) (d a b : Nat)
  | opFmax (c : OctCtx) (f32 : Bool) (d a b : Nat)
  | opFsgnj (c : OctCtx) (f32 : Bool) (d a b : Nat)
  | opFcvtI (c : OctCtx) (f32 : Bool) (d a : Nat)
  | opFcvtU (c : OctCtx) (f32 : Bool) (d a : Nat)
  | opIcvtF (c : OctCtx) (f32 : Bool) (d a : Nat)
  | opUcvtF (c : OctCtx) (f32 : Bool) (d a : Nat)
  | opFcvtP (c : OctCtx) (widen : Bool) (d a : Nat)
  | opFmovg (c : OctCtx) (d a : Nat)
  | opFmovf (c : OctCtx) (d a : Nat)
  | opFeq (c : OctCtx) (f32 : Bool) (pt pf a b : Nat)
  | opFlt (c : OctCtx) (f32 : Bool) (pt pf a b : Nat)
  | opFle (c : OctCtx) (f32 : Bool) (pt pf a b : Nat)
  | opFun (c : OctCtx) (f32 : Bool) (pt pf a b : Nat)
  | opFmadd (c : OctCtx) (f32 : Bool) (d a b cc : Nat)
  | opFmsub (c : OctCtx) (f32 : Bool) (d a b cc : Nat)
  | opFnmadd (c : OctCtx) (f32 : Bool) (d a b cc : Nat)
  | opFnmsub (c : OctCtx) (f32 : Bool) (d a b cc : Nat)
  | opFence (c : OctCtx)
  | opFenceC (c : OctCtx)
  | opIsync (c : OctCtx)
  | opMcall (c : OctCtx) (service : Nat)
  | opBrk (c : OctCtx) (service : Nat)
  | opWfi (c : OctCtx)
  | opCrr (c : OctCtx) (d k : Nat)
  | opCrw (c : OctCtx) (k a : Nat)
  | opTlbw (c : OctCtx) (itlb : Bool)
  | opTlbr (c : OctCtx) (itlb : Bool) (a : Nat)
  | opTlbiA (c : OctCtx) (itlb : Bool) (a b : Nat)
  | opTlbiT (c : OctCtx) (itlb : Bool) (a : Nat)
  | opTlbiAll (c : OctCtx) (itlb : Bool)
  | opTlbiLk (c : OctCtx) (itlb : Bool)
  | opIn (c : OctCtx) (size d a : Nat) (off : Word)
  | opOut (c : OctCtx) (size d a : Nat) (off : Word)
  | opLdi (c : OctCtx) (size d a : Nat) (off : Word)
  | opSti (c : OctCtx) (size d a : Nat) (off : Word)
  | amoAdd (c : OctCtx) (m : AmoOp)
  | amoSwap (c : OctCtx) (m : AmoOp)
  | amoCas (c : OctCtx) (m : AmoOp) (cc : Nat)
  | amoAnd (c : OctCtx) (m : AmoOp)
  | amoOr (c : OctCtx) (m : AmoOp)
  | amoXor (c : OctCtx) (m : AmoOp)
  | amoMax (c : OctCtx) (m : AmoOp)
  | amoMin (c : OctCtx) (m : AmoOp)
  | interruptTake (pod core : Nat)
  | ipiRaise (by_ : Origin) (pod core : Nat)
  | timecmpMatch (pod core : Nat)
  | cohMaintAddrWrite (c : OctCtx) (v : Nat)
  | mtClean (c : OctCtx)
  | mtCleanInv (c : OctCtx)
  | mtInv (c : OctCtx)
  | mtZero (c : OctCtx)
  | mtLock (c : OctCtx)
  | mtUnlock (c : OctCtx)
  | getShared (pod line : Nat)
  | getExclusive (pod line : Nat)
  | putLine (pod line : Nat)
  | snoop (pod line : Nat)
  | cohNackRetry (pod line : Nat)
  | cohAgentTimeout (agent : Nat)
  | coreDomainRestart (regionOk : Bool)
  | cacheScrub (array : CacheArray) (outcome : ScrubOutcome)
  | lockstepMismatch (pod lanes retire : Nat) (checkpointBad : Bool)
  | comparatorFault (pod : Nat)
  | retrySuccess (pod : Nat)
  | sparingTimeout (pod : Nat)
  | sparingComplete (pod : Nat)
  | podSplit (by_ : Origin) (pod : Nat)
  | podPark (by_ : Origin) (pod : Nat)
  | podCheck (by_ : Origin) (pod : Nat) (parityOk : Bool)
  | warmRestart (by_ : Origin) (pod : Nat)
  | faultEvent (ev : FaultIn)
  | regionRestartComplete (region : Region)
  | fltAck (by_ : Origin) (mask : Nat)
  | fltCaptureRearm (by_ : Origin)
  | fltInject (by_ : Origin) (v : Nat)
  | collectorHeartbeatMiss (copyB : Bool)
  | ringFrameReceive (port : Nat) (f : Frame) (crcOk hdrOk : Bool)
  | ringAck (src cls cum bitmap : Nat)
  | claimNack (src cls claim seq : Nat)
  | ringAnnounce (src mode serial pairId claim session : Nat)
  | announceTick
  | nodeListTimeout (node : Nat)
  | ringLeave (src port : Nat)
  | ringClaim (src pairId claim : Nat)
  | ringRemove (src pairId : Nat)
  | mirrorMessage (src seq : Nat) (m : MirrorItem)
  | remoteStart (h : RemoteHdr) (addr : Nat)
  | remoteControl (h : RemoteHdr) (ctl tag : Nat)
  | remoteRead (h : RemoteHdr) (data : HostRead)
  | readData (h : RemoteHdr) (data : HostRead)
  | remoteWrite (h : RemoteHdr) (bulk : Bool) (data : List Byte)
  | remoteStatus (h : RemoteHdr) (word : List Byte)
  | remoteQuery (h : RemoteHdr)
  | remoteAnswer (h : RemoteHdr) (posted : Bool)
  | remoteReset (h : RemoteHdr) (gen : Nat)
  | frameTransmit (port : Nat)
  | creditReturn (port cls units : Nat)
  | retxTimeout (dst cls seq : Nat)
  | portLoss (port : Nat)
  | portUnwrap (port : Nat)
  | spanLockTimeout (port : Nat)
  | loopbackTestComplete (passW passE : Bool)
  | memsPositionCheck (sensedBypass : Bool)
  | rngInsertWrite (by_ : Origin) (v : Nat)
  | leaveBypass
  | ringInjectRelease (slot : Nat)
  | hostPortReset (wasUp refclk : Bool)
  | linkUpconfigure (upcfg : Bool) (speed width : Nat)
  | configRequest (fn reg : Nat) (wr : Option Nat)
  | flr (vf : Nat)
  | vfEnableClear
  | powerStateChange (fn : Nat) (d3 : Bool)
  | fnCqCfgWrite (fn cq : Nat) (base : Bool) (v : Nat)
  | fnCqHeadWrite (fn cq v : Nat)
  | vfCreate (by_ : Origin)
  | vfDestroy (by_ : Origin)
  | vfmReset (by_ : Origin)
  | vfmPause (by_ : Origin)
  | vfmUnpause (by_ : Origin)
  | vfmSetwin (by_ : Origin)
  | mailboxSend (fromPf : Bool) (vf len : Nat)
  | mailboxAck (fromPf : Bool) (vf : Nat)
  | dirtySync (by_ : Origin)
  | dirtySyncComplete (fn : Nat)
  | heartbeatSend
  | heartbeatReceive (frame : List Byte)
  | heartbeatLoss
  | takeoverConfirm
  | takeoverComplete
  | isolationCheck (holder : Option Nat)
  | clmTakeover (by_ : Origin)
  | forceActive (by_ : Origin)
  | clmDetach (by_ : Origin)
  | clmResync (by_ : Origin)
  | resyncComplete (peerDigest : List Byte)
  | switchback (by_ : Origin)
  | tmbAttest
  | tmbCerts
  | tmbRandom
  | tmbKeyCreate
  | tmbKeyImport
  | tmbKeyRevoke
  | tmbKekProvision
  | tmbFuseSlot
  | tmbFuseRevoke
  | tmbRollback
  | tmbDebugKill
  | tmbKick (by_ : Origin)
  | tuberWatchdogExpire
  | tuberRestartComplete (readOk : Bool)
  | entropyHealthFail
  | pwrReq (by_ : Origin) (v : Nat)
  | pwrHoldClear (domain : Nat)
  | pwrHoldTimeout
  | pwrForce (by_ : Origin) (v : Nat)
  | domainPowerComplete (domain : Nat)
  | pwrPodMhzWrite (by_ : Origin) (pod v : Nat)
  | logExportedWrite (by_ : Origin) (v : Nat)
  | logExportEnable (by_ : Origin) (v : Nat)
  | logEntryExport
  | checkpointClose (badSeq : Option Nat)
  | checkpointSigned
  | logCkptExportedWrite (by_ : Origin) (v : Nat)
  | debugReq (by_ : Origin) (level : Nat)
  | debugCheck (by_ : Origin) (response : List Byte)
  | debugChallengeExpire
  | modRestart (by_ : Origin) (retain clear : Bool)
  | modDormant (by_ : Origin)
  | modWake (by_ : Origin)
  | modMaintenance (by_ : Origin)
  | maintenanceDrainTimeout
  | modInstall (by_ : Origin) (set : InstallSet)
  | wakeTimeReached
  | wakeFail (cause : Nat)
  | supplyInRegulation (posId : Nat)
  | sporeReady
  | sporeRetryDelay
  | tuberVerifyDone (bootRead otherRead : Bool)
  | dramTrainingDone (failedStripes : List Nat)
  | selftestDone (failedPods : List Nat)
  | ringLockDone (failPort : Option Nat) (peerKeyAbove : Bool)
  | mainImageLoaded (bankRead otherRead : Bool)
  | startWatchdogExpire
  | startCountClear
  | timEpochWrite (by_ : Origin) (v : Nat)
  | timSave
  | setEndpointId (op eid : Nat)
  | getEndpointId
  | getMctpVersionSupport (msgType : Nat)
  | getMessageTypeSupport
  | getVendorDefinedMessageSupport (selector : Nat)
  | getStatus (inst : Nat) (data : List Byte)
  | getSensors (inst : Nat) (data : List Byte)
  | requestMode (inst : Nat) (data : List Byte)
  | getSpore (inst : Nat) (data : List Byte)
  | resetNAssert
  | resetNRelease
  | thermalStep (tj lid island : Nat)
  | ageMonitorRead (needs : List (Nat × Nat))
  | refreshPassComplete
  | shardReadComplete (sch : Nat) (stripe shard : Nat) (status : MediaStatus) (data : List Byte)
  | persistentReserveComplete (dev : Nat) (kind : PrKind) (status : MediaStatus) (data : List Byte)
  | fillData (pod line : Nat)
  | putAck (pod line : Nat)
  | snoopAnswer (pod line : Nat)
  | entropyStartUpTestPass
  deriving DecidableEq, Repr

end Sys2Proof
end

