-- ==== Sys2Proof/Decode.lean ====
section
/-!
DEFINITION. The command a word spells. The rows of spec/opcode_table.json give no bits (their field lists are empty),
so no word spells a command.
-/

namespace Sys2Proof

/-- No row of the table has a word of its own, so the answer is always `none`. DESIGN CHOICE, log entry 1. -/
def decodeTableWord (_nbits _w : Nat) : Option Instr := none

end Sys2Proof
end

