-- ==== Sys2Proof/Machine/Bits.lean ====
section
/-!
DEFINITION. Bit fields, byte order (R6: little-endian), sign extension and the small list helpers the rest uses.
-/

namespace Sys2Proof.Machine

/-- Bits [hi:lo] of a number. -/
def bits (v hi lo : Nat) : Nat := v / 2 ^ lo % 2 ^ (hi + 1 - lo)

/-- Bit i of a number. -/
def bit (v i : Nat) : Bool := v.testBit i

/-- A flag as a one-bit number. -/
def b2n (b : Bool) : Nat := if b then 1 else 0

/-- `v` with bit `i` set. -/
def setBit (v i : Nat) : Nat := v ||| 2 ^ i

/-- `v` with bit `i` cleared. -/
def clearBit (v i : Nat) : Nat := if v.testBit i then v - 2 ^ i else v

/-- `v` with bit `i` equal to `b`. -/
def putBit (v i : Nat) (b : Bool) : Nat := if b then setBit v i else clearBit v i

/-- The bits of `v` that `m` does not have. -/
def andNot (v m : Nat) : Nat := v - (v &&& m)

/-- `v` with bits [hi:lo] replaced by `x`. -/
def putBits (v hi lo x : Nat) : Nat :=
  v - bits v hi lo * 2 ^ lo + x % 2 ^ (hi + 1 - lo) * 2 ^ lo

/-- The bits of `v` that are set, among the first `n`, lowest first. -/
def setBits (v n : Nat) : List Nat := (List.range n).filter (v.testBit ·)

/-- How many of the first `n` bits of `v` are set. -/
def popCount (v n : Nat) : Nat := (setBits v n).length

/-- The lowest set bit among the first `n`. -/
def lowestBit (v n : Nat) : Option Nat := (setBits v n).head?

/-- A signed reading of an `n`-bit number. -/
def sext (v n : Nat) : Int := if v.testBit (n - 1) then (v % 2 ^ n : Nat) - (2 ^ n : Nat) else (v % 2 ^ n : Nat)

/-- `n` bytes of a number, least significant first (R6). -/
def leBytes : Nat → Nat → List Byte
  | 0, _ => []
  | n + 1, v => BitVec.ofNat 8 (v % 256) :: leBytes n (v / 256)

/-- The number that bytes spell, least significant first (R6). -/
def leNat : List Byte → Nat
  | [] => 0
  | b :: t => b.toNat + 256 * leNat t

/-- `n` bytes of a number, most significant first. -/
def beBytes (n v : Nat) : List Byte := (leBytes n v).reverse

/-- The number that bytes spell, most significant first. -/
def beNat (l : List Byte) : Nat := leNat l.reverse

/-- `n` zero bytes. -/
def zeros (n : Nat) : List Byte := List.replicate n 0

/-- The bytes of a list from `off`, `n` of them; missing bytes read 0. -/
def bytesAt (l : List Byte) (off n : Nat) : List Byte :=
  let t := (l.drop off).take n
  t ++ zeros (n - t.length)

/-- The little-endian number in bytes `off` to `off + n − 1` of a list. -/
def fieldAt (l : List Byte) (off n : Nat) : Nat := leNat (bytesAt l off n)

/-- A list cut or zero-padded to `n` bytes. -/
def padTo (n : Nat) (l : List Byte) : List Byte := bytesAt l 0 n

/-- The byte-wise exclusive or of two lists, as long as the shorter. -/
def xorBytes (a b : List Byte) : List Byte := List.zipWith (· ^^^ ·) a b

/-- ASCII bytes of a text. -/
def ascii (t : String) : List Byte := t.toList.map (fun c => BitVec.ofNat 8 c.toNat)

/-- A list cut into pieces of `n` elements, the last one possibly shorter. The first argument bounds the count. -/
def piecesAux {α : Type} (n : Nat) : Nat → List α → List (List α)
  | 0, _ => []
  | _ + 1, [] => []
  | k + 1, l => l.take n :: piecesAux n k (l.drop n)

/-- A list cut into pieces of `n` elements. -/
def pieces {α : Type} (n : Nat) (l : List α) : List (List α) := piecesAux n (l.length) l

/-- The sum of two counters of 64 bits that saturate. -/
def satAdd (a b : Nat) : Nat := min (a + b) (2 ^ 64 - 1)

/-- A value held between two limits. -/
def clamp (lo hi v : Nat) : Nat := max lo (min hi v)

/-- The quotient rounded up; 0 for a divisor of 0. -/
def divUp (a b : Nat) : Nat := (a + (b - 1)) / b

/-- `a` rounded up to a multiple of `b`. -/
def roundUp (a b : Nat) : Nat := divUp a b * b

/-- The list with its element `i` replaced. -/
def setAt {α : Type} (l : List α) (i : Nat) (x : α) : List α := l.set i x

/-- Base-2 logarithm of a power of two, by search below 64. -/
def log2Exact (v : Nat) : Option Nat := (List.range 64).find? (fun k => 2 ^ k == v)

end Sys2Proof.Machine
end

