-- ==== Sys2Proof/Machine/Aes.lean ====
section
/-!
DEFINITION. AES-256 and what the spec uses it for: GCM for stored chunks (R187, R195; SP 800-38D) and the key wrap with padding
for key blobs (R543; RFC 5649). The definitions are those of the standards the spec names. PRESUMED, log entry 98.
-/

namespace Sys2Proof.Machine

/-- Twice a byte in the field of AES. -/
def aesDouble (x : Nat) : Nat := if x < 128 then 2 * x else (2 * x) ^^^ 0x11B

/-- The product of two bytes in the field of AES: over the lowest bits of `y`, as many as the first argument says. -/
def aesTimes : Nat → Nat → Nat → Nat
  | 0, _, _ => 0
  | n + 1, x, y => (if y % 2 = 1 then x else 0) ^^^ aesTimes n (aesDouble x) (y / 2)

/-- The product of two bytes. -/
def aesMul (x y : Nat) : Nat := aesTimes 8 x y

/-- A byte's inverse, its 254th power; 0 for 0. -/
def aesInv (x : Nat) : Nat :=
  let y := (List.range 6).foldl (fun a _ => aesMul (aesMul a a) x) x
  aesMul y y

/-- The S-box: the inverse under an affine map. -/
def aesSub (x : Nat) : Nat :=
  let b := aesInv x
  let rot := fun n => (b * 2 ^ n) % 256 + b / 2 ^ (8 - n)
  b ^^^ rot 1 ^^^ rot 2 ^^^ rot 3 ^^^ rot 4 ^^^ 0x63

/-- A byte of a table that is given in words of 32 bytes, the lowest byte first. -/
def boxByte (t : List Nat) (b : Byte) : Byte := BitVec.ofNat 8 (t.getD (b.toNat / 32) 0 / 2 ^ (8 * (b.toNat % 32)))

/-- The S-box and its inverse, as such tables: `aesBox_eq` and `aesUnbox_eq` show them to be `aesSub` and its inverse. -/
def aesBox : List Nat :=
  [0xc072a49cafa2d4adf04759fa7dc982ca76abd7fe2b670130c56f6bf27b777c63,
   0x75b227ebe28012079a059618c323c7041531d871f1e5a534ccf73f362693fdb7,
   0xcf584c4a39becb6a5bb1fc20ed00d153842fe329b3d63b52a05a6e1b1a2c8309,
   0xd2f3ff1021dab6bcf5389d928f40a351a89f3c507f02f94585334d43fbaaefd0,
   0xdb0b5ede14b8ee4688902a22dc4f816073195d643d7ea7c41744975fec130ccd,
   0x08ae7a65eaf4566ca94ed58d6d37c8e779e4959162acd3c25c2406490a3a32e0,
   0x9e1dc186b95735610ef6034866b53e708a8bbd4b1f74dde8c6b4a61c2e2578ba,
   0x16bb54b00f2d99416842e6bf0d89a18cdf2855cee9871e9b948ed9691198f8e1]
def aesUnbox : List Nat :=
  [0xcbe9dec444438e3487ff2f9b8239e37cfbd7f3819ea340bf38a53630d56a0952,
   0x25d18b6d49a25b76b224d92866a12e084ec3fa420b954cee3d23c2a632947b54,
   0x849d8da75746155edab9edfd5048706c92b6655dcc5ca4d41698688664f6f872,
   0x6b8a130103bdafc1020f3fca8f1e2cd00645b3b80558e4f70ad3bc8c00abd890,
   0x6edf751ce837f9e28535ade72274ac9673e6b4f0cecff297eadc674f4111913a,
   0xf45acd78fec0db9a2079d2c64b3e56fc1bbe18aa0e62b76f89c5291d711af147,
   0xef9cc9939f7ae52d0d4ab519a97f51605fec8027591012b131c7078833a8dd1f,
   0x7d0c2155631469e126d677ba7e042b17619953833cbbebc8b0f52aae4d3be0a0]

/-- The words of the key schedule, latest first: `n` more of them, `i` the number of the next. -/
def aesWords : Nat → Nat → Nat → List (List Byte) → List (List Byte)
  | 0, _, _, w => w
  | n + 1, i, rc, w =>
    let t := w.getD 0 []
    let back := w.getD 7 []
    if i % 8 = 0 then
      let t := ((t.drop 1) ++ t.take 1).map (boxByte aesBox)
      aesWords n (i + 1) (aesDouble rc) (xorBytes back (xorBytes t (padTo 4 [BitVec.ofNat 8 rc])) :: w)
    else if i % 8 = 4 then aesWords n (i + 1) rc (xorBytes back (t.map (boxByte aesBox)) :: w)
    else aesWords n (i + 1) rc (xorBytes back t :: w)

/-- The fifteen round keys of a 256-bit key. -/
def aesRoundKeys (key : List Byte) : List (List Byte) :=
  pieces 16 (aesWords 52 8 1 (pieces 4 (padTo 32 key)).reverse).reverse.flatten

/-- Bytes of a block, which stands column by column, with row `r` moved `r` times `d` columns. -/
def aesShift (d : Nat) (b : List Byte) : List Byte :=
  (List.range 16).map (fun i => b.getD ((i + 4 * d * (i % 4)) % 16) 0)

/-- Every column of a block times a circulant matrix, given by its first row, of numbers below 16. -/
def aesMix (row : List Nat) (b : List Byte) : List Byte :=
  (List.range 16).map (fun i =>
    BitVec.ofNat 8 ((List.range 4).foldl (fun a j =>
      a ^^^ aesTimes 4 (b.getD (i / 4 * 4 + j) 0).toNat (row.getD ((j + 4 - i % 4) % 4) 0)) 0))

/-- One block encrypted, by its round keys. -/
def aesEncrypt (ks : List (List Byte)) (b : List Byte) : List Byte :=
  let b := (List.range' 1 13).foldl (fun b i =>
    xorBytes (aesMix [2, 3, 1, 1] (aesShift 1 (b.map (boxByte aesBox)))) (ks.getD i [])) (xorBytes b (ks.getD 0 []))
  xorBytes (aesShift 1 (b.map (boxByte aesBox))) (ks.getD 14 [])

/-- One block decrypted. -/
def aesDecrypt (ks : List (List Byte)) (b : List Byte) : List Byte :=
  let b := (List.range' 1 13).foldl (fun b i =>
    aesMix [14, 11, 13, 9] (xorBytes ((aesShift 3 b).map (boxByte aesUnbox)) (ks.getD (14 - i) [])))
    (xorBytes b (ks.getD 14 []))
  xorBytes ((aesShift 3 b).map (boxByte aesUnbox)) (ks.getD 0 [])

/-! ## Galois/Counter Mode -/

/-- The product of two blocks in the field of GCM, the first bit of a block being the highest of its number. -/
def ghashMul (x y : BitVec 128) : BitVec 128 :=
  ((List.range 128).foldl (fun (a : BitVec 128 × BitVec 128) i =>
    (if x.getMsbD i then a.1 ^^^ a.2 else a.1,
     if a.2.getLsbD 0 then (a.2 >>> 1) ^^^ (0xE1 : BitVec 128) <<< 120 else a.2 >>> 1)) (0, y)).1

/-- GHASH of a text of whole blocks. -/
def ghash (h : BitVec 128) (l : List Byte) : BitVec 128 :=
  (pieces 16 l).foldl (fun a b => ghashMul (a ^^^ BitVec.ofNat 128 (beNat b)) h) 0

/-- Bytes zero-padded to whole blocks. -/
def toBlocks (l : List Byte) : List Byte := padTo (roundUp l.length 16) l

/-- A text under counter mode, from counter `n` on. -/
def gcmStream (ks : List (List Byte)) (iv : List Byte) (n : Nat) (l : List Byte) : List Byte :=
  ((pieces 16 l).zipIdx).flatMap (fun q => xorBytes q.1 (aesEncrypt ks (iv ++ beBytes 4 (n + q.2))))

/-- The tag of a ciphertext and additional data. -/
def gcmTag (ks : List (List Byte)) (iv aad sealed : List Byte) : List Byte :=
  let h := BitVec.ofNat 128 (beNat (aesEncrypt ks (zeros 16)))
  let g := ghash h (toBlocks aad ++ toBlocks sealed ++ beBytes 8 (8 * aad.length) ++ beBytes 8 (8 * sealed.length))
  xorBytes (beBytes 16 g.toNat) (aesEncrypt ks (iv ++ beBytes 4 1))

/-- AES-256-GCM with a 12-byte IV: the ciphertext with its tag (R187). -/
def gcmSeal (key iv aad text : List Byte) : List Byte :=
  let ks := aesRoundKeys key
  let c := gcmStream ks (padTo 12 iv) 2 text
  c ++ gcmTag ks (padTo 12 iv) aad c

/-- AES-256-GCM decryption: nothing on a tag failure (R195). -/
def gcmOpen (key iv aad sealed : List Byte) : Option (List Byte) :=
  let ks := aesRoundKeys key
  let c := sealed.take (sealed.length - 16)
  if sealed.length < 16 ∨ sealed.drop c.length ≠ gcmTag ks (padTo 12 iv) aad c then none
  else some (gcmStream ks (padTo 12 iv) 2 c)

/-! ## Key wrap -/

/-- One pass of the wrap over its half blocks: the register and the halves done. -/
def wrapPass (ks : List (List Byte)) (n j : Nat) (a : List Byte) (l : List (List Byte)) : List Byte × List (List Byte) :=
  (l.zipIdx).foldl (fun (q : List Byte × List (List Byte)) r =>
    let b := aesEncrypt ks (q.1 ++ r.1)
    (xorBytes (b.take 8) (beBytes 8 (n * j + r.2 + 1)), q.2 ++ [b.drop 8])) (a, [])

/-- One pass of the unwrap, from the last half block back. -/
def unwrapPass (ks : List (List Byte)) (n j : Nat) (a : List Byte) (l : List (List Byte)) : List Byte × List (List Byte) :=
  (l.zipIdx).foldr (fun r (q : List Byte × List (List Byte)) =>
    let b := aesDecrypt ks (xorBytes q.1 (beBytes 8 (n * j + r.2 + 1)) ++ r.1)
    (b.take 8, b.drop 8 :: q.2)) (a, [])

/-- The initial value of the wrap of `n` bytes. -/
def wrapHead (n : Nat) : List Byte := [0xA6, 0x59, 0x59, 0xA6] ++ beBytes 4 n

/-- The wrap of a text of more than 8 bytes under a key (R543). -/
def wrapKey (kek text : List Byte) : List Byte :=
  let ks := aesRoundKeys kek
  let l := pieces 8 (padTo (roundUp text.length 8) text)
  let q := (List.range 6).foldl (fun (q : List Byte × List (List Byte)) j => wrapPass ks l.length j q.1 q.2)
    (wrapHead text.length, l)
  q.1 ++ q.2.flatten

/-- What a blob holds under a key, or nothing where it does not unwrap (R543, R545). -/
def unwrapKey (kek blob : List Byte) : Option (List Byte) :=
  let ks := aesRoundKeys kek
  let l := pieces 8 (blob.drop 8)
  let q := (List.range 6).foldr (fun j (q : List Byte × List (List Byte)) => unwrapPass ks l.length j q.1 q.2) (blob.take 8, l)
  let n := beNat (q.1.drop 4)
  let d := q.2.flatten
  if blob.length % 8 ≠ 0 ∨ l.length < 2 ∨ q.1.take 4 ≠ [0xA6, 0x59, 0x59, 0xA6] ∨ d.length < n ∨ n + 8 ≤ d.length ∨
      (d.drop n).any (· != 0) then none
  else some (d.take n)

end Sys2Proof.Machine
end

