-- ==== Sys2Proof/Machine/Gf.lean ====
section
/-!
DEFINITION. GF(2^8) with the polynomial 0x11D and α = 0x02, which the line code (R276) and the erasure code (R199) use.
-/

namespace Sys2Proof.Machine

/-- Multiplication by α. -/
def gfDouble (a : Nat) : Nat := if 128 ≤ a then (2 * a) ^^^ 0x11D else 2 * a

/-- Multiplication, over the lowest `k` bits of the second factor. -/
def gfMulAux : Nat → Nat → Nat → Nat
  | 0, _, _ => 0
  | k + 1, a, b => (if b % 2 = 1 then a else 0) ^^^ gfMulAux k (gfDouble a) (b / 2)

/-- Multiplication in GF(2^8). -/
def gfMul (a b : Nat) : Nat := gfMulAux 8 a b

/-- α to a power. -/
def gfAlpha : Nat → Nat
  | 0 => 1
  | n + 1 => gfDouble (gfAlpha n)

/-- The inverse: the 254th power, by seven squarings. The inverse of 0 is taken as 0. -/
def gfInv (a : Nat) : Nat :=
  let p2 := gfMul a a
  let p4 := gfMul p2 p2
  let p8 := gfMul p4 p4
  let p16 := gfMul p8 p8
  let p32 := gfMul p16 p16
  let p64 := gfMul p32 p32
  let p128 := gfMul p64 p64
  gfMul p2 (gfMul p4 (gfMul p8 (gfMul p16 (gfMul p32 (gfMul p64 p128)))))

/-- The exclusive or of a list. -/
def xorAll (l : List Nat) : Nat := l.foldl (· ^^^ ·) 0

/-- The weighted sum: the exclusive or of the products of coefficients and values. -/
def gfDot (cs vs : List Nat) : Nat := xorAll (List.zipWith gfMul cs vs)

end Sys2Proof.Machine
end

