-- ==== Sys2Proof/Machine/Kv.lean ====
section
/-!
DEFINITION. Sorted association lists: the one way State holds sparse data by number.
-/

namespace Sys2Proof.Machine

/-- Values by number, keys strictly rising. -/
abbrev KV (α : Type) := List (Nat × α)

/-- The value at a key. -/
def kvGet? {α : Type} : KV α → Nat → Option α
  | [], _ => none
  | (j, v) :: t, k => if j = k then some v else kvGet? t k

/-- The value at a key, with a default. -/
def kvGet {α : Type} (m : KV α) (k : Nat) (d : α) : α := (kvGet? m k).getD d

/-- The map with a key set. -/
def kvSet {α : Type} : KV α → Nat → α → KV α
  | [], k, v => [(k, v)]
  | (j, w) :: t, k, v =>
    if k < j then (k, v) :: (j, w) :: t
    else if k = j then (k, v) :: t
    else (j, w) :: kvSet t k v

/-- The map without a key. -/
def kvDel {α : Type} : KV α → Nat → KV α
  | [], _ => []
  | (j, w) :: t, k => if j = k then t else (j, w) :: kvDel t k

/-- The map with the value at a key changed by `f`, where there is one. -/
def kvMod {α : Type} (m : KV α) (k : Nat) (f : α → α) : KV α :=
  match kvGet? m k with
  | none => m
  | some v => kvSet m k (f v)

/-- Whether a key is present. -/
def kvHas {α : Type} (m : KV α) (k : Nat) : Bool := (kvGet? m k).isSome

/-- The keys, rising. -/
def kvKeys {α : Type} (m : KV α) : List Nat := m.map (·.1)

/-- The values in key order. -/
def kvVals {α : Type} (m : KV α) : List α := m.map (·.2)

/-- The lowest number below `bound` that is no key of the map. -/
def kvFree {α : Type} (m : KV α) (bound : Nat) : Option Nat := (List.range bound).find? (fun k => !kvHas m k)

/-- Keys strictly rising. -/
def KV.sorted {α : Type} : KV α → Bool
  | [] => true
  | [_] => true
  | (j, _) :: (k, w) :: t => decide (j < k) && KV.sorted ((k, w) :: t)

end Sys2Proof.Machine
end

