-- ==== Sys2Proof/Config.lean ====
section
/-!
DEFINITION. What one part fixes (fused values) and what the spec leaves open: opaque constants without a body, so that
nothing in Lean knows a value of them. Log entry 3 lists them.
-/

namespace Sys2Proof

/-- The fused values of one part, in the order the register tables name them (fields whose reset is "fused"). DESIGN CHOICE, log entry 3. -/
opaque Config.fused : Nat → Nat

/-- Fused value `k`, cut to its field's width. DESIGN CHOICE, log entry 3. -/
def Config.fusedBits (k width : Nat) : Nat := Config.fused k % 2 ^ width

/-- FLT_FIRST_TYPE.DETAIL of an internal event: "source-specific kind of event", with no coding in the spec. DESIGN CHOICE, log entry 3. -/
opaque Config.faultDetail : Nat → Nat

/-- Bits the device draws at random (DRBG output, keys, challenges), by the draw's number. DESIGN CHOICE, log entry 3. -/
opaque Config.random : Nat → Nat → List Byte

/-- The bit width `n` random bytes of draw `k`, exactly `n` of them. -/
def Config.randomBytes (k n : Nat) : List Byte := ((Config.random k n) ++ List.replicate n 0).take n

/-- A value the spec leaves open, by the draw's number. DESIGN CHOICE, log entry 3. -/
opaque Config.freeNat : Nat → Nat

/-- The bytes of Tuber's boot ROM, fixed at manufacture (*Tuber resources*). DESIGN CHOICE, log entry 35. -/
opaque Config.romByte : Nat → Byte

/-- Whether an I/O address lies in Tuber's own window (R340); the spec gives no address of it. DESIGN CHOICE, log entry 35. -/
opaque Config.tuberWindow : Nat → Bool

/-- The search parameters of a PACK level (*Level parameters*). -/
structure PackLevel where
  window : Nat
  hashBits : Nat
  chainDepth : Nat
  minMatch : Nat
  /-- Steps of lazy parsing; 0 parses greedily. -/
  lazySteps : Nat
  /-- Whether FSE tables are computed where smaller than the predefined ones. -/
  computed : Bool
  /-- DEFLATE blocks: dynamic or fixed Huffman, the depth of the search, steps of lazy parsing. -/
  dynamicHuffman : Bool
  deflateDepth : Nat
  deflateLazy : Nat
  deriving DecidableEq, Repr

/-- The lengths of the blocks into which PACK cuts a chunk: the spec gives their most alone. DESIGN CHOICE, log entry 7. -/
opaque Config.zstdCuts (level : PackLevel) (chunk : List Byte) : List Nat

/-- The content of a compressed Zstandard block, `before` the chunk's bytes before it (R178, R179): the spec gives the search's
parameters, not its result. DESIGN CHOICE, log entry 7. -/
opaque Config.zstdBlock (level : PackLevel) (before block : List Byte) : List Byte

/-- The DEFLATE stream of a chunk under a level (R178, R179). DESIGN CHOICE, log entry 7. -/
opaque Config.deflateBody (level : PackLevel) (chunk : List Byte) : List Byte

/-- The images that the NAND holds as delivered, by bank × 2 + (0 Tuber firmware, 1 main image). DESIGN CHOICE, log entry 77. -/
opaque Config.factoryImage : Nat → List Byte

/-- The key hashes of the ROM's two key sets, primary and secondary (R536), fixed at manufacture. DESIGN CHOICE, log entry 77. -/
opaque Config.romKeyHash : Nat → List Byte

/-- Bytes of REMOTE frames that the hold buffer of a DORMANT node takes (R484): no size is given. DESIGN CHOICE, log entry 30. -/
opaque Config.dormantBuffer : Nat

/-- The bytes of a pending entry in DRAM (R166): its layout beyond its size is not given. DESIGN CHOICE, log entry 52. -/
opaque Config.pendEntry (fp : List Byte) (loc owner : Nat) : List Byte

/-- The bytes of a free entry of the pending table (R166). DESIGN CHOICE, log entry 52. -/
opaque Config.pendFree : List Byte

/-- The two signatures of the alias keys of a start over a message (R223, R541, R554): RSA and SLH-DSA. DESIGN CHOICE, log entry 6. -/
opaque Config.sign (which : Nat) (keyTag message : List Byte) : List Byte

/-- Whether a signature over a message verifies under a public key (R533): 0 RSA, 1 SLH-DSA. DESIGN CHOICE, log entry 6. -/
opaque Config.verify (which : Nat) (key message signature : List Byte) : Bool

/-- Keys and certificates derived from the UDS, named by what they are derived from (R538 to R540). DESIGN CHOICE, log entry 6. -/
opaque Config.derive (what : Nat) (from_ : List Byte) : List Byte

/-- Where a function's configuration space holds its MSI-X, power-management, SR-IOV and PCI Express capabilities: byte
offsets of the registers Message Control (upper half of its word), PMCSR, SR-IOV Control and Device Control. DESIGN CHOICE,
log entry 44. -/
opaque Config.msixCap : Nat
opaque Config.pmcsr : Nat
opaque Config.sriovCtl : Nat
opaque Config.devCtl : Nat

end Sys2Proof
end

