-- ==== Sys2Proof/Machine/RegTable.lean ====
section
/-!
DEFINITION. The register tables of spec/01 to spec/18: every named register with its block offset, and every named
field with its bits, access code (R8), reset value and what keeps it (the "kept in MRAM" notes, R458, R562).
Reserved fields have no row: they read 0 and ignore writes (R9).
-/

namespace Sys2Proof.Machine

/-- The access codes of R8. RSV fields have no row. -/
inductive Acc where
  | ro | rw | rwl | w1c | w1s | wo
  deriving DecidableEq, Repr

/-- What keeps a field through a restart. `mram`: survives every restart and the loss of 12 V. `aon`: in a block of a
domain that SPORE keeps on (PD0, PD33), survives a restart but not the loss of 12 V. `ctr`: as `aon`, and returns to
its reset value at FIDDLEHEAD. `no`: in a block of a domain that is off in SPORE. -/
inductive Keep where
  | no | ctr | aon | mram
  deriving DecidableEq, Repr

/-- How the copies of a register are numbered. `array`: by position; the rest by the selector register, the function
page, the pod slot or the issuing core that chooses the copy. -/
inductive Bank where
  | one | array | dom | lane | dev | fnSel | fn | fnq | src | claim | pod | core
  deriving DecidableEq, Repr

/-- Every register of the spec's register tables, by its own name. -/
inductive Reg where
  | ENG_EPB_CTL
  | ENG_EPB_FLAGS
  | ENG_EPB_BYTES_IN
  | ENG_EPB_BYTES_MEDIA
  | ENG_EPB_ENERGY
  | ENG_EPB_TIME
  | ENG_EPB_IDLE
  | ENG_EPB_RESULT
  | ENG_EPB_LIVE
  | CSS_CTL
  | CSS_STATUS
  | CSS_SCH_ASSIGN
  | CSS_SCH_CMD
  | CSS_SCH_QUERY
  | CSS_CC_HIT
  | CSS_CC_MISS
  | CSS_CC_WB
  | CSS_JNL_FREE
  | CSS_REPOSTED
  | CSS_IND
  | CSS_GEN_DROPPED
  | CSS_CTL_LOST
  | CSS_RESET_ENDED
  | CSS_ABANDONED
  | CSS_OE_LOAD
  | CSS_CALL_BASE
  | CSS_CALL_CTL
  | CSS_CALL_ANS
  | CSS_CALL_STAT
  | ENG_ONLINE
  | ENG_PACK_CTL
  | ENG_DOM_SEL
  | ENG_DOM_CTL
  | ENG_DOM_GRANT
  | ENG_DOM_CMD
  | ENG_IDX_CTL
  | ENG_IDX_BASE
  | ENG_IDX_BUCKETS
  | ENG_IDX_CMD
  | ENG_IDX_ARG0
  | ENG_IDX_ARG1
  | ENG_IDX_PURGE
  | ENG_PEND_BASE
  | ENG_PEND_ENTRIES
  | ENG_CHUNKS
  | ENG_CHUNK_MAXCUT
  | ENG_IDX_LOOKUPS
  | ENG_IDX_HITS
  | ENG_IDX_INSERTS
  | ENG_IDX_EVICTS
  | ENG_IDX_POISON
  | ENG_PEND_FULL
  | ENG_PACK_IN
  | ENG_PACK_OUT
  | ENG_PACK_RAW
  | ENG_PACK_VFAIL
  | ENG_UNPACK_FAIL
  | ENG_CUS_CTL
  | ENG_CUS_STRIPES
  | ENG_CUS_EPOCH
  | ENG_CUS_STATUS
  | ENG_CUS_MQ_BASE
  | ENG_CUS_MQ_CTL
  | ENG_CUS_MSTART
  | ENG_CUS_MCFG
  | ENG_POOL_BASE
  | ENG_POOL_SIZE
  | ENG_POOL_CTL
  | ENG_DIR_BASE
  | ENG_DIR_CTL
  | ENG_DIR_CMD
  | ENG_DIR_ARG
  | ENG_DREQ_BASE
  | ENG_DREQ_CTL
  | ENG_DLOG_CTL
  | ENG_DLOG_MARK
  | ENG_SEAL_CTR
  | ENG_SEAL_MISMATCH
  | ENG_UNSEAL_TAGFAIL
  | ENG_SPREAD_SYNFAIL
  | ENG_GATHER_ERASURES
  | ENG_DIGEST_MISMATCH
  | ENG_QUORUM_SHORT
  | ENG_DIR_MISS
  | MPT_PORT_CFG
  | MPT_LANE_SEL
  | MPT_LANE_CTL
  | MPT_LANE_STATUS
  | MPT_LANE_ADDR
  | MPT_PANIC
  | MPT_DISC_CTL
  | MPT_DEV_SEL
  | MPT_DEV_INFO
  | MPT_DEV_NAME
  | MPT_DEV_CAP
  | MPT_DEV_CTL
  | MPT_DEV_GRANT
  | MPT_DEV_CMD
  | MPT_RETRY
  | MPT_GATE
  | MPT_SCRUB_CTL
  | MPT_SCRUB_STATUS
  | MPT_EVQ_BASE
  | MPT_EVQ_CTL
  | MPT_INJ_ARM
  | MPT_INJ_SLOT
  | MPT_RETRIES
  | MPT_TIMEOUTS
  | MPT_TAPE_STARVE
  | MPT_ZONE_FULL
  | MPT_GATE_REFUSED
  | MPT_LATE_IGNORED
  | MPT_SCRUB_ERRORS
  | MPT_EVQ_LOST
  | MPT_LBA_FULL
  | MEM_CFG
  | MEM_ORDER_NEXT
  | MEM_STRIPE_STATUS
  | MEM_STRIPE_CMD
  | MEM_ECC_CTL
  | MEM_TRAIN_CTL
  | MEM_UE_ADDR
  | MEM_SCRUB_CTL
  | MEM_SCRUB_STATUS
  | MEM_REF_STATUS
  | MEM_CE
  | MEM_UE
  | MEM_POISON_READS
  | MEM_AGED
  | MEM_RETRAINS
  | MEM_FE_SWITCHES
  | MEM_PANIC_TIME
  | JNL_STATUS
  | JNL_HEAD
  | JNL_TAIL
  | JNL_WIN_BASE
  | JNL_SCRUB_CTL
  | JNL_FLUSH
  | JNL_REPAIRED
  | JNL_LOST
  | JNL_LOST_LIVE
  | JNL_CARRIED
  | JNL_REFUSED
  | COH_CODE_BASE
  | COH_CODE_LIMIT
  | COH_IOGRANT_S
  | COH_IOGRANT_U
  | COH_ENC
  | COH_CTL
  | COH_STATUS
  | COH_DEAD
  | COH_NACKS
  | COH_TOKENS
  | COH_DIR_EVICTS
  | COH_BACKINV
  | COH_CROSSED
  | COH_AMO_NEAR
  | COH_AMO_FAR
  | COH_POISON_FILLS
  | COH_LOST_LINES
  | COH_MAINT_ADDR
  | COH_MAINT_LEN
  | COH_MAINT_CMD
  | COH_MAINT_PROG
  | COH_L2LOCK
  | COH_IOWIN_BASE
  | COH_IOWIN_LIMIT
  | POD_INT_EN
  | POD_INT_PEND
  | POD_IPI_SET
  | POD_TIMECMP
  | POD_MODE
  | POD_CMD
  | POD_SPLIT_ENTRY
  | POD_RESTART_ENTRY
  | POD_STATUS
  | POD_RETRIES
  | POD_WARM_RESTARTS
  | POD_CFG
  | POD_MAP
  | POD_PHYS
  | POD_SPARES
  | POD_RETRY_CTL
  | POD_SELFTEST
  | POD_SPARINGS
  | FLT_CTL
  | FLT_STATUS
  | FLT_ACK
  | FLT_SEEN
  | FLT_CE_LEVEL
  | FLT_PLEVEL
  | FLT_FIRST_ADDR
  | FLT_FIRST_MASTER
  | FLT_FIRST_TYPE
  | FLT_FIRST_TIME
  | FLT_CNT_SEL
  | FLT_CNT_CE
  | FLT_CNT_UE
  | FLT_CNT_ESC
  | FLT_INJECT
  | RNG_CTL
  | RNG_STATUS
  | RNG_NODES
  | RNG_SESSION
  | RNG_CLAIM_SEL
  | RNG_CLAIM
  | RNG_PSTAT
  | RNG_INJ_ARM
  | RNG_INJ
  | RNG_INJ_HITS
  | RNG_RETX
  | RNG_DUP
  | RNG_MSG_FAILED
  | RNG_CLAIM_DROP
  | RNG_STALE
  | RNG_TX_MSGS
  | RNG_RX_MSGS
  | RNG_CRC_DROP
  | RNG_MALFORMED
  | RNG_FEC_CORR
  | RNG_FEC_UNCORR
  | RNG_WRAPS
  | HST_ID
  | HST_LINK
  | HST_STATUS
  | HST_DARK
  | HST_NOFUNC
  | HST_MBX_REFUSED
  | HST_LINK_DOWNS
  | HST_RD_BYTES
  | HST_WR_BYTES
  | VFM_SEL
  | VFM_CFG
  | VFM_WIN
  | VFM_CMD
  | VFM_FSTAT
  | VFM_CTL
  | VFM_EVENT
  | VFM_MBX_PEND
  | VFM_MBX_IN
  | VFM_MBX_OUT
  | VFM_MBX_CTL
  | FN_MBX_CTL
  | VFM_DIRTY_LO
  | VFM_DIRTY_HI
  | VFM_DIRTY_MAP0
  | VFM_DIRTY_MAP1
  | VFM_DIRTY_CTL
  | VFM_DIRTY_CMD
  | FN_CQ_BASE
  | FN_CQ_CFG
  | FN_CQ_TAILADDR
  | FN_CQ_HEAD
  | FN_STATE
  | FN_WIN
  | CLM_PAIR
  | CLM_CLAIM
  | CLM_PEER_CLAIM
  | CLM_STATUS
  | CLM_CTL
  | CLM_CMD
  | CLM_SWITCHBACK
  | CLM_EVENT
  | CLM_TAKEOVERS
  | CLM_MIRROR_MSGS
  | CLM_HB_LOSSES
  | CLM_HOLDS
  | TMB_REQ_BASE
  | TMB_RSP_BASE
  | TMB_REQ_CTL
  | TMB_RSP_CTL
  | TMB_DMA_BASE
  | TMB_DMA_LIMIT
  | TMB_STATUS
  | TMB_KICK
  | TMB_UNUSABLE
  | LOG_CTL
  | LOG_STATUS
  | LOG_SEQ
  | LOG_EXPORTED
  | LOG_CKPT_SEQ
  | LOG_XQ_BASE
  | LOG_XQ_CTL
  | LOG_CKPT_EXPORTED
  | LOG_DROPPED
  | LOG_REFUSED
  | FUS_STATE
  | FUS_ROLLBACK
  | FUS_SERIAL
  | FUS_SLOT_HASH
  | FUS_MAJORITY
  | DBG_ID
  | DBG_CTL
  | DBG_STATUS
  | DBG_CHAL
  | MOD_STATE
  | MOD_CAUSE
  | MOD_START_COUNT
  | MOD_FAIL_HIST
  | MOD_CMD
  | MOD_CTL
  | MOD_WAKE_TIME
  | MOD_INSTALL_ADDR
  | MOD_INSTALL_LEN
  | MOD_STEP_TIME
  | MOD_MCTP
  | PWR_STATE
  | PWR_REQ
  | PWR_RESULT
  | PWR_FORCE
  | PWR_HOLD
  | PWR_CLKSTOP
  | PWR_POD_MHZ
  | PWR_DARK_DROPS
  | TIM_NOW
  | TIM_EPOCH
  | PWR_INPUT
  | PWR_TEMP
  | PWR_AGE
  | PWR_LIFE_CYCLES
  | PWR_LIFE_HOURS
  | PWR_REFRESH
  deriving DecidableEq, Repr

/-- Every named field of the registers, as register name and field name. -/
inductive Fld where
  | ENG_EPB_CTL_START
  | ENG_EPB_CTL_STOP
  | ENG_EPB_CTL_CAL
  | ENG_EPB_CTL_OPEN
  | ENG_EPB_CTL_CAL_BUSY
  | ENG_EPB_CTL_CAL_VALID
  | ENG_EPB_FLAGS_NONDEFAULT
  | ENG_EPB_FLAGS_HITS
  | ENG_EPB_FLAGS_RETRY
  | ENG_EPB_FLAGS_DEGRADED
  | ENG_EPB_FLAGS_CALSTALE
  | ENG_EPB_FLAGS_COMPRESSED
  | ENG_EPB_FLAGS_RESTORE
  | ENG_EPB_FLAGS_GUARD
  | ENG_EPB_BYTES_IN_BYTES
  | ENG_EPB_BYTES_MEDIA_BYTES
  | ENG_EPB_ENERGY_UJ
  | ENG_EPB_TIME_NS
  | ENG_EPB_IDLE_MW
  | ENG_EPB_RESULT_PJB
  | ENG_EPB_LIVE_PJB
  | CSS_CTL_AGE_TICK
  | CSS_CTL_RETIRE_DELAY
  | CSS_STATUS_ACTIVE
  | CSS_STATUS_RECOVERING
  | CSS_STATUS_JNL_LOW
  | CSS_SCH_ASSIGN_FIRST
  | CSS_SCH_ASSIGN_COUNT
  | CSS_SCH_ASSIGN_FUNCTION
  | CSS_SCH_ASSIGN_REMOTE
  | CSS_SCH_ASSIGN_NODE
  | CSS_SCH_ASSIGN_CQ
  | CSS_SCH_CMD_OP
  | CSS_SCH_CMD_BUSY
  | CSS_SCH_CMD_RESULT
  | CSS_SCH_QUERY_SCH
  | CSS_SCH_QUERY_STATE
  | CSS_SCH_QUERY_FUNCTION
  | CSS_SCH_QUERY_REMOTE
  | CSS_SCH_QUERY_NODE
  | CSS_SCH_QUERY_SEQ_LOW
  | CSS_CC_HIT_COUNT
  | CSS_CC_MISS_COUNT
  | CSS_CC_WB_COUNT
  | CSS_JNL_FREE_RECORDS
  | CSS_REPOSTED_COUNT
  | CSS_IND_COUNT
  | CSS_GEN_DROPPED_COUNT
  | CSS_CTL_LOST_COUNT
  | CSS_RESET_ENDED_COUNT
  | CSS_ABANDONED_COUNT
  | CSS_OE_LOAD_ACTIVE
  | CSS_CALL_BASE_BASE
  | CSS_CALL_CTL_ENABLE
  | CSS_CALL_CTL_LOG2
  | CSS_CALL_CTL_PROD
  | CSS_CALL_CTL_CONS
  | CSS_CALL_ANS_SLOT
  | CSS_CALL_ANS_TAG
  | CSS_CALL_ANS_RESULT
  | CSS_CALL_ANS_LEN
  | CSS_CALL_ANS_GO
  | CSS_CALL_STAT_RESULT
  | CSS_CALL_STAT_OPEN
  | ENG_ONLINE_CHUNK
  | ENG_ONLINE_PROBE
  | ENG_ONLINE_PACK
  | ENG_ONLINE_CODE_RST
  | ENG_ONLINE_PACK0_RST
  | ENG_ONLINE_PACK1_RST
  | ENG_PACK_CTL_MIN_SAVE
  | ENG_DOM_SEL_DOMAIN
  | ENG_DOM_CTL_LIVE
  | ENG_DOM_CTL_OWNER
  | ENG_DOM_CTL_OWN
  | ENG_DOM_CTL_PF_GRANT
  | ENG_DOM_GRANT_VF
  | ENG_DOM_CMD_OP
  | ENG_DOM_CMD_BUSY
  | ENG_DOM_CMD_RESULT
  | ENG_IDX_CTL_ENABLE
  | ENG_IDX_CTL_STATE
  | ENG_IDX_BASE_BASE
  | ENG_IDX_BUCKETS_UNITS
  | ENG_IDX_CMD_OP
  | ENG_IDX_CMD_BUSY
  | ENG_IDX_CMD_RESULT
  | ENG_IDX_CMD_SLOT
  | ENG_IDX_ARG0_ARG
  | ENG_IDX_ARG1_ARG
  | ENG_IDX_PURGE_ACTIVE
  | ENG_IDX_PURGE_DONE
  | ENG_PEND_BASE_BASE
  | ENG_PEND_ENTRIES_LOG2
  | ENG_CHUNKS_COUNT
  | ENG_CHUNK_MAXCUT_COUNT
  | ENG_IDX_LOOKUPS_COUNT
  | ENG_IDX_HITS_COUNT
  | ENG_IDX_INSERTS_COUNT
  | ENG_IDX_EVICTS_COUNT
  | ENG_IDX_POISON_COUNT
  | ENG_PEND_FULL_COUNT
  | ENG_PACK_IN_BYTES
  | ENG_PACK_OUT_BYTES
  | ENG_PACK_RAW_COUNT
  | ENG_PACK_VFAIL_COUNT
  | ENG_UNPACK_FAIL_COUNT
  | ENG_CUS_CTL_EPOCH_SEC
  | ENG_CUS_STRIPES_LIMIT
  | ENG_CUS_EPOCH_OPEN
  | ENG_CUS_STATUS_SIGNING
  | ENG_CUS_STATUS_CLOSED_WAIT
  | ENG_CUS_STATUS_NO_TARGET
  | ENG_CUS_STATUS_STALLED
  | ENG_CUS_STATUS_USED
  | ENG_CUS_MQ_BASE_BASE
  | ENG_CUS_MQ_CTL_LOG2
  | ENG_CUS_MQ_CTL_HEAD
  | ENG_CUS_MQ_CTL_TAIL
  | ENG_CUS_MQ_CTL_VECTOR
  | ENG_CUS_MSTART_START
  | ENG_CUS_MCFG_DEVICE
  | ENG_CUS_MCFG_VALID
  | ENG_CUS_MCFG_BLOCKS
  | ENG_POOL_BASE_BASE
  | ENG_POOL_SIZE_UNITS
  | ENG_POOL_CTL_ENABLE
  | ENG_POOL_CTL_FREE
  | ENG_DIR_BASE_BASE
  | ENG_DIR_CTL_CHUNK_UNITS
  | ENG_DIR_CTL_STRIPE_UNITS
  | ENG_DIR_CTL_ENABLE
  | ENG_DIR_CMD_OP
  | ENG_DIR_CMD_BUSY
  | ENG_DIR_CMD_KIND
  | ENG_DIR_CMD_RESULT
  | ENG_DIR_ARG_ID
  | ENG_DREQ_BASE_BASE
  | ENG_DREQ_CTL_LOG2
  | ENG_DREQ_CTL_REARM
  | ENG_DREQ_CTL_HEAD
  | ENG_DREQ_CTL_TAIL
  | ENG_DLOG_CTL_HEAD
  | ENG_DLOG_CTL_TAIL
  | ENG_DLOG_CTL_FULL
  | ENG_DLOG_MARK_MARK
  | ENG_SEAL_CTR_RESERVED
  | ENG_SEAL_MISMATCH_COUNT
  | ENG_UNSEAL_TAGFAIL_COUNT
  | ENG_SPREAD_SYNFAIL_COUNT
  | ENG_GATHER_ERASURES_COUNT
  | ENG_DIGEST_MISMATCH_COUNT
  | ENG_QUORUM_SHORT_COUNT
  | ENG_DIR_MISS_COUNT
  | MPT_PORT_CFG_NARROW
  | MPT_LANE_SEL_LANE
  | MPT_LANE_CTL_ENABLE
  | MPT_LANE_CTL_MAX_RATE
  | MPT_LANE_CTL_WATERMARK
  | MPT_LANE_CTL_RELEASE
  | MPT_LANE_STATUS_UP
  | MPT_LANE_STATUS_RATE
  | MPT_LANE_STATUS_PANIC
  | MPT_LANE_STATUS_FILL
  | MPT_LANE_ADDR_SAS_ADDR
  | MPT_PANIC_LANES
  | MPT_DISC_CTL_RUN
  | MPT_DISC_CTL_BUSY
  | MPT_DISC_CTL_DEVICES
  | MPT_DISC_CTL_EXPANDERS
  | MPT_DISC_CTL_OVERFLOW
  | MPT_DEV_SEL_DEVICE
  | MPT_DEV_INFO_STATE
  | MPT_DEV_INFO_TYPE
  | MPT_DEV_INFO_PATHS
  | MPT_DEV_INFO_DUAL
  | MPT_DEV_INFO_LBS
  | MPT_DEV_INFO_EW
  | MPT_DEV_INFO_PR
  | MPT_DEV_NAME_NAME
  | MPT_DEV_CAP_BLOCKS
  | MPT_DEV_CTL_DURABLE
  | MPT_DEV_CTL_RT
  | MPT_DEV_CTL_SCRUB_EN
  | MPT_DEV_CTL_PF_GRANT
  | MPT_DEV_CTL_QDEPTH
  | MPT_DEV_GRANT_VF
  | MPT_DEV_CMD_OP
  | MPT_DEV_CMD_RESULT
  | MPT_RETRY_COUNT
  | MPT_RETRY_DISK_TMO
  | MPT_RETRY_TAPE_TMO
  | MPT_GATE_OPEN
  | MPT_GATE_CAUSE
  | MPT_SCRUB_CTL_ENABLE
  | MPT_SCRUB_CTL_PERIOD_DAYS
  | MPT_SCRUB_CTL_SEGMENT_LOG2
  | MPT_SCRUB_STATUS_BEHIND
  | MPT_SCRUB_STATUS_ROUNDS
  | MPT_EVQ_BASE_BASE
  | MPT_EVQ_CTL_LOG2
  | MPT_EVQ_CTL_HEAD
  | MPT_EVQ_CTL_TAIL
  | MPT_INJ_ARM_ARMED
  | MPT_INJ_ARM_ACTIVE
  | MPT_INJ_SLOT_DEVICE
  | MPT_INJ_SLOT_KIND
  | MPT_INJ_SLOT_MODE
  | MPT_INJ_SLOT_N
  | MPT_INJ_SLOT_PARAM
  | MPT_RETRIES_COUNT
  | MPT_TIMEOUTS_COUNT
  | MPT_TAPE_STARVE_COUNT
  | MPT_ZONE_FULL_COUNT
  | MPT_GATE_REFUSED_COUNT
  | MPT_LATE_IGNORED_COUNT
  | MPT_SCRUB_ERRORS_COUNT
  | MPT_EVQ_LOST_COUNT
  | MPT_LBA_FULL_COUNT
  | MEM_CFG_ORDER
  | MEM_CFG_RETAINED
  | MEM_ORDER_NEXT_ORDER
  | MEM_STRIPE_STATUS_FAILED
  | MEM_STRIPE_STATUS_FE_ACTIVE
  | MEM_STRIPE_STATUS_RETRAIN
  | MEM_STRIPE_CMD_OP
  | MEM_STRIPE_CMD_STRIPE
  | MEM_STRIPE_CMD_RESULT
  | MEM_ECC_CTL_FAIL_THRESH
  | MEM_ECC_CTL_WRITEBACK
  | MEM_TRAIN_CTL_DRIFT
  | MEM_UE_ADDR_ADDR
  | MEM_UE_ADDR_VALID
  | MEM_SCRUB_CTL_ENABLE
  | MEM_SCRUB_STATUS_POS
  | MEM_SCRUB_STATUS_PASSES
  | MEM_REF_STATUS_POSTPONED
  | MEM_REF_STATUS_RATE
  | MEM_CE_COUNT
  | MEM_UE_COUNT
  | MEM_POISON_READS_COUNT
  | MEM_AGED_COUNT
  | MEM_RETRAINS_COUNT
  | MEM_FE_SWITCHES_COUNT
  | MEM_PANIC_TIME_NS
  | JNL_STATUS_DIES
  | JNL_STATUS_SINGLE
  | JNL_STATUS_FLUSHING
  | JNL_STATUS_REFUSING
  | JNL_HEAD_COUNT
  | JNL_TAIL_COUNT
  | JNL_WIN_BASE_BASE
  | JNL_SCRUB_CTL_ENABLE
  | JNL_FLUSH_WRITES
  | JNL_FLUSH_CLEAN
  | JNL_FLUSH_US
  | JNL_REPAIRED_COUNT
  | JNL_LOST_COUNT
  | JNL_LOST_LIVE_COUNT
  | JNL_CARRIED_COUNT
  | JNL_REFUSED_COUNT
  | COH_CODE_BASE_BASE
  | COH_CODE_BASE_MONLY
  | COH_CODE_BASE_VALID
  | COH_CODE_LIMIT_LIMIT
  | COH_CODE_LIMIT_LOCK
  | COH_IOGRANT_S_BLOCKS
  | COH_IOGRANT_U_BLOCKS
  | COH_ENC_VALID
  | COH_ENC_WORLD
  | COH_ENC_SIZE
  | COH_ENC_BASE
  | COH_CTL_READY
  | COH_CTL_PRED_OFF
  | COH_STATUS_DOMAIN
  | COH_STATUS_RESTARTS
  | COH_DEAD_AGENT
  | COH_DEAD_VALID
  | COH_NACKS_COUNT
  | COH_TOKENS_COUNT
  | COH_DIR_EVICTS_COUNT
  | COH_BACKINV_COUNT
  | COH_CROSSED_COUNT
  | COH_AMO_NEAR_COUNT
  | COH_AMO_FAR_COUNT
  | COH_POISON_FILLS_COUNT
  | COH_LOST_LINES_COUNT
  | COH_MAINT_ADDR_ADDR
  | COH_MAINT_LEN_LEN
  | COH_MAINT_CMD_OP
  | COH_MAINT_CMD_DONE
  | COH_MAINT_CMD_RESULT
  | COH_MAINT_PROG_NEXT
  | COH_L2LOCK_WAYS
  | COH_IOWIN_BASE_BASE
  | COH_IOWIN_BASE_VALID
  | COH_IOWIN_LIMIT_LIMIT
  | POD_INT_EN_EN
  | POD_INT_PEND_LATCHED
  | POD_INT_PEND_LEVEL
  | POD_IPI_SET_RAISE
  | POD_TIMECMP_TIME
  | POD_MODE_MODE
  | POD_MODE_SERVICE
  | POD_MODE_PARKED
  | POD_MODE_PHYS
  | POD_CMD_OP
  | POD_CMD_BUSY
  | POD_CMD_RESULT
  | POD_SPLIT_ENTRY_ADDR
  | POD_RESTART_ENTRY_ADDR
  | POD_STATUS_ERR
  | POD_STATUS_LANES
  | POD_STATUS_COMPFAULT
  | POD_STATUS_RETIRE
  | POD_RETRIES_COUNT
  | POD_WARM_RESTARTS_COUNT
  | POD_CFG_SERVICE
  | POD_CFG_SPLIT_SERVICE
  | POD_CFG_MIN_PODS
  | POD_MAP_MAP
  | POD_PHYS_STATE
  | POD_SPARES_LOGICAL
  | POD_SPARES_LEFT
  | POD_RETRY_CTL_LIMIT
  | POD_SELFTEST_FAILED
  | POD_SPARINGS_COUNT
  | FLT_CTL_L3_ACTION
  | FLT_CTL_IRQ_POD
  | FLT_CTL_VECTOR
  | FLT_CTL_COLL
  | FLT_STATUS_SRC
  | FLT_ACK_SRC
  | FLT_SEEN_SRC
  | FLT_CE_LEVEL_SRC
  | FLT_PLEVEL_LEVEL
  | FLT_FIRST_ADDR_ADDR
  | FLT_FIRST_MASTER_ORIGIN
  | FLT_FIRST_TYPE_SOURCE
  | FLT_FIRST_TYPE_LEVEL
  | FLT_FIRST_TYPE_UE
  | FLT_FIRST_TYPE_ESCALATED
  | FLT_FIRST_TYPE_INJECTED
  | FLT_FIRST_TYPE_ACCESS
  | FLT_FIRST_TYPE_KIND
  | FLT_FIRST_TYPE_DETAIL
  | FLT_FIRST_TYPE_VALID
  | FLT_FIRST_TIME_NS
  | FLT_CNT_SEL_SOURCE
  | FLT_CNT_CE_COUNT
  | FLT_CNT_UE_COUNT
  | FLT_CNT_ESC_COUNT
  | FLT_INJECT_SOURCE
  | FLT_INJECT_UE
  | FLT_INJECT_NOREACT
  | FLT_INJECT_GO
  | FLT_INJECT_RESULT
  | RNG_CTL_INSERT
  | RNG_STATUS_STATE
  | RNG_STATUS_NODE
  | RNG_STATUS_DUPLICATE
  | RNG_STATUS_WRAP_W
  | RNG_STATUS_WRAP_E
  | RNG_STATUS_BYPASS
  | RNG_STATUS_TEST_FAIL
  | RNG_NODES_PRESENT
  | RNG_NODES_DORMANT
  | RNG_SESSION_SESSION
  | RNG_CLAIM_SEL_PAIR
  | RNG_CLAIM_CLAIM
  | RNG_CLAIM_NODE
  | RNG_CLAIM_VALID
  | RNG_PSTAT_LIGHT
  | RNG_PSTAT_LOCK
  | RNG_PSTAT_LANES
  | RNG_PSTAT_LOOP_PASS
  | RNG_INJ_ARM_ARMED
  | RNG_INJ_ARM_ACTIVE
  | RNG_INJ_KIND
  | RNG_INJ_MODE
  | RNG_INJ_CLASSES
  | RNG_INJ_ALL
  | RNG_INJ_N
  | RNG_INJ_PARAM
  | RNG_INJ_HITS_COUNT
  | RNG_RETX_COUNT
  | RNG_DUP_COUNT
  | RNG_MSG_FAILED_COUNT
  | RNG_CLAIM_DROP_COUNT
  | RNG_STALE_COUNT
  | RNG_TX_MSGS_COUNT
  | RNG_RX_MSGS_COUNT
  | RNG_CRC_DROP_COUNT
  | RNG_MALFORMED_COUNT
  | RNG_FEC_CORR_COUNT
  | RNG_FEC_UNCORR_COUNT
  | RNG_WRAPS_COUNT
  | HST_ID_VENDOR
  | HST_ID_DEVICE
  | HST_ID_REV
  | HST_LINK_SPEED
  | HST_LINK_WIDTH
  | HST_LINK_MAX_SPEED
  | HST_LINK_MAX_WIDTH
  | HST_LINK_UP
  | HST_LINK_UPCFG
  | HST_STATUS_DARK
  | HST_DARK_COUNT
  | HST_NOFUNC_COUNT
  | HST_MBX_REFUSED_COUNT
  | HST_LINK_DOWNS_COUNT
  | HST_RD_BYTES_COUNT
  | HST_WR_BYTES_COUNT
  | VFM_SEL_FUNCTION
  | VFM_CFG_NCQ
  | VFM_CFG_MAX_ACTIVE
  | VFM_WIN_UNITS
  | VFM_WIN_BASE
  | VFM_CMD_OP
  | VFM_CMD_BUSY
  | VFM_CMD_RESULT
  | VFM_FSTAT_STATE
  | VFM_FSTAT_PAUSED
  | VFM_FSTAT_GEN
  | VFM_FSTAT_ACTIVE
  | VFM_CTL_VECTOR
  | VFM_EVENT_FLR
  | VFM_MBX_PEND_FULL
  | VFM_MBX_IN_DATA
  | VFM_MBX_OUT_DATA
  | VFM_MBX_CTL_LEN
  | VFM_MBX_CTL_SEND
  | VFM_MBX_CTL_BUSY
  | VFM_MBX_CTL_FULL
  | VFM_MBX_CTL_ACK
  | VFM_MBX_CTL_IN_LEN
  | VFM_MBX_CTL_BLOCK
  | FN_MBX_CTL_LEN
  | FN_MBX_CTL_SEND
  | FN_MBX_CTL_BUSY
  | FN_MBX_CTL_FULL
  | FN_MBX_CTL_ACK
  | FN_MBX_CTL_IN_LEN
  | FN_MBX_CTL_VECTOR
  | VFM_DIRTY_LO_ADDR
  | VFM_DIRTY_HI_ADDR
  | VFM_DIRTY_MAP0_ADDR
  | VFM_DIRTY_MAP1_ADDR
  | VFM_DIRTY_CTL_ENABLE
  | VFM_DIRTY_CTL_ACTIVE
  | VFM_DIRTY_CMD_SYNC
  | VFM_DIRTY_CMD_BUSY
  | VFM_DIRTY_CMD_RESULT
  | FN_CQ_BASE_BASE
  | FN_CQ_CFG_ENABLE
  | FN_CQ_CFG_LOG2
  | FN_CQ_CFG_VECTOR
  | FN_CQ_CFG_COAL_COUNT
  | FN_CQ_CFG_COAL_US
  | FN_CQ_CFG_FULL
  | FN_CQ_CFG_HEADERR
  | FN_CQ_CFG_CFGERR
  | FN_CQ_TAILADDR_ADDR
  | FN_CQ_HEAD_HEAD
  | FN_CQ_HEAD_TAIL
  | FN_STATE_STATE
  | FN_STATE_PAUSED
  | FN_STATE_DEVICE_READY
  | FN_STATE_NCQ
  | FN_STATE_GEN
  | FN_STATE_SUBCHANNELS
  | FN_WIN_WIN
  | CLM_PAIR_PAIR_ID
  | CLM_PAIR_MEMBER
  | CLM_PAIR_PAIRED
  | CLM_CLAIM_CLAIM
  | CLM_PEER_CLAIM_CLAIM
  | CLM_PEER_CLAIM_SOURCE
  | CLM_STATUS_ROLE
  | CLM_STATUS_SYNC
  | CLM_STATUS_HB_LOST
  | CLM_STATUS_PEER_PRESENT
  | CLM_STATUS_CFG_MISMATCH
  | CLM_STATUS_WAIT_PEER
  | CLM_STATUS_HOLD
  | CLM_CTL_FENCE_MS
  | CLM_CTL_VECTOR
  | CLM_CMD_OP
  | CLM_CMD_BUSY
  | CLM_CMD_RESULT
  | CLM_SWITCHBACK_GO
  | CLM_SWITCHBACK_BUSY
  | CLM_SWITCHBACK_RESULT
  | CLM_EVENT_HB_LOST
  | CLM_EVENT_TAKEOVER
  | CLM_EVENT_OUTCLAIMED
  | CLM_EVENT_DETACHED
  | CLM_EVENT_IN_STEP
  | CLM_TAKEOVERS_COUNT
  | CLM_MIRROR_MSGS_COUNT
  | CLM_HB_LOSSES_COUNT
  | CLM_HOLDS_COUNT
  | TMB_REQ_BASE_BASE
  | TMB_RSP_BASE_BASE
  | TMB_REQ_CTL_LOG2
  | TMB_REQ_CTL_PROD
  | TMB_REQ_CTL_CONS
  | TMB_RSP_CTL_LOG2
  | TMB_RSP_CTL_PROD
  | TMB_RSP_CTL_CONS
  | TMB_DMA_BASE_ADDR
  | TMB_DMA_BASE_LOCK
  | TMB_DMA_LIMIT_ADDR
  | TMB_DMA_LIMIT_LOCK
  | TMB_STATUS_RUNNING
  | TMB_STATUS_RESTARTING
  | TMB_STATUS_DRBG_OK
  | TMB_STATUS_BANK
  | TMB_STATUS_DEBUG
  | TMB_STATUS_RESTARTS
  | TMB_KICK_KICK
  | TMB_UNUSABLE_COUNT
  | LOG_CTL_CKPT_LOG2
  | LOG_CTL_CKPT_SEC
  | LOG_CTL_VECTOR
  | LOG_STATUS_FULL
  | LOG_STATUS_RESERVE
  | LOG_STATUS_CHAIN_BROKEN
  | LOG_STATUS_SIGNING
  | LOG_SEQ_SEQ
  | LOG_EXPORTED_SEQ
  | LOG_CKPT_SEQ_SEQ
  | LOG_XQ_BASE_BASE
  | LOG_XQ_CTL_ENABLE
  | LOG_XQ_CTL_LOG2
  | LOG_CKPT_EXPORTED_COUNT
  | LOG_CKPT_EXPORTED_MADE
  | LOG_DROPPED_COUNT
  | LOG_REFUSED_COUNT
  | FUS_STATE_DEBUG_KILL
  | FUS_STATE_ROM_PRIMARY_REVOKED
  | FUS_STATE_SLOT_PROG
  | FUS_STATE_SLOT_REVOKED
  | FUS_ROLLBACK_FUSED
  | FUS_ROLLBACK_MIRROR
  | FUS_SERIAL_ASCII
  | FUS_SLOT_HASH_HASH
  | FUS_MAJORITY_COUNT
  | DBG_ID_IDCODE
  | DBG_CTL_LEVEL
  | DBG_CTL_REQ
  | DBG_CTL_CHECK
  | DBG_STATUS_GRANTED
  | DBG_STATUS_FAILS
  | DBG_STATUS_CHAL_VALID
  | DBG_CHAL_BYTES
  | MOD_STATE_MODE
  | MOD_STATE_PENDING
  | MOD_STATE_STEPS
  | MOD_STATE_RETAINED
  | MOD_CAUSE_CODE
  | MOD_CAUSE_ORIGIN
  | MOD_START_COUNT_COUNT
  | MOD_FAIL_HIST_LAST
  | MOD_FAIL_HIST_PREV
  | MOD_FAIL_HIST_OLDEST
  | MOD_CMD_OP
  | MOD_CMD_RETAIN
  | MOD_CMD_CLEAR
  | MOD_CMD_BUSY
  | MOD_CMD_RESULT
  | MOD_CTL_DRAIN_S
  | MOD_CTL_VECTOR
  | MOD_WAKE_TIME_TIME
  | MOD_INSTALL_ADDR_VALUE
  | MOD_INSTALL_LEN_VALUE
  | MOD_STEP_TIME_US
  | MOD_MCTP_ADDR
  | MOD_MCTP_EID
  | MOD_MCTP_DISABLE
  | PWR_STATE_ON
  | PWR_REQ_DOMAIN
  | PWR_REQ_OP
  | PWR_RESULT_BUSY
  | PWR_RESULT_DEFERRED
  | PWR_RESULT_RESULT
  | PWR_FORCE_REASON
  | PWR_FORCE_GO
  | PWR_HOLD_HELD
  | PWR_CLKSTOP_STOPPED
  | PWR_POD_MHZ_STEP
  | PWR_POD_MHZ_NOW
  | PWR_DARK_DROPS_COUNT
  | TIM_NOW_NS
  | TIM_EPOCH_OFFSET
  | TIM_EPOCH_VALID
  | PWR_INPUT_MV
  | PWR_INPUT_MA
  | PWR_INPUT_MW
  | PWR_TEMP_TJ_MAX
  | PWR_TEMP_LID
  | PWR_TEMP_ISLAND
  | PWR_TEMP_THROTTLE
  | PWR_AGE_STEPS
  | PWR_AGE_FMAX
  | PWR_AGE_EXHAUSTED
  | PWR_LIFE_CYCLES_COUNT
  | PWR_LIFE_HOURS_COUNT
  | PWR_REFRESH_RUNNING
  | PWR_REFRESH_PERCENT
  | PWR_REFRESH_UTC_VALID
  | PWR_REFRESH_LAST
  deriving DecidableEq, Repr

/-- One field's row of its register table. -/
structure FldInfo where
  reg : Reg
  hi : Nat
  lo : Nat
  acc : Acc
  reset : Nat
  keep : Keep

/-- One register's heading: its byte address in the I/O space (R12; for the FN_ registers the offset in the function's
own pages), the distance and number of its repeats, its width in bits, how its copies are numbered. -/
structure RegInfo where
  base : Nat
  stride : Nat
  count : Nat
  width : Nat
  bank : Bank

/-- The rows of the register tables. DESIGN CHOICE, log entry 2. -/
def Fld.info : Fld → FldInfo
  | .ENG_EPB_CTL_START => ⟨.ENG_EPB_CTL, 0, 0, .w1s, 0, .no⟩
  | .ENG_EPB_CTL_STOP => ⟨.ENG_EPB_CTL, 1, 1, .w1s, 0, .no⟩
  | .ENG_EPB_CTL_CAL => ⟨.ENG_EPB_CTL, 2, 2, .w1s, 0, .no⟩
  | .ENG_EPB_CTL_OPEN => ⟨.ENG_EPB_CTL, 3, 3, .ro, 0, .no⟩
  | .ENG_EPB_CTL_CAL_BUSY => ⟨.ENG_EPB_CTL, 4, 4, .ro, 0, .no⟩
  | .ENG_EPB_CTL_CAL_VALID => ⟨.ENG_EPB_CTL, 5, 5, .ro, 0, .no⟩
  | .ENG_EPB_FLAGS_NONDEFAULT => ⟨.ENG_EPB_FLAGS, 0, 0, .ro, 0, .no⟩
  | .ENG_EPB_FLAGS_HITS => ⟨.ENG_EPB_FLAGS, 1, 1, .ro, 0, .no⟩
  | .ENG_EPB_FLAGS_RETRY => ⟨.ENG_EPB_FLAGS, 2, 2, .ro, 0, .no⟩
  | .ENG_EPB_FLAGS_DEGRADED => ⟨.ENG_EPB_FLAGS, 3, 3, .ro, 0, .no⟩
  | .ENG_EPB_FLAGS_CALSTALE => ⟨.ENG_EPB_FLAGS, 4, 4, .ro, 0, .no⟩
  | .ENG_EPB_FLAGS_COMPRESSED => ⟨.ENG_EPB_FLAGS, 5, 5, .ro, 0, .no⟩
  | .ENG_EPB_FLAGS_RESTORE => ⟨.ENG_EPB_FLAGS, 6, 6, .ro, 0, .no⟩
  | .ENG_EPB_FLAGS_GUARD => ⟨.ENG_EPB_FLAGS, 7, 7, .ro, 0, .no⟩
  | .ENG_EPB_BYTES_IN_BYTES => ⟨.ENG_EPB_BYTES_IN, 63, 0, .ro, 0, .no⟩
  | .ENG_EPB_BYTES_MEDIA_BYTES => ⟨.ENG_EPB_BYTES_MEDIA, 63, 0, .ro, 0, .no⟩
  | .ENG_EPB_ENERGY_UJ => ⟨.ENG_EPB_ENERGY, 63, 0, .ro, 0, .no⟩
  | .ENG_EPB_TIME_NS => ⟨.ENG_EPB_TIME, 63, 0, .ro, 0, .no⟩
  | .ENG_EPB_IDLE_MW => ⟨.ENG_EPB_IDLE, 31, 0, .ro, 0, .no⟩
  | .ENG_EPB_RESULT_PJB => ⟨.ENG_EPB_RESULT, 31, 0, .ro, 0, .no⟩
  | .ENG_EPB_LIVE_PJB => ⟨.ENG_EPB_LIVE, 31, 0, .ro, 0, .no⟩
  | .CSS_CTL_AGE_TICK => ⟨.CSS_CTL, 7, 0, .rwl, 10, .no⟩
  | .CSS_CTL_RETIRE_DELAY => ⟨.CSS_CTL, 15, 8, .rwl, 10, .no⟩
  | .CSS_STATUS_ACTIVE => ⟨.CSS_STATUS, 9, 0, .ro, 0, .no⟩
  | .CSS_STATUS_RECOVERING => ⟨.CSS_STATUS, 10, 10, .ro, 0, .no⟩
  | .CSS_STATUS_JNL_LOW => ⟨.CSS_STATUS, 11, 11, .ro, 0, .no⟩
  | .CSS_SCH_ASSIGN_FIRST => ⟨.CSS_SCH_ASSIGN, 11, 0, .rwl, 0, .no⟩
  | .CSS_SCH_ASSIGN_COUNT => ⟨.CSS_SCH_ASSIGN, 24, 12, .rwl, 0, .no⟩
  | .CSS_SCH_ASSIGN_FUNCTION => ⟨.CSS_SCH_ASSIGN, 38, 32, .rwl, 0, .no⟩
  | .CSS_SCH_ASSIGN_REMOTE => ⟨.CSS_SCH_ASSIGN, 39, 39, .rwl, 0, .no⟩
  | .CSS_SCH_ASSIGN_NODE => ⟨.CSS_SCH_ASSIGN, 44, 40, .rwl, 0, .no⟩
  | .CSS_SCH_ASSIGN_CQ => ⟨.CSS_SCH_ASSIGN, 55, 48, .rwl, 0, .no⟩
  | .CSS_SCH_CMD_OP => ⟨.CSS_SCH_CMD, 1, 0, .wo, 0, .no⟩
  | .CSS_SCH_CMD_BUSY => ⟨.CSS_SCH_CMD, 2, 2, .ro, 0, .no⟩
  | .CSS_SCH_CMD_RESULT => ⟨.CSS_SCH_CMD, 11, 8, .ro, 0, .no⟩
  | .CSS_SCH_QUERY_SCH => ⟨.CSS_SCH_QUERY, 11, 0, .rw, 0, .no⟩
  | .CSS_SCH_QUERY_STATE => ⟨.CSS_SCH_QUERY, 15, 12, .ro, 0, .no⟩
  | .CSS_SCH_QUERY_FUNCTION => ⟨.CSS_SCH_QUERY, 22, 16, .ro, 0, .no⟩
  | .CSS_SCH_QUERY_REMOTE => ⟨.CSS_SCH_QUERY, 23, 23, .ro, 0, .no⟩
  | .CSS_SCH_QUERY_NODE => ⟨.CSS_SCH_QUERY, 28, 24, .ro, 0, .no⟩
  | .CSS_SCH_QUERY_SEQ_LOW => ⟨.CSS_SCH_QUERY, 63, 32, .ro, 0, .no⟩
  | .CSS_CC_HIT_COUNT => ⟨.CSS_CC_HIT, 63, 0, .ro, 0, .no⟩
  | .CSS_CC_MISS_COUNT => ⟨.CSS_CC_MISS, 63, 0, .ro, 0, .no⟩
  | .CSS_CC_WB_COUNT => ⟨.CSS_CC_WB, 63, 0, .ro, 0, .no⟩
  | .CSS_JNL_FREE_RECORDS => ⟨.CSS_JNL_FREE, 63, 0, .ro, 0x1800000, .no⟩
  | .CSS_REPOSTED_COUNT => ⟨.CSS_REPOSTED, 63, 0, .ro, 0, .no⟩
  | .CSS_IND_COUNT => ⟨.CSS_IND, 63, 0, .ro, 0, .no⟩
  | .CSS_GEN_DROPPED_COUNT => ⟨.CSS_GEN_DROPPED, 63, 0, .ro, 0, .no⟩
  | .CSS_CTL_LOST_COUNT => ⟨.CSS_CTL_LOST, 63, 0, .ro, 0, .no⟩
  | .CSS_RESET_ENDED_COUNT => ⟨.CSS_RESET_ENDED, 63, 0, .ro, 0, .no⟩
  | .CSS_ABANDONED_COUNT => ⟨.CSS_ABANDONED, 63, 0, .ro, 0, .no⟩
  | .CSS_OE_LOAD_ACTIVE => ⟨.CSS_OE_LOAD, 6, 0, .ro, 0, .no⟩
  | .CSS_CALL_BASE_BASE => ⟨.CSS_CALL_BASE, 45, 21, .rw, 0, .no⟩
  | .CSS_CALL_CTL_ENABLE => ⟨.CSS_CALL_CTL, 0, 0, .rw, 0, .no⟩
  | .CSS_CALL_CTL_LOG2 => ⟨.CSS_CALL_CTL, 3, 1, .rw, 0, .no⟩
  | .CSS_CALL_CTL_PROD => ⟨.CSS_CALL_CTL, 23, 16, .ro, 0, .no⟩
  | .CSS_CALL_CTL_CONS => ⟨.CSS_CALL_CTL, 39, 32, .rw, 0, .no⟩
  | .CSS_CALL_ANS_SLOT => ⟨.CSS_CALL_ANS, 7, 0, .wo, 0, .no⟩
  | .CSS_CALL_ANS_TAG => ⟨.CSS_CALL_ANS, 31, 16, .wo, 0, .no⟩
  | .CSS_CALL_ANS_RESULT => ⟨.CSS_CALL_ANS, 47, 32, .wo, 0, .no⟩
  | .CSS_CALL_ANS_LEN => ⟨.CSS_CALL_ANS, 61, 48, .wo, 0, .no⟩
  | .CSS_CALL_ANS_GO => ⟨.CSS_CALL_ANS, 63, 63, .wo, 0, .no⟩
  | .CSS_CALL_STAT_RESULT => ⟨.CSS_CALL_STAT, 3, 0, .ro, 0, .no⟩
  | .CSS_CALL_STAT_OPEN => ⟨.CSS_CALL_STAT, 40, 32, .ro, 0, .no⟩
  | .ENG_ONLINE_CHUNK => ⟨.ENG_ONLINE, 7, 0, .ro, 0, .no⟩
  | .ENG_ONLINE_PROBE => ⟨.ENG_ONLINE, 17, 8, .ro, 0, .no⟩
  | .ENG_ONLINE_PACK => ⟨.ENG_ONLINE, 25, 18, .ro, 0, .no⟩
  | .ENG_ONLINE_CODE_RST => ⟨.ENG_ONLINE, 26, 26, .ro, 0, .no⟩
  | .ENG_ONLINE_PACK0_RST => ⟨.ENG_ONLINE, 27, 27, .ro, 0, .no⟩
  | .ENG_ONLINE_PACK1_RST => ⟨.ENG_ONLINE, 28, 28, .ro, 0, .no⟩
  | .ENG_PACK_CTL_MIN_SAVE => ⟨.ENG_PACK_CTL, 7, 0, .rwl, 8, .no⟩
  | .ENG_DOM_SEL_DOMAIN => ⟨.ENG_DOM_SEL, 11, 0, .rw, 0, .no⟩
  | .ENG_DOM_CTL_LIVE => ⟨.ENG_DOM_CTL, 0, 0, .ro, 0, .mram⟩
  | .ENG_DOM_CTL_OWNER => ⟨.ENG_DOM_CTL, 7, 1, .rwl, 0, .mram⟩
  | .ENG_DOM_CTL_OWN => ⟨.ENG_DOM_CTL, 8, 8, .rwl, 0, .mram⟩
  | .ENG_DOM_CTL_PF_GRANT => ⟨.ENG_DOM_CTL, 9, 9, .rwl, 0, .mram⟩
  | .ENG_DOM_GRANT_VF => ⟨.ENG_DOM_GRANT, 63, 0, .rwl, 0, .mram⟩
  | .ENG_DOM_CMD_OP => ⟨.ENG_DOM_CMD, 1, 0, .wo, 0, .no⟩
  | .ENG_DOM_CMD_BUSY => ⟨.ENG_DOM_CMD, 2, 2, .ro, 0, .no⟩
  | .ENG_DOM_CMD_RESULT => ⟨.ENG_DOM_CMD, 11, 8, .ro, 0, .no⟩
  | .ENG_IDX_CTL_ENABLE => ⟨.ENG_IDX_CTL, 0, 0, .rwl, 0, .no⟩
  | .ENG_IDX_CTL_STATE => ⟨.ENG_IDX_CTL, 2, 1, .ro, 0, .aon⟩
  | .ENG_IDX_BASE_BASE => ⟨.ENG_IDX_BASE, 45, 21, .rwl, 0, .no⟩
  | .ENG_IDX_BUCKETS_UNITS => ⟨.ENG_IDX_BUCKETS, 10, 0, .rwl, 0, .no⟩
  | .ENG_IDX_CMD_OP => ⟨.ENG_IDX_CMD, 1, 0, .wo, 0, .no⟩
  | .ENG_IDX_CMD_BUSY => ⟨.ENG_IDX_CMD, 2, 2, .ro, 0, .no⟩
  | .ENG_IDX_CMD_RESULT => ⟨.ENG_IDX_CMD, 11, 8, .ro, 0, .no⟩
  | .ENG_IDX_CMD_SLOT => ⟨.ENG_IDX_CMD, 15, 12, .ro, 0, .no⟩
  | .ENG_IDX_ARG0_ARG => ⟨.ENG_IDX_ARG0, 63, 0, .rw, 0, .no⟩
  | .ENG_IDX_ARG1_ARG => ⟨.ENG_IDX_ARG1, 63, 0, .rw, 0, .no⟩
  | .ENG_IDX_PURGE_ACTIVE => ⟨.ENG_IDX_PURGE, 15, 0, .ro, 0, .mram⟩
  | .ENG_IDX_PURGE_DONE => ⟨.ENG_IDX_PURGE, 31, 16, .w1c, 0, .mram⟩
  | .ENG_PEND_BASE_BASE => ⟨.ENG_PEND_BASE, 45, 21, .rwl, 0, .no⟩
  | .ENG_PEND_ENTRIES_LOG2 => ⟨.ENG_PEND_ENTRIES, 4, 0, .rwl, 16, .no⟩
  | .ENG_CHUNKS_COUNT => ⟨.ENG_CHUNKS, 63, 0, .ro, 0, .no⟩
  | .ENG_CHUNK_MAXCUT_COUNT => ⟨.ENG_CHUNK_MAXCUT, 63, 0, .ro, 0, .no⟩
  | .ENG_IDX_LOOKUPS_COUNT => ⟨.ENG_IDX_LOOKUPS, 63, 0, .ro, 0, .no⟩
  | .ENG_IDX_HITS_COUNT => ⟨.ENG_IDX_HITS, 63, 0, .ro, 0, .no⟩
  | .ENG_IDX_INSERTS_COUNT => ⟨.ENG_IDX_INSERTS, 63, 0, .ro, 0, .no⟩
  | .ENG_IDX_EVICTS_COUNT => ⟨.ENG_IDX_EVICTS, 63, 0, .ro, 0, .no⟩
  | .ENG_IDX_POISON_COUNT => ⟨.ENG_IDX_POISON, 63, 0, .ro, 0, .no⟩
  | .ENG_PEND_FULL_COUNT => ⟨.ENG_PEND_FULL, 63, 0, .ro, 0, .no⟩
  | .ENG_PACK_IN_BYTES => ⟨.ENG_PACK_IN, 63, 0, .ro, 0, .no⟩
  | .ENG_PACK_OUT_BYTES => ⟨.ENG_PACK_OUT, 63, 0, .ro, 0, .no⟩
  | .ENG_PACK_RAW_COUNT => ⟨.ENG_PACK_RAW, 63, 0, .ro, 0, .no⟩
  | .ENG_PACK_VFAIL_COUNT => ⟨.ENG_PACK_VFAIL, 63, 0, .ro, 0, .no⟩
  | .ENG_UNPACK_FAIL_COUNT => ⟨.ENG_UNPACK_FAIL, 63, 0, .ro, 0, .no⟩
  | .ENG_CUS_CTL_EPOCH_SEC => ⟨.ENG_CUS_CTL, 15, 0, .rwl, 60, .no⟩
  | .ENG_CUS_STRIPES_LIMIT => ⟨.ENG_CUS_STRIPES, 21, 0, .rwl, 0xf4240, .no⟩
  | .ENG_CUS_EPOCH_OPEN => ⟨.ENG_CUS_EPOCH, 63, 0, .ro, 1, .mram⟩
  | .ENG_CUS_STATUS_SIGNING => ⟨.ENG_CUS_STATUS, 0, 0, .ro, 0, .no⟩
  | .ENG_CUS_STATUS_CLOSED_WAIT => ⟨.ENG_CUS_STATUS, 1, 1, .ro, 0, .no⟩
  | .ENG_CUS_STATUS_NO_TARGET => ⟨.ENG_CUS_STATUS, 2, 2, .ro, 0, .no⟩
  | .ENG_CUS_STATUS_STALLED => ⟨.ENG_CUS_STATUS, 3, 3, .ro, 0, .no⟩
  | .ENG_CUS_STATUS_USED => ⟨.ENG_CUS_STATUS, 54, 32, .ro, 0, .no⟩
  | .ENG_CUS_MQ_BASE_BASE => ⟨.ENG_CUS_MQ_BASE, 63, 6, .rwl, 0, .no⟩
  | .ENG_CUS_MQ_CTL_LOG2 => ⟨.ENG_CUS_MQ_CTL, 3, 0, .rwl, 2, .no⟩
  | .ENG_CUS_MQ_CTL_HEAD => ⟨.ENG_CUS_MQ_CTL, 31, 16, .rw, 0, .no⟩
  | .ENG_CUS_MQ_CTL_TAIL => ⟨.ENG_CUS_MQ_CTL, 47, 32, .ro, 0, .no⟩
  | .ENG_CUS_MQ_CTL_VECTOR => ⟨.ENG_CUS_MQ_CTL, 53, 48, .rwl, 0, .no⟩
  | .ENG_CUS_MSTART_START => ⟨.ENG_CUS_MSTART, 63, 0, .rwl, 0, .no⟩
  | .ENG_CUS_MCFG_DEVICE => ⟨.ENG_CUS_MCFG, 9, 0, .rwl, 0, .no⟩
  | .ENG_CUS_MCFG_VALID => ⟨.ENG_CUS_MCFG, 10, 10, .rwl, 0, .no⟩
  | .ENG_CUS_MCFG_BLOCKS => ⟨.ENG_CUS_MCFG, 63, 32, .rwl, 0, .no⟩
  | .ENG_POOL_BASE_BASE => ⟨.ENG_POOL_BASE, 45, 21, .rwl, 0, .no⟩
  | .ENG_POOL_SIZE_UNITS => ⟨.ENG_POOL_SIZE, 15, 0, .rwl, 0, .no⟩
  | .ENG_POOL_CTL_ENABLE => ⟨.ENG_POOL_CTL, 0, 0, .rwl, 0, .no⟩
  | .ENG_POOL_CTL_FREE => ⟨.ENG_POOL_CTL, 52, 32, .ro, 0, .no⟩
  | .ENG_DIR_BASE_BASE => ⟨.ENG_DIR_BASE, 45, 21, .rwl, 0, .no⟩
  | .ENG_DIR_CTL_CHUNK_UNITS => ⟨.ENG_DIR_CTL, 15, 0, .rwl, 0, .no⟩
  | .ENG_DIR_CTL_STRIPE_UNITS => ⟨.ENG_DIR_CTL, 31, 16, .rwl, 0, .no⟩
  | .ENG_DIR_CTL_ENABLE => ⟨.ENG_DIR_CTL, 32, 32, .rwl, 0, .no⟩
  | .ENG_DIR_CMD_OP => ⟨.ENG_DIR_CMD, 1, 0, .wo, 0, .no⟩
  | .ENG_DIR_CMD_BUSY => ⟨.ENG_DIR_CMD, 2, 2, .ro, 0, .no⟩
  | .ENG_DIR_CMD_KIND => ⟨.ENG_DIR_CMD, 4, 3, .wo, 0, .no⟩
  | .ENG_DIR_CMD_RESULT => ⟨.ENG_DIR_CMD, 11, 8, .ro, 0, .no⟩
  | .ENG_DIR_ARG_ID => ⟨.ENG_DIR_ARG, 63, 0, .rw, 0, .no⟩
  | .ENG_DREQ_BASE_BASE => ⟨.ENG_DREQ_BASE, 45, 12, .rw, 0, .no⟩
  | .ENG_DREQ_CTL_LOG2 => ⟨.ENG_DREQ_CTL, 3, 0, .rw, 4, .no⟩
  | .ENG_DREQ_CTL_REARM => ⟨.ENG_DREQ_CTL, 4, 4, .w1s, 0, .no⟩
  | .ENG_DREQ_CTL_HEAD => ⟨.ENG_DREQ_CTL, 27, 16, .rw, 0, .no⟩
  | .ENG_DREQ_CTL_TAIL => ⟨.ENG_DREQ_CTL, 43, 32, .ro, 0, .no⟩
  | .ENG_DLOG_CTL_HEAD => ⟨.ENG_DLOG_CTL, 20, 0, .rw, 0, .mram⟩
  | .ENG_DLOG_CTL_TAIL => ⟨.ENG_DLOG_CTL, 52, 32, .ro, 0, .mram⟩
  | .ENG_DLOG_CTL_FULL => ⟨.ENG_DLOG_CTL, 53, 53, .ro, 0, .no⟩
  | .ENG_DLOG_MARK_MARK => ⟨.ENG_DLOG_MARK, 20, 0, .ro, 0, .mram⟩
  | .ENG_SEAL_CTR_RESERVED => ⟨.ENG_SEAL_CTR, 63, 0, .ro, 0, .mram⟩
  | .ENG_SEAL_MISMATCH_COUNT => ⟨.ENG_SEAL_MISMATCH, 63, 0, .ro, 0, .no⟩
  | .ENG_UNSEAL_TAGFAIL_COUNT => ⟨.ENG_UNSEAL_TAGFAIL, 63, 0, .ro, 0, .no⟩
  | .ENG_SPREAD_SYNFAIL_COUNT => ⟨.ENG_SPREAD_SYNFAIL, 63, 0, .ro, 0, .no⟩
  | .ENG_GATHER_ERASURES_COUNT => ⟨.ENG_GATHER_ERASURES, 63, 0, .ro, 0, .no⟩
  | .ENG_DIGEST_MISMATCH_COUNT => ⟨.ENG_DIGEST_MISMATCH, 63, 0, .ro, 0, .no⟩
  | .ENG_QUORUM_SHORT_COUNT => ⟨.ENG_QUORUM_SHORT, 63, 0, .ro, 0, .no⟩
  | .ENG_DIR_MISS_COUNT => ⟨.ENG_DIR_MISS, 63, 0, .ro, 0, .no⟩
  | .MPT_PORT_CFG_NARROW => ⟨.MPT_PORT_CFG, 15, 0, .rwl, 0, .no⟩
  | .MPT_LANE_SEL_LANE => ⟨.MPT_LANE_SEL, 5, 0, .rw, 0, .no⟩
  | .MPT_LANE_CTL_ENABLE => ⟨.MPT_LANE_CTL, 0, 0, .rwl, 1, .no⟩
  | .MPT_LANE_CTL_MAX_RATE => ⟨.MPT_LANE_CTL, 2, 1, .rwl, 2, .no⟩
  | .MPT_LANE_CTL_WATERMARK => ⟨.MPT_LANE_CTL, 11, 8, .rwl, 4, .no⟩
  | .MPT_LANE_CTL_RELEASE => ⟨.MPT_LANE_CTL, 15, 12, .rwl, 8, .no⟩
  | .MPT_LANE_STATUS_UP => ⟨.MPT_LANE_STATUS, 0, 0, .ro, 0, .no⟩
  | .MPT_LANE_STATUS_RATE => ⟨.MPT_LANE_STATUS, 2, 1, .ro, 0, .no⟩
  | .MPT_LANE_STATUS_PANIC => ⟨.MPT_LANE_STATUS, 3, 3, .ro, 0, .no⟩
  | .MPT_LANE_STATUS_FILL => ⟨.MPT_LANE_STATUS, 16, 8, .ro, 0, .no⟩
  | .MPT_LANE_ADDR_SAS_ADDR => ⟨.MPT_LANE_ADDR, 63, 0, .ro, 0, .no⟩
  | .MPT_PANIC_LANES => ⟨.MPT_PANIC, 63, 0, .ro, 0, .no⟩
  | .MPT_DISC_CTL_RUN => ⟨.MPT_DISC_CTL, 0, 0, .w1s, 0, .no⟩
  | .MPT_DISC_CTL_BUSY => ⟨.MPT_DISC_CTL, 1, 1, .ro, 0, .no⟩
  | .MPT_DISC_CTL_DEVICES => ⟨.MPT_DISC_CTL, 26, 16, .ro, 0, .no⟩
  | .MPT_DISC_CTL_EXPANDERS => ⟨.MPT_DISC_CTL, 39, 32, .ro, 0, .no⟩
  | .MPT_DISC_CTL_OVERFLOW => ⟨.MPT_DISC_CTL, 63, 48, .ro, 0, .no⟩
  | .MPT_DEV_SEL_DEVICE => ⟨.MPT_DEV_SEL, 9, 0, .rw, 0, .no⟩
  | .MPT_DEV_INFO_STATE => ⟨.MPT_DEV_INFO, 1, 0, .ro, 0, .mram⟩
  | .MPT_DEV_INFO_TYPE => ⟨.MPT_DEV_INFO, 4, 2, .ro, 0, .mram⟩
  | .MPT_DEV_INFO_PATHS => ⟨.MPT_DEV_INFO, 6, 5, .ro, 0, .no⟩
  | .MPT_DEV_INFO_DUAL => ⟨.MPT_DEV_INFO, 7, 7, .ro, 0, .mram⟩
  | .MPT_DEV_INFO_LBS => ⟨.MPT_DEV_INFO, 11, 8, .ro, 0, .mram⟩
  | .MPT_DEV_INFO_EW => ⟨.MPT_DEV_INFO, 12, 12, .ro, 0, .no⟩
  | .MPT_DEV_INFO_PR => ⟨.MPT_DEV_INFO, 13, 13, .ro, 0, .no⟩
  | .MPT_DEV_NAME_NAME => ⟨.MPT_DEV_NAME, 63, 0, .ro, 0, .mram⟩
  | .MPT_DEV_CAP_BLOCKS => ⟨.MPT_DEV_CAP, 63, 0, .ro, 0, .mram⟩
  | .MPT_DEV_CTL_DURABLE => ⟨.MPT_DEV_CTL, 0, 0, .rwl, 0, .no⟩
  | .MPT_DEV_CTL_RT => ⟨.MPT_DEV_CTL, 1, 1, .rwl, 0, .no⟩
  | .MPT_DEV_CTL_SCRUB_EN => ⟨.MPT_DEV_CTL, 2, 2, .rwl, 0, .no⟩
  | .MPT_DEV_CTL_PF_GRANT => ⟨.MPT_DEV_CTL, 3, 3, .rwl, 0, .no⟩
  | .MPT_DEV_CTL_QDEPTH => ⟨.MPT_DEV_CTL, 11, 4, .rwl, 32, .no⟩
  | .MPT_DEV_GRANT_VF => ⟨.MPT_DEV_GRANT, 63, 0, .rwl, 0, .no⟩
  | .MPT_DEV_CMD_OP => ⟨.MPT_DEV_CMD, 1, 0, .wo, 0, .no⟩
  | .MPT_DEV_CMD_RESULT => ⟨.MPT_DEV_CMD, 11, 8, .ro, 0, .no⟩
  | .MPT_RETRY_COUNT => ⟨.MPT_RETRY, 3, 0, .rwl, 3, .no⟩
  | .MPT_RETRY_DISK_TMO => ⟨.MPT_RETRY, 23, 8, .rwl, 10, .no⟩
  | .MPT_RETRY_TAPE_TMO => ⟨.MPT_RETRY, 39, 24, .rwl, 180, .no⟩
  | .MPT_GATE_OPEN => ⟨.MPT_GATE, 0, 0, .ro, 0, .no⟩
  | .MPT_GATE_CAUSE => ⟨.MPT_GATE, 2, 1, .ro, 1, .no⟩
  | .MPT_SCRUB_CTL_ENABLE => ⟨.MPT_SCRUB_CTL, 0, 0, .rwl, 1, .no⟩
  | .MPT_SCRUB_CTL_PERIOD_DAYS => ⟨.MPT_SCRUB_CTL, 15, 8, .rwl, 30, .no⟩
  | .MPT_SCRUB_CTL_SEGMENT_LOG2 => ⟨.MPT_SCRUB_CTL, 20, 16, .rwl, 23, .no⟩
  | .MPT_SCRUB_STATUS_BEHIND => ⟨.MPT_SCRUB_STATUS, 0, 0, .w1c, 0, .no⟩
  | .MPT_SCRUB_STATUS_ROUNDS => ⟨.MPT_SCRUB_STATUS, 63, 32, .ro, 0, .mram⟩
  | .MPT_EVQ_BASE_BASE => ⟨.MPT_EVQ_BASE, 45, 12, .rw, 0, .no⟩
  | .MPT_EVQ_CTL_LOG2 => ⟨.MPT_EVQ_CTL, 3, 0, .rw, 4, .no⟩
  | .MPT_EVQ_CTL_HEAD => ⟨.MPT_EVQ_CTL, 29, 16, .rw, 0, .no⟩
  | .MPT_EVQ_CTL_TAIL => ⟨.MPT_EVQ_CTL, 45, 32, .ro, 0, .no⟩
  | .MPT_INJ_ARM_ARMED => ⟨.MPT_INJ_ARM, 0, 0, .rwl, 0, .no⟩
  | .MPT_INJ_ARM_ACTIVE => ⟨.MPT_INJ_ARM, 1, 1, .ro, 0, .no⟩
  | .MPT_INJ_SLOT_DEVICE => ⟨.MPT_INJ_SLOT, 9, 0, .rwl, 0, .no⟩
  | .MPT_INJ_SLOT_KIND => ⟨.MPT_INJ_SLOT, 12, 10, .rwl, 0, .no⟩
  | .MPT_INJ_SLOT_MODE => ⟨.MPT_INJ_SLOT, 13, 13, .rwl, 0, .no⟩
  | .MPT_INJ_SLOT_N => ⟨.MPT_INJ_SLOT, 31, 16, .rwl, 0, .no⟩
  | .MPT_INJ_SLOT_PARAM => ⟨.MPT_INJ_SLOT, 63, 32, .rwl, 0, .no⟩
  | .MPT_RETRIES_COUNT => ⟨.MPT_RETRIES, 63, 0, .ro, 0, .no⟩
  | .MPT_TIMEOUTS_COUNT => ⟨.MPT_TIMEOUTS, 63, 0, .ro, 0, .no⟩
  | .MPT_TAPE_STARVE_COUNT => ⟨.MPT_TAPE_STARVE, 63, 0, .ro, 0, .no⟩
  | .MPT_ZONE_FULL_COUNT => ⟨.MPT_ZONE_FULL, 63, 0, .ro, 0, .no⟩
  | .MPT_GATE_REFUSED_COUNT => ⟨.MPT_GATE_REFUSED, 63, 0, .ro, 0, .no⟩
  | .MPT_LATE_IGNORED_COUNT => ⟨.MPT_LATE_IGNORED, 63, 0, .ro, 0, .no⟩
  | .MPT_SCRUB_ERRORS_COUNT => ⟨.MPT_SCRUB_ERRORS, 63, 0, .ro, 0, .no⟩
  | .MPT_EVQ_LOST_COUNT => ⟨.MPT_EVQ_LOST, 63, 0, .ro, 0, .no⟩
  | .MPT_LBA_FULL_COUNT => ⟨.MPT_LBA_FULL, 63, 0, .ro, 0, .no⟩
  | .MEM_CFG_ORDER => ⟨.MEM_CFG, 1, 0, .ro, 2, .no⟩
  | .MEM_CFG_RETAINED => ⟨.MEM_CFG, 2, 2, .ro, 0, .no⟩
  | .MEM_ORDER_NEXT_ORDER => ⟨.MEM_ORDER_NEXT, 1, 0, .rwl, 2, .mram⟩
  | .MEM_STRIPE_STATUS_FAILED => ⟨.MEM_STRIPE_STATUS, 5, 0, .ro, 0, .mram⟩
  | .MEM_STRIPE_STATUS_FE_ACTIVE => ⟨.MEM_STRIPE_STATUS, 10, 8, .ro, 0, .no⟩
  | .MEM_STRIPE_STATUS_RETRAIN => ⟨.MEM_STRIPE_STATUS, 19, 16, .ro, 0, .no⟩
  | .MEM_STRIPE_CMD_OP => ⟨.MEM_STRIPE_CMD, 1, 0, .wo, 0, .no⟩
  | .MEM_STRIPE_CMD_STRIPE => ⟨.MEM_STRIPE_CMD, 4, 2, .wo, 0, .no⟩
  | .MEM_STRIPE_CMD_RESULT => ⟨.MEM_STRIPE_CMD, 11, 8, .ro, 0, .no⟩
  | .MEM_ECC_CTL_FAIL_THRESH => ⟨.MEM_ECC_CTL, 15, 0, .rwl, 4096, .no⟩
  | .MEM_ECC_CTL_WRITEBACK => ⟨.MEM_ECC_CTL, 16, 16, .rwl, 1, .no⟩
  | .MEM_TRAIN_CTL_DRIFT => ⟨.MEM_TRAIN_CTL, 7, 0, .rwl, 8, .no⟩
  | .MEM_UE_ADDR_ADDR => ⟨.MEM_UE_ADDR, 37, 0, .ro, 0, .no⟩
  | .MEM_UE_ADDR_VALID => ⟨.MEM_UE_ADDR, 63, 63, .w1c, 0, .no⟩
  | .MEM_SCRUB_CTL_ENABLE => ⟨.MEM_SCRUB_CTL, 0, 0, .rwl, 1, .no⟩
  | .MEM_SCRUB_STATUS_POS => ⟨.MEM_SCRUB_STATUS, 30, 0, .ro, 0, .no⟩
  | .MEM_SCRUB_STATUS_PASSES => ⟨.MEM_SCRUB_STATUS, 63, 32, .ro, 0, .no⟩
  | .MEM_REF_STATUS_POSTPONED => ⟨.MEM_REF_STATUS, 3, 0, .ro, 0, .no⟩
  | .MEM_REF_STATUS_RATE => ⟨.MEM_REF_STATUS, 12, 8, .ro, 0, .no⟩
  | .MEM_CE_COUNT => ⟨.MEM_CE, 63, 0, .ro, 0, .no⟩
  | .MEM_UE_COUNT => ⟨.MEM_UE, 63, 0, .ro, 0, .no⟩
  | .MEM_POISON_READS_COUNT => ⟨.MEM_POISON_READS, 63, 0, .ro, 0, .no⟩
  | .MEM_AGED_COUNT => ⟨.MEM_AGED, 63, 0, .ro, 0, .no⟩
  | .MEM_RETRAINS_COUNT => ⟨.MEM_RETRAINS, 63, 0, .ro, 0, .no⟩
  | .MEM_FE_SWITCHES_COUNT => ⟨.MEM_FE_SWITCHES, 63, 0, .ro, 0, .no⟩
  | .MEM_PANIC_TIME_NS => ⟨.MEM_PANIC_TIME, 63, 0, .ro, 0, .no⟩
  | .JNL_STATUS_DIES => ⟨.JNL_STATUS, 3, 0, .ro, 15, .aon⟩
  | .JNL_STATUS_SINGLE => ⟨.JNL_STATUS, 4, 4, .ro, 0, .aon⟩
  | .JNL_STATUS_FLUSHING => ⟨.JNL_STATUS, 5, 5, .ro, 0, .aon⟩
  | .JNL_STATUS_REFUSING => ⟨.JNL_STATUS, 6, 6, .ro, 0, .aon⟩
  | .JNL_HEAD_COUNT => ⟨.JNL_HEAD, 63, 0, .ro, 0, .mram⟩
  | .JNL_TAIL_COUNT => ⟨.JNL_TAIL, 63, 0, .ro, 0, .mram⟩
  | .JNL_WIN_BASE_BASE => ⟨.JNL_WIN_BASE, 63, 0, .ro, 0x3f0000000000, .aon⟩
  | .JNL_SCRUB_CTL_ENABLE => ⟨.JNL_SCRUB_CTL, 0, 0, .rwl, 1, .aon⟩
  | .JNL_FLUSH_WRITES => ⟨.JNL_FLUSH, 8, 0, .ro, 0, .mram⟩
  | .JNL_FLUSH_CLEAN => ⟨.JNL_FLUSH, 9, 9, .ro, 0, .mram⟩
  | .JNL_FLUSH_US => ⟨.JNL_FLUSH, 63, 32, .ro, 0, .mram⟩
  | .JNL_REPAIRED_COUNT => ⟨.JNL_REPAIRED, 63, 0, .ro, 0, .ctr⟩
  | .JNL_LOST_COUNT => ⟨.JNL_LOST, 63, 0, .ro, 0, .ctr⟩
  | .JNL_LOST_LIVE_COUNT => ⟨.JNL_LOST_LIVE, 63, 0, .ro, 0, .ctr⟩
  | .JNL_CARRIED_COUNT => ⟨.JNL_CARRIED, 63, 0, .ro, 0, .ctr⟩
  | .JNL_REFUSED_COUNT => ⟨.JNL_REFUSED, 63, 0, .ro, 0, .mram⟩
  | .COH_CODE_BASE_BASE => ⟨.COH_CODE_BASE, 45, 21, .rwl, 0, .no⟩
  | .COH_CODE_BASE_MONLY => ⟨.COH_CODE_BASE, 62, 62, .rwl, 0, .no⟩
  | .COH_CODE_BASE_VALID => ⟨.COH_CODE_BASE, 63, 63, .rwl, 0, .no⟩
  | .COH_CODE_LIMIT_LIMIT => ⟨.COH_CODE_LIMIT, 45, 21, .rwl, 0, .no⟩
  | .COH_CODE_LIMIT_LOCK => ⟨.COH_CODE_LIMIT, 63, 63, .w1s, 0, .no⟩
  | .COH_IOGRANT_S_BLOCKS => ⟨.COH_IOGRANT_S, 63, 0, .rwl, 0, .no⟩
  | .COH_IOGRANT_U_BLOCKS => ⟨.COH_IOGRANT_U, 63, 0, .rwl, 0, .no⟩
  | .COH_ENC_VALID => ⟨.COH_ENC, 0, 0, .rwl, 0, .no⟩
  | .COH_ENC_WORLD => ⟨.COH_ENC, 3, 1, .rwl, 0, .no⟩
  | .COH_ENC_SIZE => ⟨.COH_ENC, 8, 4, .rwl, 0, .no⟩
  | .COH_ENC_BASE => ⟨.COH_ENC, 45, 21, .rwl, 0, .no⟩
  | .COH_CTL_READY => ⟨.COH_CTL, 0, 0, .w1s, 0, .no⟩
  | .COH_CTL_PRED_OFF => ⟨.COH_CTL, 1, 1, .rwl, 0, .no⟩
  | .COH_STATUS_DOMAIN => ⟨.COH_STATUS, 1, 0, .ro, 0, .no⟩
  | .COH_STATUS_RESTARTS => ⟨.COH_STATUS, 63, 32, .ro, 0, .mram⟩
  | .COH_DEAD_AGENT => ⟨.COH_DEAD, 4, 0, .ro, 0, .no⟩
  | .COH_DEAD_VALID => ⟨.COH_DEAD, 8, 8, .w1c, 0, .no⟩
  | .COH_NACKS_COUNT => ⟨.COH_NACKS, 63, 0, .ro, 0, .no⟩
  | .COH_TOKENS_COUNT => ⟨.COH_TOKENS, 63, 0, .ro, 0, .no⟩
  | .COH_DIR_EVICTS_COUNT => ⟨.COH_DIR_EVICTS, 63, 0, .ro, 0, .no⟩
  | .COH_BACKINV_COUNT => ⟨.COH_BACKINV, 63, 0, .ro, 0, .no⟩
  | .COH_CROSSED_COUNT => ⟨.COH_CROSSED, 63, 0, .ro, 0, .no⟩
  | .COH_AMO_NEAR_COUNT => ⟨.COH_AMO_NEAR, 63, 0, .ro, 0, .no⟩
  | .COH_AMO_FAR_COUNT => ⟨.COH_AMO_FAR, 63, 0, .ro, 0, .no⟩
  | .COH_POISON_FILLS_COUNT => ⟨.COH_POISON_FILLS, 63, 0, .ro, 0, .no⟩
  | .COH_LOST_LINES_COUNT => ⟨.COH_LOST_LINES, 63, 0, .ro, 0, .no⟩
  | .COH_MAINT_ADDR_ADDR => ⟨.COH_MAINT_ADDR, 45, 7, .rw, 0, .no⟩
  | .COH_MAINT_LEN_LEN => ⟨.COH_MAINT_LEN, 30, 0, .rw, 0, .no⟩
  | .COH_MAINT_CMD_OP => ⟨.COH_MAINT_CMD, 2, 0, .wo, 0, .no⟩
  | .COH_MAINT_CMD_DONE => ⟨.COH_MAINT_CMD, 3, 3, .ro, 0, .no⟩
  | .COH_MAINT_CMD_RESULT => ⟨.COH_MAINT_CMD, 11, 8, .ro, 0, .no⟩
  | .COH_MAINT_PROG_NEXT => ⟨.COH_MAINT_PROG, 45, 7, .ro, 0, .no⟩
  | .COH_L2LOCK_WAYS => ⟨.COH_L2LOCK, 2, 0, .rwl, 0, .no⟩
  | .COH_IOWIN_BASE_BASE => ⟨.COH_IOWIN_BASE, 45, 12, .rwl, 0, .no⟩
  | .COH_IOWIN_BASE_VALID => ⟨.COH_IOWIN_BASE, 63, 63, .rwl, 0, .no⟩
  | .COH_IOWIN_LIMIT_LIMIT => ⟨.COH_IOWIN_LIMIT, 45, 12, .rwl, 0, .no⟩
  | .POD_INT_EN_EN => ⟨.POD_INT_EN, 6, 0, .rw, 0, .no⟩
  | .POD_INT_PEND_LATCHED => ⟨.POD_INT_PEND, 1, 0, .w1c, 0, .no⟩
  | .POD_INT_PEND_LEVEL => ⟨.POD_INT_PEND, 6, 2, .ro, 0, .no⟩
  | .POD_IPI_SET_RAISE => ⟨.POD_IPI_SET, 0, 0, .w1s, 0, .no⟩
  | .POD_TIMECMP_TIME => ⟨.POD_TIMECMP, 63, 0, .rw, 0xffffffffffffffff, .no⟩
  | .POD_MODE_MODE => ⟨.POD_MODE, 1, 0, .ro, 0, .no⟩
  | .POD_MODE_SERVICE => ⟨.POD_MODE, 2, 2, .ro, 0, .no⟩
  | .POD_MODE_PARKED => ⟨.POD_MODE, 3, 3, .ro, 0, .no⟩
  | .POD_MODE_PHYS => ⟨.POD_MODE, 7, 4, .ro, 0, .no⟩
  | .POD_CMD_OP => ⟨.POD_CMD, 2, 0, .wo, 0, .no⟩
  | .POD_CMD_BUSY => ⟨.POD_CMD, 3, 3, .ro, 0, .no⟩
  | .POD_CMD_RESULT => ⟨.POD_CMD, 11, 8, .ro, 0, .no⟩
  | .POD_SPLIT_ENTRY_ADDR => ⟨.POD_SPLIT_ENTRY, 45, 1, .rw, 0, .no⟩
  | .POD_RESTART_ENTRY_ADDR => ⟨.POD_RESTART_ENTRY, 45, 1, .rw, 0, .no⟩
  | .POD_STATUS_ERR => ⟨.POD_STATUS, 0, 0, .w1c, 0, .no⟩
  | .POD_STATUS_LANES => ⟨.POD_STATUS, 4, 1, .ro, 0, .no⟩
  | .POD_STATUS_COMPFAULT => ⟨.POD_STATUS, 5, 5, .ro, 0, .no⟩
  | .POD_STATUS_RETIRE => ⟨.POD_STATUS, 63, 32, .ro, 0, .no⟩
  | .POD_RETRIES_COUNT => ⟨.POD_RETRIES, 63, 0, .ro, 0, .no⟩
  | .POD_WARM_RESTARTS_COUNT => ⟨.POD_WARM_RESTARTS, 63, 0, .ro, 0, .no⟩
  | .POD_CFG_SERVICE => ⟨.POD_CFG, 15, 0, .rwl, 15, .mram⟩
  | .POD_CFG_SPLIT_SERVICE => ⟨.POD_CFG, 16, 16, .rwl, 0, .mram⟩
  | .POD_CFG_MIN_PODS => ⟨.POD_CFG, 24, 20, .rwl, 14, .mram⟩
  | .POD_MAP_MAP => ⟨.POD_MAP, 63, 0, .ro, 0, .no⟩
  | .POD_PHYS_STATE => ⟨.POD_PHYS, 31, 0, .ro, 0, .mram⟩
  | .POD_SPARES_LOGICAL => ⟨.POD_SPARES, 4, 0, .ro, 0, .no⟩
  | .POD_SPARES_LEFT => ⟨.POD_SPARES, 12, 8, .ro, 0, .no⟩
  | .POD_RETRY_CTL_LIMIT => ⟨.POD_RETRY_CTL, 15, 0, .rwl, 1000, .no⟩
  | .POD_SELFTEST_FAILED => ⟨.POD_SELFTEST, 15, 0, .ro, 0, .no⟩
  | .POD_SPARINGS_COUNT => ⟨.POD_SPARINGS, 63, 0, .ro, 0, .mram⟩
  | .FLT_CTL_L3_ACTION => ⟨.FLT_CTL, 0, 0, .rwl, 1, .mram⟩
  | .FLT_CTL_IRQ_POD => ⟨.FLT_CTL, 7, 4, .rwl, 0, .aon⟩
  | .FLT_CTL_VECTOR => ⟨.FLT_CTL, 13, 8, .rwl, 0, .aon⟩
  | .FLT_CTL_COLL => ⟨.FLT_CTL, 17, 16, .ro, 0, .aon⟩
  | .FLT_STATUS_SRC => ⟨.FLT_STATUS, 55, 0, .ro, 0, .aon⟩
  | .FLT_ACK_SRC => ⟨.FLT_ACK, 55, 0, .wo, 0, .aon⟩
  | .FLT_SEEN_SRC => ⟨.FLT_SEEN, 55, 0, .w1c, 0, .aon⟩
  | .FLT_CE_LEVEL_SRC => ⟨.FLT_CE_LEVEL, 55, 0, .rwl, 0, .mram⟩
  | .FLT_PLEVEL_LEVEL => ⟨.FLT_PLEVEL, 63, 0, .ro, 0, .aon⟩
  | .FLT_FIRST_ADDR_ADDR => ⟨.FLT_FIRST_ADDR, 63, 0, .ro, 0, .aon⟩
  | .FLT_FIRST_MASTER_ORIGIN => ⟨.FLT_FIRST_MASTER, 15, 0, .ro, 0, .aon⟩
  | .FLT_FIRST_TYPE_SOURCE => ⟨.FLT_FIRST_TYPE, 5, 0, .ro, 0, .aon⟩
  | .FLT_FIRST_TYPE_LEVEL => ⟨.FLT_FIRST_TYPE, 7, 6, .ro, 0, .aon⟩
  | .FLT_FIRST_TYPE_UE => ⟨.FLT_FIRST_TYPE, 8, 8, .ro, 0, .aon⟩
  | .FLT_FIRST_TYPE_ESCALATED => ⟨.FLT_FIRST_TYPE, 9, 9, .ro, 0, .aon⟩
  | .FLT_FIRST_TYPE_INJECTED => ⟨.FLT_FIRST_TYPE, 10, 10, .ro, 0, .aon⟩
  | .FLT_FIRST_TYPE_ACCESS => ⟨.FLT_FIRST_TYPE, 14, 11, .ro, 0, .aon⟩
  | .FLT_FIRST_TYPE_KIND => ⟨.FLT_FIRST_TYPE, 18, 15, .ro, 0, .aon⟩
  | .FLT_FIRST_TYPE_DETAIL => ⟨.FLT_FIRST_TYPE, 30, 24, .ro, 0, .aon⟩
  | .FLT_FIRST_TYPE_VALID => ⟨.FLT_FIRST_TYPE, 31, 31, .w1c, 0, .aon⟩
  | .FLT_FIRST_TIME_NS => ⟨.FLT_FIRST_TIME, 63, 0, .ro, 0, .aon⟩
  | .FLT_CNT_SEL_SOURCE => ⟨.FLT_CNT_SEL, 5, 0, .rw, 0, .aon⟩
  | .FLT_CNT_CE_COUNT => ⟨.FLT_CNT_CE, 63, 0, .ro, 0, .ctr⟩
  | .FLT_CNT_UE_COUNT => ⟨.FLT_CNT_UE, 63, 0, .ro, 0, .ctr⟩
  | .FLT_CNT_ESC_COUNT => ⟨.FLT_CNT_ESC, 63, 0, .ro, 0, .ctr⟩
  | .FLT_INJECT_SOURCE => ⟨.FLT_INJECT, 5, 0, .rwl, 0, .aon⟩
  | .FLT_INJECT_UE => ⟨.FLT_INJECT, 6, 6, .rwl, 0, .aon⟩
  | .FLT_INJECT_NOREACT => ⟨.FLT_INJECT, 7, 7, .rwl, 1, .aon⟩
  | .FLT_INJECT_GO => ⟨.FLT_INJECT, 8, 8, .w1s, 0, .aon⟩
  | .FLT_INJECT_RESULT => ⟨.FLT_INJECT, 15, 12, .ro, 0, .aon⟩
  | .RNG_CTL_INSERT => ⟨.RNG_CTL, 0, 0, .rwl, 1, .mram⟩
  | .RNG_STATUS_STATE => ⟨.RNG_STATUS, 2, 0, .ro, 0, .no⟩
  | .RNG_STATUS_NODE => ⟨.RNG_STATUS, 7, 3, .ro, 0, .no⟩
  | .RNG_STATUS_DUPLICATE => ⟨.RNG_STATUS, 8, 8, .ro, 0, .no⟩
  | .RNG_STATUS_WRAP_W => ⟨.RNG_STATUS, 9, 9, .ro, 0, .no⟩
  | .RNG_STATUS_WRAP_E => ⟨.RNG_STATUS, 10, 10, .ro, 0, .no⟩
  | .RNG_STATUS_BYPASS => ⟨.RNG_STATUS, 11, 11, .ro, 1, .no⟩
  | .RNG_STATUS_TEST_FAIL => ⟨.RNG_STATUS, 12, 12, .ro, 0, .no⟩
  | .RNG_NODES_PRESENT => ⟨.RNG_NODES, 31, 0, .ro, 0, .no⟩
  | .RNG_NODES_DORMANT => ⟨.RNG_NODES, 63, 32, .ro, 0, .no⟩
  | .RNG_SESSION_SESSION => ⟨.RNG_SESSION, 31, 0, .ro, 0, .mram⟩
  | .RNG_CLAIM_SEL_PAIR => ⟨.RNG_CLAIM_SEL, 15, 0, .rw, 0, .no⟩
  | .RNG_CLAIM_CLAIM => ⟨.RNG_CLAIM, 31, 0, .ro, 0, .no⟩
  | .RNG_CLAIM_NODE => ⟨.RNG_CLAIM, 36, 32, .ro, 0, .no⟩
  | .RNG_CLAIM_VALID => ⟨.RNG_CLAIM, 63, 63, .ro, 0, .no⟩
  | .RNG_PSTAT_LIGHT => ⟨.RNG_PSTAT, 0, 0, .ro, 0, .no⟩
  | .RNG_PSTAT_LOCK => ⟨.RNG_PSTAT, 1, 1, .ro, 0, .no⟩
  | .RNG_PSTAT_LANES => ⟨.RNG_PSTAT, 5, 2, .ro, 0, .no⟩
  | .RNG_PSTAT_LOOP_PASS => ⟨.RNG_PSTAT, 6, 6, .ro, 0, .no⟩
  | .RNG_INJ_ARM_ARMED => ⟨.RNG_INJ_ARM, 0, 0, .rwl, 0, .no⟩
  | .RNG_INJ_ARM_ACTIVE => ⟨.RNG_INJ_ARM, 1, 1, .ro, 0, .no⟩
  | .RNG_INJ_KIND => ⟨.RNG_INJ, 2, 0, .rwl, 0, .no⟩
  | .RNG_INJ_MODE => ⟨.RNG_INJ, 3, 3, .rwl, 0, .no⟩
  | .RNG_INJ_CLASSES => ⟨.RNG_INJ, 7, 4, .rwl, 0, .no⟩
  | .RNG_INJ_ALL => ⟨.RNG_INJ, 8, 8, .rwl, 0, .no⟩
  | .RNG_INJ_N => ⟨.RNG_INJ, 31, 16, .rwl, 0, .no⟩
  | .RNG_INJ_PARAM => ⟨.RNG_INJ, 63, 32, .rwl, 0, .no⟩
  | .RNG_INJ_HITS_COUNT => ⟨.RNG_INJ_HITS, 63, 0, .ro, 0, .no⟩
  | .RNG_RETX_COUNT => ⟨.RNG_RETX, 63, 0, .ro, 0, .no⟩
  | .RNG_DUP_COUNT => ⟨.RNG_DUP, 63, 0, .ro, 0, .no⟩
  | .RNG_MSG_FAILED_COUNT => ⟨.RNG_MSG_FAILED, 63, 0, .ro, 0, .no⟩
  | .RNG_CLAIM_DROP_COUNT => ⟨.RNG_CLAIM_DROP, 63, 0, .ro, 0, .no⟩
  | .RNG_STALE_COUNT => ⟨.RNG_STALE, 63, 0, .ro, 0, .no⟩
  | .RNG_TX_MSGS_COUNT => ⟨.RNG_TX_MSGS, 63, 0, .ro, 0, .no⟩
  | .RNG_RX_MSGS_COUNT => ⟨.RNG_RX_MSGS, 63, 0, .ro, 0, .no⟩
  | .RNG_CRC_DROP_COUNT => ⟨.RNG_CRC_DROP, 63, 0, .ro, 0, .no⟩
  | .RNG_MALFORMED_COUNT => ⟨.RNG_MALFORMED, 63, 0, .ro, 0, .no⟩
  | .RNG_FEC_CORR_COUNT => ⟨.RNG_FEC_CORR, 63, 0, .ro, 0, .no⟩
  | .RNG_FEC_UNCORR_COUNT => ⟨.RNG_FEC_UNCORR, 63, 0, .ro, 0, .no⟩
  | .RNG_WRAPS_COUNT => ⟨.RNG_WRAPS, 63, 0, .ro, 0, .no⟩
  | .HST_ID_VENDOR => ⟨.HST_ID, 15, 0, .ro, 22358, .aon⟩
  | .HST_ID_DEVICE => ⟨.HST_ID, 31, 16, .ro, 29200, .aon⟩
  | .HST_ID_REV => ⟨.HST_ID, 39, 32, .ro, Config.fusedBits 0 8, .aon⟩
  | .HST_LINK_SPEED => ⟨.HST_LINK, 2, 0, .ro, 0, .aon⟩
  | .HST_LINK_WIDTH => ⟨.HST_LINK, 7, 3, .ro, 0, .aon⟩
  | .HST_LINK_MAX_SPEED => ⟨.HST_LINK, 10, 8, .ro, 0, .aon⟩
  | .HST_LINK_MAX_WIDTH => ⟨.HST_LINK, 15, 11, .ro, 0, .aon⟩
  | .HST_LINK_UP => ⟨.HST_LINK, 16, 16, .ro, 0, .aon⟩
  | .HST_LINK_UPCFG => ⟨.HST_LINK, 17, 17, .ro, 0, .aon⟩
  | .HST_STATUS_DARK => ⟨.HST_STATUS, 0, 0, .w1c, 0, .aon⟩
  | .HST_DARK_COUNT => ⟨.HST_DARK, 63, 0, .ro, 0, .ctr⟩
  | .HST_NOFUNC_COUNT => ⟨.HST_NOFUNC, 63, 0, .ro, 0, .ctr⟩
  | .HST_MBX_REFUSED_COUNT => ⟨.HST_MBX_REFUSED, 63, 0, .ro, 0, .ctr⟩
  | .HST_LINK_DOWNS_COUNT => ⟨.HST_LINK_DOWNS, 63, 0, .ro, 0, .ctr⟩
  | .HST_RD_BYTES_COUNT => ⟨.HST_RD_BYTES, 63, 0, .ro, 0, .ctr⟩
  | .HST_WR_BYTES_COUNT => ⟨.HST_WR_BYTES, 63, 0, .ro, 0, .ctr⟩
  | .VFM_SEL_FUNCTION => ⟨.VFM_SEL, 6, 0, .rw, 0, .aon⟩
  | .VFM_CFG_NCQ => ⟨.VFM_CFG, 5, 0, .rwl, 1, .aon⟩
  | .VFM_CFG_MAX_ACTIVE => ⟨.VFM_CFG, 15, 8, .rwl, 0, .aon⟩
  | .VFM_WIN_UNITS => ⟨.VFM_WIN, 15, 0, .rwl, 0, .aon⟩
  | .VFM_WIN_BASE => ⟨.VFM_WIN, 45, 21, .rwl, 0, .aon⟩
  | .VFM_CMD_OP => ⟨.VFM_CMD, 2, 0, .wo, 0, .aon⟩
  | .VFM_CMD_BUSY => ⟨.VFM_CMD, 3, 3, .ro, 0, .aon⟩
  | .VFM_CMD_RESULT => ⟨.VFM_CMD, 11, 8, .ro, 0, .aon⟩
  | .VFM_FSTAT_STATE => ⟨.VFM_FSTAT, 1, 0, .ro, 0, .aon⟩
  | .VFM_FSTAT_PAUSED => ⟨.VFM_FSTAT, 2, 2, .ro, 0, .aon⟩
  | .VFM_FSTAT_GEN => ⟨.VFM_FSTAT, 31, 16, .ro, 1, .mram⟩
  | .VFM_FSTAT_ACTIVE => ⟨.VFM_FSTAT, 44, 32, .ro, 0, .aon⟩
  | .VFM_CTL_VECTOR => ⟨.VFM_CTL, 5, 0, .rwl, 0, .aon⟩
  | .VFM_EVENT_FLR => ⟨.VFM_EVENT, 63, 0, .w1c, 0, .aon⟩
  | .VFM_MBX_PEND_FULL => ⟨.VFM_MBX_PEND, 63, 0, .ro, 0, .aon⟩
  | .VFM_MBX_IN_DATA => ⟨.VFM_MBX_IN, 2047, 0, .ro, 0, .aon⟩
  | .VFM_MBX_OUT_DATA => ⟨.VFM_MBX_OUT, 2047, 0, .rw, 0, .aon⟩
  | .VFM_MBX_CTL_LEN => ⟨.VFM_MBX_CTL, 8, 0, .rw, 0, .aon⟩
  | .VFM_MBX_CTL_SEND => ⟨.VFM_MBX_CTL, 9, 9, .w1s, 0, .aon⟩
  | .VFM_MBX_CTL_BUSY => ⟨.VFM_MBX_CTL, 10, 10, .ro, 0, .aon⟩
  | .VFM_MBX_CTL_FULL => ⟨.VFM_MBX_CTL, 11, 11, .ro, 0, .aon⟩
  | .VFM_MBX_CTL_ACK => ⟨.VFM_MBX_CTL, 12, 12, .w1s, 0, .aon⟩
  | .VFM_MBX_CTL_IN_LEN => ⟨.VFM_MBX_CTL, 21, 13, .ro, 0, .aon⟩
  | .VFM_MBX_CTL_BLOCK => ⟨.VFM_MBX_CTL, 22, 22, .rwl, 0, .aon⟩
  | .FN_MBX_CTL_LEN => ⟨.FN_MBX_CTL, 8, 0, .rw, 0, .aon⟩
  | .FN_MBX_CTL_SEND => ⟨.FN_MBX_CTL, 9, 9, .w1s, 0, .aon⟩
  | .FN_MBX_CTL_BUSY => ⟨.FN_MBX_CTL, 10, 10, .ro, 0, .aon⟩
  | .FN_MBX_CTL_FULL => ⟨.FN_MBX_CTL, 11, 11, .ro, 0, .aon⟩
  | .FN_MBX_CTL_ACK => ⟨.FN_MBX_CTL, 12, 12, .w1s, 0, .aon⟩
  | .FN_MBX_CTL_IN_LEN => ⟨.FN_MBX_CTL, 21, 13, .ro, 0, .aon⟩
  | .FN_MBX_CTL_VECTOR => ⟨.FN_MBX_CTL, 25, 23, .rw, 0, .aon⟩
  | .VFM_DIRTY_LO_ADDR => ⟨.VFM_DIRTY_LO, 63, 12, .rwl, 0, .aon⟩
  | .VFM_DIRTY_HI_ADDR => ⟨.VFM_DIRTY_HI, 63, 12, .rwl, 0, .aon⟩
  | .VFM_DIRTY_MAP0_ADDR => ⟨.VFM_DIRTY_MAP0, 63, 12, .rwl, 0, .aon⟩
  | .VFM_DIRTY_MAP1_ADDR => ⟨.VFM_DIRTY_MAP1, 63, 12, .rwl, 0, .aon⟩
  | .VFM_DIRTY_CTL_ENABLE => ⟨.VFM_DIRTY_CTL, 0, 0, .rwl, 0, .aon⟩
  | .VFM_DIRTY_CTL_ACTIVE => ⟨.VFM_DIRTY_CTL, 1, 1, .ro, 0, .aon⟩
  | .VFM_DIRTY_CMD_SYNC => ⟨.VFM_DIRTY_CMD, 0, 0, .w1s, 0, .aon⟩
  | .VFM_DIRTY_CMD_BUSY => ⟨.VFM_DIRTY_CMD, 1, 1, .ro, 0, .aon⟩
  | .VFM_DIRTY_CMD_RESULT => ⟨.VFM_DIRTY_CMD, 11, 8, .ro, 0, .aon⟩
  | .FN_CQ_BASE_BASE => ⟨.FN_CQ_BASE, 63, 12, .rw, 0, .aon⟩
  | .FN_CQ_CFG_ENABLE => ⟨.FN_CQ_CFG, 0, 0, .rw, 0, .aon⟩
  | .FN_CQ_CFG_LOG2 => ⟨.FN_CQ_CFG, 5, 1, .rw, 6, .aon⟩
  | .FN_CQ_CFG_VECTOR => ⟨.FN_CQ_CFG, 11, 6, .rw, 0, .aon⟩
  | .FN_CQ_CFG_COAL_COUNT => ⟨.FN_CQ_CFG, 19, 12, .rw, 0, .aon⟩
  | .FN_CQ_CFG_COAL_US => ⟨.FN_CQ_CFG, 31, 20, .rw, 0, .aon⟩
  | .FN_CQ_CFG_FULL => ⟨.FN_CQ_CFG, 32, 32, .ro, 0, .aon⟩
  | .FN_CQ_CFG_HEADERR => ⟨.FN_CQ_CFG, 33, 33, .w1c, 0, .aon⟩
  | .FN_CQ_CFG_CFGERR => ⟨.FN_CQ_CFG, 34, 34, .w1c, 0, .aon⟩
  | .FN_CQ_TAILADDR_ADDR => ⟨.FN_CQ_TAILADDR, 63, 3, .rw, 0, .aon⟩
  | .FN_CQ_HEAD_HEAD => ⟨.FN_CQ_HEAD, 15, 0, .rw, 0, .aon⟩
  | .FN_CQ_HEAD_TAIL => ⟨.FN_CQ_HEAD, 47, 32, .ro, 0, .aon⟩
  | .FN_STATE_STATE => ⟨.FN_STATE, 1, 0, .ro, 0, .aon⟩
  | .FN_STATE_PAUSED => ⟨.FN_STATE, 2, 2, .ro, 0, .aon⟩
  | .FN_STATE_DEVICE_READY => ⟨.FN_STATE, 3, 3, .ro, 0, .aon⟩
  | .FN_STATE_NCQ => ⟨.FN_STATE, 13, 8, .ro, 0, .aon⟩
  | .FN_STATE_GEN => ⟨.FN_STATE, 31, 16, .ro, 0, .aon⟩
  | .FN_STATE_SUBCHANNELS => ⟨.FN_STATE, 44, 32, .ro, 0, .aon⟩
  | .FN_WIN_WIN => ⟨.FN_WIN, 63, 0, .ro, 0, .aon⟩
  | .CLM_PAIR_PAIR_ID => ⟨.CLM_PAIR, 15, 0, .rwl, 0, .mram⟩
  | .CLM_PAIR_MEMBER => ⟨.CLM_PAIR, 16, 16, .rwl, 0, .mram⟩
  | .CLM_PAIR_PAIRED => ⟨.CLM_PAIR, 17, 17, .rwl, 0, .mram⟩
  | .CLM_CLAIM_CLAIM => ⟨.CLM_CLAIM, 31, 0, .ro, 0, .mram⟩
  | .CLM_PEER_CLAIM_CLAIM => ⟨.CLM_PEER_CLAIM, 31, 0, .ro, 0, .mram⟩
  | .CLM_PEER_CLAIM_SOURCE => ⟨.CLM_PEER_CLAIM, 34, 32, .ro, 0, .aon⟩
  | .CLM_STATUS_ROLE => ⟨.CLM_STATUS, 1, 0, .ro, 0, .aon⟩
  | .CLM_STATUS_SYNC => ⟨.CLM_STATUS, 3, 2, .ro, 0, .aon⟩
  | .CLM_STATUS_HB_LOST => ⟨.CLM_STATUS, 4, 4, .ro, 0, .aon⟩
  | .CLM_STATUS_PEER_PRESENT => ⟨.CLM_STATUS, 5, 5, .ro, 0, .aon⟩
  | .CLM_STATUS_CFG_MISMATCH => ⟨.CLM_STATUS, 6, 6, .ro, 0, .aon⟩
  | .CLM_STATUS_WAIT_PEER => ⟨.CLM_STATUS, 7, 7, .ro, 0, .aon⟩
  | .CLM_STATUS_HOLD => ⟨.CLM_STATUS, 8, 8, .ro, 0, .aon⟩
  | .CLM_CTL_FENCE_MS => ⟨.CLM_CTL, 15, 0, .rwl, 4000, .aon⟩
  | .CLM_CTL_VECTOR => ⟨.CLM_CTL, 21, 16, .rwl, 0, .aon⟩
  | .CLM_CMD_OP => ⟨.CLM_CMD, 2, 0, .wo, 0, .aon⟩
  | .CLM_CMD_BUSY => ⟨.CLM_CMD, 3, 3, .ro, 0, .aon⟩
  | .CLM_CMD_RESULT => ⟨.CLM_CMD, 11, 8, .ro, 0, .aon⟩
  | .CLM_SWITCHBACK_GO => ⟨.CLM_SWITCHBACK, 0, 0, .w1s, 0, .aon⟩
  | .CLM_SWITCHBACK_BUSY => ⟨.CLM_SWITCHBACK, 1, 1, .ro, 0, .aon⟩
  | .CLM_SWITCHBACK_RESULT => ⟨.CLM_SWITCHBACK, 11, 8, .ro, 0, .aon⟩
  | .CLM_EVENT_HB_LOST => ⟨.CLM_EVENT, 0, 0, .w1c, 0, .aon⟩
  | .CLM_EVENT_TAKEOVER => ⟨.CLM_EVENT, 1, 1, .w1c, 0, .aon⟩
  | .CLM_EVENT_OUTCLAIMED => ⟨.CLM_EVENT, 2, 2, .w1c, 0, .mram⟩
  | .CLM_EVENT_DETACHED => ⟨.CLM_EVENT, 3, 3, .w1c, 0, .aon⟩
  | .CLM_EVENT_IN_STEP => ⟨.CLM_EVENT, 4, 4, .w1c, 0, .aon⟩
  | .CLM_TAKEOVERS_COUNT => ⟨.CLM_TAKEOVERS, 63, 0, .ro, 0, .mram⟩
  | .CLM_MIRROR_MSGS_COUNT => ⟨.CLM_MIRROR_MSGS, 63, 0, .ro, 0, .ctr⟩
  | .CLM_HB_LOSSES_COUNT => ⟨.CLM_HB_LOSSES, 63, 0, .ro, 0, .ctr⟩
  | .CLM_HOLDS_COUNT => ⟨.CLM_HOLDS, 63, 0, .ro, 0, .ctr⟩
  | .TMB_REQ_BASE_BASE => ⟨.TMB_REQ_BASE, 45, 12, .rw, 0, .no⟩
  | .TMB_RSP_BASE_BASE => ⟨.TMB_RSP_BASE, 45, 12, .rw, 0, .no⟩
  | .TMB_REQ_CTL_LOG2 => ⟨.TMB_REQ_CTL, 3, 0, .rw, 4, .no⟩
  | .TMB_REQ_CTL_PROD => ⟨.TMB_REQ_CTL, 27, 16, .rw, 0, .no⟩
  | .TMB_REQ_CTL_CONS => ⟨.TMB_REQ_CTL, 43, 32, .ro, 0, .no⟩
  | .TMB_RSP_CTL_LOG2 => ⟨.TMB_RSP_CTL, 3, 0, .rw, 4, .no⟩
  | .TMB_RSP_CTL_PROD => ⟨.TMB_RSP_CTL, 27, 16, .ro, 0, .no⟩
  | .TMB_RSP_CTL_CONS => ⟨.TMB_RSP_CTL, 43, 32, .rw, 0, .no⟩
  | .TMB_DMA_BASE_ADDR => ⟨.TMB_DMA_BASE, 45, 21, .rwl, 0, .no⟩
  | .TMB_DMA_BASE_LOCK => ⟨.TMB_DMA_BASE, 63, 63, .w1s, 0, .no⟩
  | .TMB_DMA_LIMIT_ADDR => ⟨.TMB_DMA_LIMIT, 45, 21, .rwl, 0, .no⟩
  | .TMB_DMA_LIMIT_LOCK => ⟨.TMB_DMA_LIMIT, 63, 63, .w1s, 0, .no⟩
  | .TMB_STATUS_RUNNING => ⟨.TMB_STATUS, 0, 0, .ro, 0, .no⟩
  | .TMB_STATUS_RESTARTING => ⟨.TMB_STATUS, 1, 1, .ro, 0, .no⟩
  | .TMB_STATUS_DRBG_OK => ⟨.TMB_STATUS, 2, 2, .ro, 0, .no⟩
  | .TMB_STATUS_BANK => ⟨.TMB_STATUS, 3, 3, .ro, 0, .no⟩
  | .TMB_STATUS_DEBUG => ⟨.TMB_STATUS, 15, 8, .ro, 0, .no⟩
  | .TMB_STATUS_RESTARTS => ⟨.TMB_STATUS, 63, 32, .ro, 0, .no⟩
  | .TMB_KICK_KICK => ⟨.TMB_KICK, 0, 0, .w1s, 0, .no⟩
  | .TMB_UNUSABLE_COUNT => ⟨.TMB_UNUSABLE, 63, 0, .ro, 0, .no⟩
  | .LOG_CTL_CKPT_LOG2 => ⟨.LOG_CTL, 4, 0, .rwl, 16, .aon⟩
  | .LOG_CTL_CKPT_SEC => ⟨.LOG_CTL, 19, 8, .rwl, 3600, .aon⟩
  | .LOG_CTL_VECTOR => ⟨.LOG_CTL, 25, 20, .rwl, 0, .aon⟩
  | .LOG_STATUS_FULL => ⟨.LOG_STATUS, 0, 0, .ro, 0, .aon⟩
  | .LOG_STATUS_RESERVE => ⟨.LOG_STATUS, 1, 1, .ro, 0, .aon⟩
  | .LOG_STATUS_CHAIN_BROKEN => ⟨.LOG_STATUS, 2, 2, .w1c, 0, .aon⟩
  | .LOG_STATUS_SIGNING => ⟨.LOG_STATUS, 3, 3, .ro, 0, .aon⟩
  | .LOG_SEQ_SEQ => ⟨.LOG_SEQ, 63, 0, .ro, 0, .mram⟩
  | .LOG_EXPORTED_SEQ => ⟨.LOG_EXPORTED, 63, 0, .rw, 0, .mram⟩
  | .LOG_CKPT_SEQ_SEQ => ⟨.LOG_CKPT_SEQ, 63, 0, .ro, 0, .mram⟩
  | .LOG_XQ_BASE_BASE => ⟨.LOG_XQ_BASE, 63, 12, .rwl, 0, .aon⟩
  | .LOG_XQ_CTL_ENABLE => ⟨.LOG_XQ_CTL, 0, 0, .rwl, 0, .aon⟩
  | .LOG_XQ_CTL_LOG2 => ⟨.LOG_XQ_CTL, 12, 8, .rwl, 12, .aon⟩
  | .LOG_CKPT_EXPORTED_COUNT => ⟨.LOG_CKPT_EXPORTED, 31, 0, .rw, 0, .mram⟩
  | .LOG_CKPT_EXPORTED_MADE => ⟨.LOG_CKPT_EXPORTED, 63, 32, .ro, 0, .mram⟩
  | .LOG_DROPPED_COUNT => ⟨.LOG_DROPPED, 63, 0, .ro, 0, .mram⟩
  | .LOG_REFUSED_COUNT => ⟨.LOG_REFUSED, 63, 0, .ro, 0, .ctr⟩
  | .FUS_STATE_DEBUG_KILL => ⟨.FUS_STATE, 0, 0, .ro, Config.fusedBits 1 1, .mram⟩
  | .FUS_STATE_ROM_PRIMARY_REVOKED => ⟨.FUS_STATE, 1, 1, .ro, Config.fusedBits 2 1, .mram⟩
  | .FUS_STATE_SLOT_PROG => ⟨.FUS_STATE, 5, 2, .ro, Config.fusedBits 3 4, .mram⟩
  | .FUS_STATE_SLOT_REVOKED => ⟨.FUS_STATE, 9, 6, .ro, Config.fusedBits 4 4, .mram⟩
  | .FUS_ROLLBACK_FUSED => ⟨.FUS_ROLLBACK, 6, 0, .ro, Config.fusedBits 5 7, .mram⟩
  | .FUS_ROLLBACK_MIRROR => ⟨.FUS_ROLLBACK, 14, 8, .ro, 0, .mram⟩
  | .FUS_SERIAL_ASCII => ⟨.FUS_SERIAL, 63, 0, .ro, Config.fusedBits 6 64, .mram⟩
  | .FUS_SLOT_HASH_HASH => ⟨.FUS_SLOT_HASH, 63, 0, .ro, Config.fusedBits 7 64, .mram⟩
  | .FUS_MAJORITY_COUNT => ⟨.FUS_MAJORITY, 63, 0, .ro, 0, .ctr⟩
  | .DBG_ID_IDCODE => ⟨.DBG_ID, 31, 0, .ro, Config.fusedBits 8 32, .aon⟩
  | .DBG_CTL_LEVEL => ⟨.DBG_CTL, 1, 0, .rw, 0, .aon⟩
  | .DBG_CTL_REQ => ⟨.DBG_CTL, 2, 2, .w1s, 0, .aon⟩
  | .DBG_CTL_CHECK => ⟨.DBG_CTL, 3, 3, .w1s, 0, .aon⟩
  | .DBG_STATUS_GRANTED => ⟨.DBG_STATUS, 1, 0, .ro, 0, .aon⟩
  | .DBG_STATUS_FAILS => ⟨.DBG_STATUS, 3, 2, .ro, 0, .aon⟩
  | .DBG_STATUS_CHAL_VALID => ⟨.DBG_STATUS, 4, 4, .ro, 0, .aon⟩
  | .DBG_CHAL_BYTES => ⟨.DBG_CHAL, 63, 0, .ro, 0, .aon⟩
  | .MOD_STATE_MODE => ⟨.MOD_STATE, 3, 0, .ro, 1, .aon⟩
  | .MOD_STATE_PENDING => ⟨.MOD_STATE, 7, 4, .ro, 0, .aon⟩
  | .MOD_STATE_STEPS => ⟨.MOD_STATE, 15, 8, .ro, 0, .aon⟩
  | .MOD_STATE_RETAINED => ⟨.MOD_STATE, 16, 16, .ro, 0, .aon⟩
  | .MOD_CAUSE_CODE => ⟨.MOD_CAUSE, 15, 0, .ro, 0, .mram⟩
  | .MOD_CAUSE_ORIGIN => ⟨.MOD_CAUSE, 31, 16, .ro, 0, .aon⟩
  | .MOD_START_COUNT_COUNT => ⟨.MOD_START_COUNT, 7, 0, .ro, 0, .mram⟩
  | .MOD_FAIL_HIST_LAST => ⟨.MOD_FAIL_HIST, 15, 0, .ro, 0, .mram⟩
  | .MOD_FAIL_HIST_PREV => ⟨.MOD_FAIL_HIST, 31, 16, .ro, 0, .mram⟩
  | .MOD_FAIL_HIST_OLDEST => ⟨.MOD_FAIL_HIST, 47, 32, .ro, 0, .mram⟩
  | .MOD_CMD_OP => ⟨.MOD_CMD, 2, 0, .wo, 0, .aon⟩
  | .MOD_CMD_RETAIN => ⟨.MOD_CMD, 3, 3, .wo, 0, .aon⟩
  | .MOD_CMD_CLEAR => ⟨.MOD_CMD, 4, 4, .wo, 0, .aon⟩
  | .MOD_CMD_BUSY => ⟨.MOD_CMD, 5, 5, .ro, 0, .aon⟩
  | .MOD_CMD_RESULT => ⟨.MOD_CMD, 11, 8, .ro, 0, .aon⟩
  | .MOD_CTL_DRAIN_S => ⟨.MOD_CTL, 7, 0, .rwl, 60, .aon⟩
  | .MOD_CTL_VECTOR => ⟨.MOD_CTL, 13, 8, .rwl, 0, .aon⟩
  | .MOD_WAKE_TIME_TIME => ⟨.MOD_WAKE_TIME, 63, 0, .rwl, 0xffffffffffffffff, .aon⟩
  | .MOD_INSTALL_ADDR_VALUE => ⟨.MOD_INSTALL_ADDR, 63, 0, .rwl, 0, .aon⟩
  | .MOD_INSTALL_LEN_VALUE => ⟨.MOD_INSTALL_LEN, 63, 0, .rwl, 0, .aon⟩
  | .MOD_STEP_TIME_US => ⟨.MOD_STEP_TIME, 31, 0, .ro, 0, .aon⟩
  | .MOD_MCTP_ADDR => ⟨.MOD_MCTP, 6, 0, .rwl, 100, .mram⟩
  | .MOD_MCTP_EID => ⟨.MOD_MCTP, 15, 8, .ro, 0, .aon⟩
  | .MOD_MCTP_DISABLE => ⟨.MOD_MCTP, 16, 16, .rwl, 0, .mram⟩
  | .PWR_STATE_ON => ⟨.PWR_STATE, 35, 0, .ro, 0x200000001, .aon⟩
  | .PWR_REQ_DOMAIN => ⟨.PWR_REQ, 5, 0, .rwl, 0, .aon⟩
  | .PWR_REQ_OP => ⟨.PWR_REQ, 7, 6, .rwl, 0, .aon⟩
  | .PWR_RESULT_BUSY => ⟨.PWR_RESULT, 0, 0, .ro, 0, .aon⟩
  | .PWR_RESULT_DEFERRED => ⟨.PWR_RESULT, 1, 1, .ro, 0, .aon⟩
  | .PWR_RESULT_RESULT => ⟨.PWR_RESULT, 11, 8, .ro, 0, .aon⟩
  | .PWR_FORCE_REASON => ⟨.PWR_FORCE, 15, 0, .rwl, 0, .aon⟩
  | .PWR_FORCE_GO => ⟨.PWR_FORCE, 16, 16, .w1s, 0, .aon⟩
  | .PWR_HOLD_HELD => ⟨.PWR_HOLD, 35, 0, .ro, 2, .aon⟩
  | .PWR_CLKSTOP_STOPPED => ⟨.PWR_CLKSTOP, 35, 0, .ro, 0, .aon⟩
  | .PWR_POD_MHZ_STEP => ⟨.PWR_POD_MHZ, 5, 0, .rw, 32, .aon⟩
  | .PWR_POD_MHZ_NOW => ⟨.PWR_POD_MHZ, 13, 8, .ro, 0, .aon⟩
  | .PWR_DARK_DROPS_COUNT => ⟨.PWR_DARK_DROPS, 63, 0, .ro, 0, .ctr⟩
  | .TIM_NOW_NS => ⟨.TIM_NOW, 63, 0, .ro, 1_000_000, .aon⟩
  | .TIM_EPOCH_OFFSET => ⟨.TIM_EPOCH, 62, 0, .rwl, 0, .aon⟩
  | .TIM_EPOCH_VALID => ⟨.TIM_EPOCH, 63, 63, .ro, 0, .aon⟩
  | .PWR_INPUT_MV => ⟨.PWR_INPUT, 15, 0, .ro, 0, .aon⟩
  | .PWR_INPUT_MA => ⟨.PWR_INPUT, 31, 16, .ro, 0, .aon⟩
  | .PWR_INPUT_MW => ⟨.PWR_INPUT, 63, 32, .ro, 0, .aon⟩
  | .PWR_TEMP_TJ_MAX => ⟨.PWR_TEMP, 15, 0, .ro, 0, .aon⟩
  | .PWR_TEMP_LID => ⟨.PWR_TEMP, 31, 16, .ro, 0, .aon⟩
  | .PWR_TEMP_ISLAND => ⟨.PWR_TEMP, 37, 32, .ro, 0, .aon⟩
  | .PWR_TEMP_THROTTLE => ⟨.PWR_TEMP, 38, 38, .ro, 0, .aon⟩
  | .PWR_AGE_STEPS => ⟨.PWR_AGE, 4, 0, .ro, 0, .mram⟩
  | .PWR_AGE_FMAX => ⟨.PWR_AGE, 13, 8, .ro, 32, .mram⟩
  | .PWR_AGE_EXHAUSTED => ⟨.PWR_AGE, 51, 16, .ro, 0, .mram⟩
  | .PWR_LIFE_CYCLES_COUNT => ⟨.PWR_LIFE_CYCLES, 63, 0, .ro, 0, .mram⟩
  | .PWR_LIFE_HOURS_COUNT => ⟨.PWR_LIFE_HOURS, 63, 0, .ro, 0, .mram⟩
  | .PWR_REFRESH_RUNNING => ⟨.PWR_REFRESH, 0, 0, .ro, 0, .aon⟩
  | .PWR_REFRESH_PERCENT => ⟨.PWR_REFRESH, 7, 1, .ro, 0, .aon⟩
  | .PWR_REFRESH_UTC_VALID => ⟨.PWR_REFRESH, 8, 8, .ro, 0, .mram⟩
  | .PWR_REFRESH_LAST => ⟨.PWR_REFRESH, 63, 32, .ro, 0, .mram⟩

/-- The headings of the register tables. -/
def Reg.info : Reg → RegInfo
  | .ENG_EPB_CTL => ⟨0x280f00, 0, 1, 32, .one⟩
  | .ENG_EPB_FLAGS => ⟨0x280f04, 0, 1, 32, .one⟩
  | .ENG_EPB_BYTES_IN => ⟨0x280f08, 0, 1, 64, .one⟩
  | .ENG_EPB_BYTES_MEDIA => ⟨0x280f10, 0, 1, 64, .one⟩
  | .ENG_EPB_ENERGY => ⟨0x280f18, 0, 1, 64, .one⟩
  | .ENG_EPB_TIME => ⟨0x280f20, 0, 1, 64, .one⟩
  | .ENG_EPB_IDLE => ⟨0x280f28, 0, 1, 32, .one⟩
  | .ENG_EPB_RESULT => ⟨0x280f2c, 0, 1, 32, .one⟩
  | .ENG_EPB_LIVE => ⟨0x280f30, 0, 1, 32, .one⟩
  | .CSS_CTL => ⟨0x200000, 0, 1, 32, .one⟩
  | .CSS_STATUS => ⟨0x200004, 0, 1, 32, .one⟩
  | .CSS_SCH_ASSIGN => ⟨0x200008, 0, 1, 64, .one⟩
  | .CSS_SCH_CMD => ⟨0x200010, 0, 1, 32, .one⟩
  | .CSS_SCH_QUERY => ⟨0x200018, 0, 1, 64, .one⟩
  | .CSS_CC_HIT => ⟨0x200100, 0, 1, 64, .one⟩
  | .CSS_CC_MISS => ⟨0x200108, 0, 1, 64, .one⟩
  | .CSS_CC_WB => ⟨0x200110, 0, 1, 64, .one⟩
  | .CSS_JNL_FREE => ⟨0x200200, 0, 1, 64, .one⟩
  | .CSS_REPOSTED => ⟨0x200208, 0, 1, 64, .one⟩
  | .CSS_IND => ⟨0x200210, 0, 1, 64, .one⟩
  | .CSS_GEN_DROPPED => ⟨0x200218, 0, 1, 64, .one⟩
  | .CSS_CTL_LOST => ⟨0x200220, 0, 1, 64, .one⟩
  | .CSS_RESET_ENDED => ⟨0x200228, 0, 1, 64, .one⟩
  | .CSS_ABANDONED => ⟨0x200230, 0, 1, 64, .one⟩
  | .CSS_OE_LOAD => ⟨0x200300, 0x4, 8, 32, .array⟩
  | .CSS_CALL_BASE => ⟨0x200400, 0, 1, 64, .one⟩
  | .CSS_CALL_CTL => ⟨0x200408, 0, 1, 64, .one⟩
  | .CSS_CALL_ANS => ⟨0x200410, 0, 1, 64, .one⟩
  | .CSS_CALL_STAT => ⟨0x200418, 0, 1, 64, .one⟩
  | .ENG_ONLINE => ⟨0x280000, 0, 1, 32, .one⟩
  | .ENG_PACK_CTL => ⟨0x280008, 0, 1, 32, .one⟩
  | .ENG_DOM_SEL => ⟨0x280100, 0, 1, 32, .one⟩
  | .ENG_DOM_CTL => ⟨0x280108, 0, 1, 32, .dom⟩
  | .ENG_DOM_GRANT => ⟨0x280110, 0, 1, 64, .dom⟩
  | .ENG_DOM_CMD => ⟨0x280118, 0, 1, 32, .one⟩
  | .ENG_IDX_CTL => ⟨0x280200, 0, 1, 32, .one⟩
  | .ENG_IDX_BASE => ⟨0x280208, 0, 1, 64, .one⟩
  | .ENG_IDX_BUCKETS => ⟨0x280210, 0, 1, 32, .one⟩
  | .ENG_IDX_CMD => ⟨0x280218, 0, 1, 32, .one⟩
  | .ENG_IDX_ARG0 => ⟨0x280220, 0, 1, 64, .one⟩
  | .ENG_IDX_ARG1 => ⟨0x280228, 0, 1, 64, .one⟩
  | .ENG_IDX_PURGE => ⟨0x280230, 0, 1, 32, .one⟩
  | .ENG_PEND_BASE => ⟨0x280240, 0, 1, 64, .one⟩
  | .ENG_PEND_ENTRIES => ⟨0x280248, 0, 1, 32, .one⟩
  | .ENG_CHUNKS => ⟨0x280800, 0, 1, 64, .one⟩
  | .ENG_CHUNK_MAXCUT => ⟨0x280808, 0, 1, 64, .one⟩
  | .ENG_IDX_LOOKUPS => ⟨0x280810, 0, 1, 64, .one⟩
  | .ENG_IDX_HITS => ⟨0x280818, 0, 1, 64, .one⟩
  | .ENG_IDX_INSERTS => ⟨0x280820, 0, 1, 64, .one⟩
  | .ENG_IDX_EVICTS => ⟨0x280828, 0, 1, 64, .one⟩
  | .ENG_IDX_POISON => ⟨0x280830, 0, 1, 64, .one⟩
  | .ENG_PEND_FULL => ⟨0x280838, 0, 1, 64, .one⟩
  | .ENG_PACK_IN => ⟨0x280840, 0, 1, 64, .one⟩
  | .ENG_PACK_OUT => ⟨0x280848, 0, 1, 64, .one⟩
  | .ENG_PACK_RAW => ⟨0x280850, 0, 1, 64, .one⟩
  | .ENG_PACK_VFAIL => ⟨0x280858, 0, 1, 64, .one⟩
  | .ENG_UNPACK_FAIL => ⟨0x280860, 0, 1, 64, .one⟩
  | .ENG_CUS_CTL => ⟨0x280180, 0, 1, 32, .one⟩
  | .ENG_CUS_STRIPES => ⟨0x280184, 0, 1, 32, .one⟩
  | .ENG_CUS_EPOCH => ⟨0x280188, 0, 1, 64, .one⟩
  | .ENG_CUS_STATUS => ⟨0x280190, 0, 1, 64, .one⟩
  | .ENG_CUS_MQ_BASE => ⟨0x280198, 0, 1, 64, .one⟩
  | .ENG_CUS_MQ_CTL => ⟨0x2801a0, 0, 1, 64, .one⟩
  | .ENG_CUS_MSTART => ⟨0x2801c0, 0x10, 4, 64, .array⟩
  | .ENG_CUS_MCFG => ⟨0x2801c8, 0x10, 4, 64, .array⟩
  | .ENG_POOL_BASE => ⟨0x280300, 0, 1, 64, .one⟩
  | .ENG_POOL_SIZE => ⟨0x280308, 0, 1, 32, .one⟩
  | .ENG_POOL_CTL => ⟨0x280310, 0, 1, 64, .one⟩
  | .ENG_DIR_BASE => ⟨0x280400, 0, 1, 64, .one⟩
  | .ENG_DIR_CTL => ⟨0x280408, 0, 1, 64, .one⟩
  | .ENG_DIR_CMD => ⟨0x280410, 0, 1, 32, .one⟩
  | .ENG_DIR_ARG => ⟨0x280418, 0, 1, 64, .one⟩
  | .ENG_DREQ_BASE => ⟨0x280420, 0, 1, 64, .one⟩
  | .ENG_DREQ_CTL => ⟨0x280428, 0, 1, 64, .one⟩
  | .ENG_DLOG_CTL => ⟨0x280480, 0, 1, 64, .one⟩
  | .ENG_DLOG_MARK => ⟨0x280488, 0, 1, 64, .one⟩
  | .ENG_SEAL_CTR => ⟨0x280500, 0, 1, 64, .one⟩
  | .ENG_SEAL_MISMATCH => ⟨0x280868, 0, 1, 64, .one⟩
  | .ENG_UNSEAL_TAGFAIL => ⟨0x280870, 0, 1, 64, .one⟩
  | .ENG_SPREAD_SYNFAIL => ⟨0x280878, 0, 1, 64, .one⟩
  | .ENG_GATHER_ERASURES => ⟨0x280880, 0, 1, 64, .one⟩
  | .ENG_DIGEST_MISMATCH => ⟨0x280888, 0, 1, 64, .one⟩
  | .ENG_QUORUM_SHORT => ⟨0x280890, 0, 1, 64, .one⟩
  | .ENG_DIR_MISS => ⟨0x280898, 0, 1, 64, .one⟩
  | .MPT_PORT_CFG => ⟨0x300000, 0, 1, 32, .one⟩
  | .MPT_LANE_SEL => ⟨0x300008, 0, 1, 32, .one⟩
  | .MPT_LANE_CTL => ⟨0x300010, 0, 1, 32, .lane⟩
  | .MPT_LANE_STATUS => ⟨0x300018, 0, 1, 32, .lane⟩
  | .MPT_LANE_ADDR => ⟨0x300020, 0, 1, 64, .lane⟩
  | .MPT_PANIC => ⟨0x300028, 0, 1, 64, .one⟩
  | .MPT_DISC_CTL => ⟨0x300040, 0, 1, 64, .one⟩
  | .MPT_DEV_SEL => ⟨0x300100, 0, 1, 32, .one⟩
  | .MPT_DEV_INFO => ⟨0x300108, 0, 1, 32, .dev⟩
  | .MPT_DEV_NAME => ⟨0x300110, 0, 1, 64, .dev⟩
  | .MPT_DEV_CAP => ⟨0x300118, 0, 1, 64, .dev⟩
  | .MPT_DEV_CTL => ⟨0x300120, 0, 1, 32, .dev⟩
  | .MPT_DEV_GRANT => ⟨0x300128, 0, 1, 64, .dev⟩
  | .MPT_DEV_CMD => ⟨0x300130, 0, 1, 32, .one⟩
  | .MPT_RETRY => ⟨0x300200, 0, 1, 64, .one⟩
  | .MPT_GATE => ⟨0x300208, 0, 1, 32, .one⟩
  | .MPT_SCRUB_CTL => ⟨0x300300, 0, 1, 32, .one⟩
  | .MPT_SCRUB_STATUS => ⟨0x300308, 0, 1, 64, .one⟩
  | .MPT_EVQ_BASE => ⟨0x300380, 0, 1, 64, .one⟩
  | .MPT_EVQ_CTL => ⟨0x300388, 0, 1, 64, .one⟩
  | .MPT_INJ_ARM => ⟨0x300500, 0, 1, 32, .one⟩
  | .MPT_INJ_SLOT => ⟨0x300510, 0x10, 4, 64, .array⟩
  | .MPT_RETRIES => ⟨0x300800, 0, 1, 64, .one⟩
  | .MPT_TIMEOUTS => ⟨0x300808, 0, 1, 64, .one⟩
  | .MPT_TAPE_STARVE => ⟨0x300810, 0, 1, 64, .one⟩
  | .MPT_ZONE_FULL => ⟨0x300818, 0, 1, 64, .one⟩
  | .MPT_GATE_REFUSED => ⟨0x300820, 0, 1, 64, .one⟩
  | .MPT_LATE_IGNORED => ⟨0x300828, 0, 1, 64, .one⟩
  | .MPT_SCRUB_ERRORS => ⟨0x300830, 0, 1, 64, .one⟩
  | .MPT_EVQ_LOST => ⟨0x300838, 0, 1, 64, .one⟩
  | .MPT_LBA_FULL => ⟨0x300840, 0, 1, 64, .one⟩
  | .MEM_CFG => ⟨0x140000, 0, 1, 32, .one⟩
  | .MEM_ORDER_NEXT => ⟨0x140008, 0, 1, 32, .one⟩
  | .MEM_STRIPE_STATUS => ⟨0x140010, 0, 1, 32, .one⟩
  | .MEM_STRIPE_CMD => ⟨0x140018, 0, 1, 32, .one⟩
  | .MEM_ECC_CTL => ⟨0x140020, 0, 1, 32, .one⟩
  | .MEM_TRAIN_CTL => ⟨0x140028, 0, 1, 32, .one⟩
  | .MEM_UE_ADDR => ⟨0x140030, 0, 1, 64, .one⟩
  | .MEM_SCRUB_CTL => ⟨0x140040, 0, 1, 32, .one⟩
  | .MEM_SCRUB_STATUS => ⟨0x140048, 0, 1, 64, .one⟩
  | .MEM_REF_STATUS => ⟨0x140050, 0, 1, 32, .one⟩
  | .MEM_CE => ⟨0x140800, 0x8, 6, 64, .array⟩
  | .MEM_UE => ⟨0x140830, 0, 1, 64, .one⟩
  | .MEM_POISON_READS => ⟨0x140838, 0, 1, 64, .one⟩
  | .MEM_AGED => ⟨0x140840, 0, 1, 64, .one⟩
  | .MEM_RETRAINS => ⟨0x140848, 0, 1, 64, .one⟩
  | .MEM_FE_SWITCHES => ⟨0x140850, 0, 1, 64, .one⟩
  | .MEM_PANIC_TIME => ⟨0x140858, 0, 1, 64, .one⟩
  | .JNL_STATUS => ⟨0x180000, 0, 1, 32, .one⟩
  | .JNL_HEAD => ⟨0x180008, 0, 1, 64, .one⟩
  | .JNL_TAIL => ⟨0x180010, 0, 1, 64, .one⟩
  | .JNL_WIN_BASE => ⟨0x180018, 0, 1, 64, .one⟩
  | .JNL_SCRUB_CTL => ⟨0x180020, 0, 1, 32, .one⟩
  | .JNL_FLUSH => ⟨0x180028, 0, 1, 64, .one⟩
  | .JNL_REPAIRED => ⟨0x180800, 0, 1, 64, .one⟩
  | .JNL_LOST => ⟨0x180808, 0, 1, 64, .one⟩
  | .JNL_LOST_LIVE => ⟨0x180810, 0, 1, 64, .one⟩
  | .JNL_CARRIED => ⟨0x180818, 0, 1, 64, .one⟩
  | .JNL_REFUSED => ⟨0x180820, 0, 1, 64, .one⟩
  | .COH_CODE_BASE => ⟨0x100800, 0x10, 4, 64, .array⟩
  | .COH_CODE_LIMIT => ⟨0x100808, 0x10, 4, 64, .array⟩
  | .COH_IOGRANT_S => ⟨0x100900, 0x8, 2, 64, .array⟩
  | .COH_IOGRANT_U => ⟨0x100910, 0x8, 2, 64, .array⟩
  | .COH_ENC => ⟨0x100a00, 0x8, 8, 64, .array⟩
  | .COH_CTL => ⟨0x100000, 0, 1, 32, .one⟩
  | .COH_STATUS => ⟨0x100008, 0, 1, 64, .one⟩
  | .COH_DEAD => ⟨0x100010, 0, 1, 32, .one⟩
  | .COH_NACKS => ⟨0x100200, 0, 1, 64, .one⟩
  | .COH_TOKENS => ⟨0x100208, 0, 1, 64, .one⟩
  | .COH_DIR_EVICTS => ⟨0x100210, 0, 1, 64, .one⟩
  | .COH_BACKINV => ⟨0x100218, 0, 1, 64, .one⟩
  | .COH_CROSSED => ⟨0x100220, 0, 1, 64, .one⟩
  | .COH_AMO_NEAR => ⟨0x100228, 0, 1, 64, .one⟩
  | .COH_AMO_FAR => ⟨0x100230, 0, 1, 64, .one⟩
  | .COH_POISON_FILLS => ⟨0x100238, 0, 1, 64, .one⟩
  | .COH_LOST_LINES => ⟨0x100240, 0, 1, 64, .one⟩
  | .COH_MAINT_ADDR => ⟨0x100400, 0, 1, 64, .core⟩
  | .COH_MAINT_LEN => ⟨0x100408, 0, 1, 64, .core⟩
  | .COH_MAINT_CMD => ⟨0x100410, 0, 1, 32, .core⟩
  | .COH_MAINT_PROG => ⟨0x100418, 0, 1, 64, .core⟩
  | .COH_L2LOCK => ⟨0x100420, 0, 1, 32, .core⟩
  | .COH_IOWIN_BASE => ⟨0x100b00, 0x10, 4, 64, .array⟩
  | .COH_IOWIN_LIMIT => ⟨0x100b08, 0x10, 4, 64, .array⟩
  | .POD_INT_EN => ⟨0x80000, 0, 1, 32, .core⟩
  | .POD_INT_PEND => ⟨0x80008, 0, 1, 32, .core⟩
  | .POD_IPI_SET => ⟨0x80010, 0, 1, 32, .core⟩
  | .POD_TIMECMP => ⟨0x80018, 0, 1, 64, .core⟩
  | .POD_MODE => ⟨0x80800, 0, 1, 32, .pod⟩
  | .POD_CMD => ⟨0x80808, 0, 1, 32, .pod⟩
  | .POD_SPLIT_ENTRY => ⟨0x80810, 0, 1, 64, .pod⟩
  | .POD_RESTART_ENTRY => ⟨0x80818, 0, 1, 64, .pod⟩
  | .POD_STATUS => ⟨0x80820, 0, 1, 64, .pod⟩
  | .POD_RETRIES => ⟨0x80840, 0, 1, 64, .pod⟩
  | .POD_WARM_RESTARTS => ⟨0x80848, 0, 1, 64, .pod⟩
  | .POD_CFG => ⟨0x80c00, 0, 1, 32, .one⟩
  | .POD_MAP => ⟨0x80c08, 0, 1, 64, .one⟩
  | .POD_PHYS => ⟨0x80c10, 0, 1, 32, .one⟩
  | .POD_SPARES => ⟨0x80c18, 0, 1, 32, .one⟩
  | .POD_RETRY_CTL => ⟨0x80c20, 0, 1, 32, .one⟩
  | .POD_SELFTEST => ⟨0x80c28, 0, 1, 32, .one⟩
  | .POD_SPARINGS => ⟨0x80c40, 0, 1, 64, .one⟩
  | .FLT_CTL => ⟨0x10000, 0, 1, 32, .one⟩
  | .FLT_STATUS => ⟨0x10008, 0, 1, 64, .one⟩
  | .FLT_ACK => ⟨0x10010, 0, 1, 64, .one⟩
  | .FLT_SEEN => ⟨0x10018, 0, 1, 64, .one⟩
  | .FLT_CE_LEVEL => ⟨0x10020, 0, 1, 64, .one⟩
  | .FLT_PLEVEL => ⟨0x10028, 0x8, 2, 64, .array⟩
  | .FLT_FIRST_ADDR => ⟨0x10040, 0, 1, 64, .one⟩
  | .FLT_FIRST_MASTER => ⟨0x10048, 0, 1, 32, .one⟩
  | .FLT_FIRST_TYPE => ⟨0x10050, 0, 1, 32, .one⟩
  | .FLT_FIRST_TIME => ⟨0x10058, 0, 1, 64, .one⟩
  | .FLT_CNT_SEL => ⟨0x10080, 0, 1, 32, .one⟩
  | .FLT_CNT_CE => ⟨0x10088, 0, 1, 64, .src⟩
  | .FLT_CNT_UE => ⟨0x10090, 0, 1, 64, .src⟩
  | .FLT_CNT_ESC => ⟨0x10098, 0, 1, 64, .src⟩
  | .FLT_INJECT => ⟨0x10100, 0, 1, 32, .one⟩
  | .RNG_CTL => ⟨0x380000, 0, 1, 32, .one⟩
  | .RNG_STATUS => ⟨0x380008, 0, 1, 32, .one⟩
  | .RNG_NODES => ⟨0x380010, 0, 1, 64, .one⟩
  | .RNG_SESSION => ⟨0x380018, 0, 1, 64, .one⟩
  | .RNG_CLAIM_SEL => ⟨0x380020, 0, 1, 32, .one⟩
  | .RNG_CLAIM => ⟨0x380028, 0, 1, 64, .claim⟩
  | .RNG_PSTAT => ⟨0x380100, 0x100, 2, 32, .array⟩
  | .RNG_INJ_ARM => ⟨0x380500, 0, 1, 32, .one⟩
  | .RNG_INJ => ⟨0x380510, 0x10, 4, 64, .array⟩
  | .RNG_INJ_HITS => ⟨0x380580, 0x8, 4, 64, .array⟩
  | .RNG_RETX => ⟨0x380800, 0, 1, 64, .one⟩
  | .RNG_DUP => ⟨0x380808, 0, 1, 64, .one⟩
  | .RNG_MSG_FAILED => ⟨0x380810, 0, 1, 64, .one⟩
  | .RNG_CLAIM_DROP => ⟨0x380818, 0, 1, 64, .one⟩
  | .RNG_STALE => ⟨0x380820, 0, 1, 64, .one⟩
  | .RNG_TX_MSGS => ⟨0x380828, 0, 1, 64, .one⟩
  | .RNG_RX_MSGS => ⟨0x380830, 0, 1, 64, .one⟩
  | .RNG_CRC_DROP => ⟨0x380900, 0x80, 2, 64, .array⟩
  | .RNG_MALFORMED => ⟨0x380908, 0x80, 2, 64, .array⟩
  | .RNG_FEC_CORR => ⟨0x380910, 0x80, 2, 64, .array⟩
  | .RNG_FEC_UNCORR => ⟨0x380918, 0x80, 2, 64, .array⟩
  | .RNG_WRAPS => ⟨0x380920, 0x80, 2, 64, .array⟩
  | .HST_ID => ⟨0x400000, 0, 1, 64, .one⟩
  | .HST_LINK => ⟨0x400008, 0, 1, 32, .one⟩
  | .HST_STATUS => ⟨0x400010, 0, 1, 32, .one⟩
  | .HST_DARK => ⟨0x400800, 0, 1, 64, .one⟩
  | .HST_NOFUNC => ⟨0x400808, 0, 1, 64, .one⟩
  | .HST_MBX_REFUSED => ⟨0x400810, 0, 1, 64, .one⟩
  | .HST_LINK_DOWNS => ⟨0x400818, 0, 1, 64, .one⟩
  | .HST_RD_BYTES => ⟨0x400820, 0, 1, 64, .one⟩
  | .HST_WR_BYTES => ⟨0x400828, 0, 1, 64, .one⟩
  | .VFM_SEL => ⟨0x408000, 0, 1, 32, .one⟩
  | .VFM_CFG => ⟨0x408008, 0, 1, 32, .fnSel⟩
  | .VFM_WIN => ⟨0x408010, 0, 1, 64, .fnSel⟩
  | .VFM_CMD => ⟨0x408020, 0, 1, 32, .one⟩
  | .VFM_FSTAT => ⟨0x408028, 0, 1, 64, .fnSel⟩
  | .VFM_CTL => ⟨0x408030, 0, 1, 32, .one⟩
  | .VFM_EVENT => ⟨0x408038, 0, 1, 64, .one⟩
  | .VFM_MBX_PEND => ⟨0x408040, 0, 1, 64, .one⟩
  | .VFM_MBX_IN => ⟨0x408100, 0, 1, 2048, .fnSel⟩
  | .VFM_MBX_OUT => ⟨0x408200, 0, 1, 2048, .fnSel⟩
  | .VFM_MBX_CTL => ⟨0x408300, 0, 1, 32, .fnSel⟩
  | .FN_MBX_CTL => ⟨0x2200, 0, 1, 32, .fn⟩
  | .VFM_DIRTY_LO => ⟨0x408400, 0, 1, 64, .fnSel⟩
  | .VFM_DIRTY_HI => ⟨0x408408, 0, 1, 64, .fnSel⟩
  | .VFM_DIRTY_MAP0 => ⟨0x408410, 0, 1, 64, .fnSel⟩
  | .VFM_DIRTY_MAP1 => ⟨0x408418, 0, 1, 64, .fnSel⟩
  | .VFM_DIRTY_CTL => ⟨0x408420, 0, 1, 32, .fnSel⟩
  | .VFM_DIRTY_CMD => ⟨0x408428, 0, 1, 32, .fnSel⟩
  | .FN_CQ_BASE => ⟨0x1000, 0x40, 32, 64, .fnq⟩
  | .FN_CQ_CFG => ⟨0x1008, 0x40, 32, 64, .fnq⟩
  | .FN_CQ_TAILADDR => ⟨0x1010, 0x40, 32, 64, .fnq⟩
  | .FN_CQ_HEAD => ⟨0x1018, 0x40, 32, 64, .fnq⟩
  | .FN_STATE => ⟨0x3000, 0, 1, 64, .fn⟩
  | .FN_WIN => ⟨0x3008, 0, 1, 64, .fn⟩
  | .CLM_PAIR => ⟨0x480000, 0, 1, 32, .one⟩
  | .CLM_CLAIM => ⟨0x480008, 0, 1, 64, .one⟩
  | .CLM_PEER_CLAIM => ⟨0x480010, 0, 1, 64, .one⟩
  | .CLM_STATUS => ⟨0x480018, 0, 1, 32, .one⟩
  | .CLM_CTL => ⟨0x480020, 0, 1, 32, .one⟩
  | .CLM_CMD => ⟨0x480028, 0, 1, 32, .one⟩
  | .CLM_SWITCHBACK => ⟨0x480030, 0, 1, 32, .one⟩
  | .CLM_EVENT => ⟨0x480038, 0, 1, 32, .one⟩
  | .CLM_TAKEOVERS => ⟨0x480800, 0, 1, 64, .one⟩
  | .CLM_MIRROR_MSGS => ⟨0x480808, 0, 1, 64, .one⟩
  | .CLM_HB_LOSSES => ⟨0x480810, 0, 1, 64, .one⟩
  | .CLM_HOLDS => ⟨0x480818, 0, 1, 64, .one⟩
  | .TMB_REQ_BASE => ⟨0x500000, 0, 1, 64, .one⟩
  | .TMB_RSP_BASE => ⟨0x500010, 0, 1, 64, .one⟩
  | .TMB_REQ_CTL => ⟨0x500008, 0, 1, 64, .one⟩
  | .TMB_RSP_CTL => ⟨0x500018, 0, 1, 64, .one⟩
  | .TMB_DMA_BASE => ⟨0x500020, 0, 1, 64, .one⟩
  | .TMB_DMA_LIMIT => ⟨0x500028, 0, 1, 64, .one⟩
  | .TMB_STATUS => ⟨0x500030, 0, 1, 64, .one⟩
  | .TMB_KICK => ⟨0x500038, 0, 1, 32, .one⟩
  | .TMB_UNUSABLE => ⟨0x500800, 0, 1, 64, .one⟩
  | .LOG_CTL => ⟨0x30000, 0, 1, 32, .one⟩
  | .LOG_STATUS => ⟨0x30008, 0, 1, 32, .one⟩
  | .LOG_SEQ => ⟨0x30010, 0, 1, 64, .one⟩
  | .LOG_EXPORTED => ⟨0x30018, 0, 1, 64, .one⟩
  | .LOG_CKPT_SEQ => ⟨0x30020, 0, 1, 64, .one⟩
  | .LOG_XQ_BASE => ⟨0x30028, 0, 1, 64, .one⟩
  | .LOG_XQ_CTL => ⟨0x30030, 0, 1, 32, .one⟩
  | .LOG_CKPT_EXPORTED => ⟨0x30038, 0, 1, 64, .one⟩
  | .LOG_DROPPED => ⟨0x30800, 0, 1, 64, .one⟩
  | .LOG_REFUSED => ⟨0x30808, 0, 1, 64, .one⟩
  | .FUS_STATE => ⟨0x40000, 0, 1, 32, .one⟩
  | .FUS_ROLLBACK => ⟨0x40008, 0, 1, 32, .one⟩
  | .FUS_SERIAL => ⟨0x40010, 0x8, 2, 64, .array⟩
  | .FUS_SLOT_HASH => ⟨0x40100, 0x8, 32, 64, .array⟩
  | .FUS_MAJORITY => ⟨0x40800, 0, 1, 64, .one⟩
  | .DBG_ID => ⟨0x600000, 0, 1, 32, .one⟩
  | .DBG_CTL => ⟨0x600008, 0, 1, 32, .one⟩
  | .DBG_STATUS => ⟨0x600010, 0, 1, 32, .one⟩
  | .DBG_CHAL => ⟨0x600020, 0x8, 4, 64, .array⟩
  | .MOD_STATE => ⟨0x0, 0, 1, 32, .one⟩
  | .MOD_CAUSE => ⟨0x8, 0, 1, 32, .one⟩
  | .MOD_START_COUNT => ⟨0x10, 0, 1, 32, .one⟩
  | .MOD_FAIL_HIST => ⟨0x18, 0, 1, 64, .one⟩
  | .MOD_CMD => ⟨0x20, 0, 1, 32, .one⟩
  | .MOD_CTL => ⟨0x28, 0, 1, 32, .one⟩
  | .MOD_WAKE_TIME => ⟨0x30, 0, 1, 64, .one⟩
  | .MOD_INSTALL_ADDR => ⟨0x38, 0, 1, 64, .one⟩
  | .MOD_INSTALL_LEN => ⟨0x40, 0, 1, 64, .one⟩
  | .MOD_STEP_TIME => ⟨0x100, 0x8, 7, 64, .array⟩
  | .MOD_MCTP => ⟨0x200, 0, 1, 32, .one⟩
  | .PWR_STATE => ⟨0x20000, 0, 1, 64, .one⟩
  | .PWR_REQ => ⟨0x20008, 0, 1, 32, .one⟩
  | .PWR_RESULT => ⟨0x20010, 0, 1, 32, .one⟩
  | .PWR_FORCE => ⟨0x20018, 0, 1, 32, .one⟩
  | .PWR_HOLD => ⟨0x20020, 0, 1, 64, .one⟩
  | .PWR_CLKSTOP => ⟨0x20028, 0, 1, 64, .one⟩
  | .PWR_POD_MHZ => ⟨0x20100, 0x8, 16, 32, .array⟩
  | .PWR_DARK_DROPS => ⟨0x20800, 0, 1, 64, .one⟩
  | .TIM_NOW => ⟨0x50000, 0, 1, 64, .one⟩
  | .TIM_EPOCH => ⟨0x50008, 0, 1, 64, .one⟩
  | .PWR_INPUT => ⟨0x20200, 0, 1, 64, .one⟩
  | .PWR_TEMP => ⟨0x20208, 0, 1, 64, .one⟩
  | .PWR_AGE => ⟨0x20210, 0, 1, 64, .one⟩
  | .PWR_LIFE_CYCLES => ⟨0x20218, 0, 1, 64, .one⟩
  | .PWR_LIFE_HOURS => ⟨0x20220, 0, 1, 64, .one⟩
  | .PWR_REFRESH => ⟨0x20228, 0, 1, 64, .one⟩

/-- The named fields of each register. -/
def Reg.fields : Reg → List Fld
  | .ENG_EPB_CTL => [.ENG_EPB_CTL_START, .ENG_EPB_CTL_STOP, .ENG_EPB_CTL_CAL, .ENG_EPB_CTL_OPEN, .ENG_EPB_CTL_CAL_BUSY, .ENG_EPB_CTL_CAL_VALID]
  | .ENG_EPB_FLAGS => [.ENG_EPB_FLAGS_NONDEFAULT, .ENG_EPB_FLAGS_HITS, .ENG_EPB_FLAGS_RETRY, .ENG_EPB_FLAGS_DEGRADED, .ENG_EPB_FLAGS_CALSTALE, .ENG_EPB_FLAGS_COMPRESSED, .ENG_EPB_FLAGS_RESTORE, .ENG_EPB_FLAGS_GUARD]
  | .ENG_EPB_BYTES_IN => [.ENG_EPB_BYTES_IN_BYTES]
  | .ENG_EPB_BYTES_MEDIA => [.ENG_EPB_BYTES_MEDIA_BYTES]
  | .ENG_EPB_ENERGY => [.ENG_EPB_ENERGY_UJ]
  | .ENG_EPB_TIME => [.ENG_EPB_TIME_NS]
  | .ENG_EPB_IDLE => [.ENG_EPB_IDLE_MW]
  | .ENG_EPB_RESULT => [.ENG_EPB_RESULT_PJB]
  | .ENG_EPB_LIVE => [.ENG_EPB_LIVE_PJB]
  | .CSS_CTL => [.CSS_CTL_AGE_TICK, .CSS_CTL_RETIRE_DELAY]
  | .CSS_STATUS => [.CSS_STATUS_ACTIVE, .CSS_STATUS_RECOVERING, .CSS_STATUS_JNL_LOW]
  | .CSS_SCH_ASSIGN => [.CSS_SCH_ASSIGN_FIRST, .CSS_SCH_ASSIGN_COUNT, .CSS_SCH_ASSIGN_FUNCTION, .CSS_SCH_ASSIGN_REMOTE, .CSS_SCH_ASSIGN_NODE, .CSS_SCH_ASSIGN_CQ]
  | .CSS_SCH_CMD => [.CSS_SCH_CMD_OP, .CSS_SCH_CMD_BUSY, .CSS_SCH_CMD_RESULT]
  | .CSS_SCH_QUERY => [.CSS_SCH_QUERY_SCH, .CSS_SCH_QUERY_STATE, .CSS_SCH_QUERY_FUNCTION, .CSS_SCH_QUERY_REMOTE, .CSS_SCH_QUERY_NODE, .CSS_SCH_QUERY_SEQ_LOW]
  | .CSS_CC_HIT => [.CSS_CC_HIT_COUNT]
  | .CSS_CC_MISS => [.CSS_CC_MISS_COUNT]
  | .CSS_CC_WB => [.CSS_CC_WB_COUNT]
  | .CSS_JNL_FREE => [.CSS_JNL_FREE_RECORDS]
  | .CSS_REPOSTED => [.CSS_REPOSTED_COUNT]
  | .CSS_IND => [.CSS_IND_COUNT]
  | .CSS_GEN_DROPPED => [.CSS_GEN_DROPPED_COUNT]
  | .CSS_CTL_LOST => [.CSS_CTL_LOST_COUNT]
  | .CSS_RESET_ENDED => [.CSS_RESET_ENDED_COUNT]
  | .CSS_ABANDONED => [.CSS_ABANDONED_COUNT]
  | .CSS_OE_LOAD => [.CSS_OE_LOAD_ACTIVE]
  | .CSS_CALL_BASE => [.CSS_CALL_BASE_BASE]
  | .CSS_CALL_CTL => [.CSS_CALL_CTL_ENABLE, .CSS_CALL_CTL_LOG2, .CSS_CALL_CTL_PROD, .CSS_CALL_CTL_CONS]
  | .CSS_CALL_ANS => [.CSS_CALL_ANS_SLOT, .CSS_CALL_ANS_TAG, .CSS_CALL_ANS_RESULT, .CSS_CALL_ANS_LEN, .CSS_CALL_ANS_GO]
  | .CSS_CALL_STAT => [.CSS_CALL_STAT_RESULT, .CSS_CALL_STAT_OPEN]
  | .ENG_ONLINE => [.ENG_ONLINE_CHUNK, .ENG_ONLINE_PROBE, .ENG_ONLINE_PACK, .ENG_ONLINE_CODE_RST, .ENG_ONLINE_PACK0_RST, .ENG_ONLINE_PACK1_RST]
  | .ENG_PACK_CTL => [.ENG_PACK_CTL_MIN_SAVE]
  | .ENG_DOM_SEL => [.ENG_DOM_SEL_DOMAIN]
  | .ENG_DOM_CTL => [.ENG_DOM_CTL_LIVE, .ENG_DOM_CTL_OWNER, .ENG_DOM_CTL_OWN, .ENG_DOM_CTL_PF_GRANT]
  | .ENG_DOM_GRANT => [.ENG_DOM_GRANT_VF]
  | .ENG_DOM_CMD => [.ENG_DOM_CMD_OP, .ENG_DOM_CMD_BUSY, .ENG_DOM_CMD_RESULT]
  | .ENG_IDX_CTL => [.ENG_IDX_CTL_ENABLE, .ENG_IDX_CTL_STATE]
  | .ENG_IDX_BASE => [.ENG_IDX_BASE_BASE]
  | .ENG_IDX_BUCKETS => [.ENG_IDX_BUCKETS_UNITS]
  | .ENG_IDX_CMD => [.ENG_IDX_CMD_OP, .ENG_IDX_CMD_BUSY, .ENG_IDX_CMD_RESULT, .ENG_IDX_CMD_SLOT]
  | .ENG_IDX_ARG0 => [.ENG_IDX_ARG0_ARG]
  | .ENG_IDX_ARG1 => [.ENG_IDX_ARG1_ARG]
  | .ENG_IDX_PURGE => [.ENG_IDX_PURGE_ACTIVE, .ENG_IDX_PURGE_DONE]
  | .ENG_PEND_BASE => [.ENG_PEND_BASE_BASE]
  | .ENG_PEND_ENTRIES => [.ENG_PEND_ENTRIES_LOG2]
  | .ENG_CHUNKS => [.ENG_CHUNKS_COUNT]
  | .ENG_CHUNK_MAXCUT => [.ENG_CHUNK_MAXCUT_COUNT]
  | .ENG_IDX_LOOKUPS => [.ENG_IDX_LOOKUPS_COUNT]
  | .ENG_IDX_HITS => [.ENG_IDX_HITS_COUNT]
  | .ENG_IDX_INSERTS => [.ENG_IDX_INSERTS_COUNT]
  | .ENG_IDX_EVICTS => [.ENG_IDX_EVICTS_COUNT]
  | .ENG_IDX_POISON => [.ENG_IDX_POISON_COUNT]
  | .ENG_PEND_FULL => [.ENG_PEND_FULL_COUNT]
  | .ENG_PACK_IN => [.ENG_PACK_IN_BYTES]
  | .ENG_PACK_OUT => [.ENG_PACK_OUT_BYTES]
  | .ENG_PACK_RAW => [.ENG_PACK_RAW_COUNT]
  | .ENG_PACK_VFAIL => [.ENG_PACK_VFAIL_COUNT]
  | .ENG_UNPACK_FAIL => [.ENG_UNPACK_FAIL_COUNT]
  | .ENG_CUS_CTL => [.ENG_CUS_CTL_EPOCH_SEC]
  | .ENG_CUS_STRIPES => [.ENG_CUS_STRIPES_LIMIT]
  | .ENG_CUS_EPOCH => [.ENG_CUS_EPOCH_OPEN]
  | .ENG_CUS_STATUS => [.ENG_CUS_STATUS_SIGNING, .ENG_CUS_STATUS_CLOSED_WAIT, .ENG_CUS_STATUS_NO_TARGET, .ENG_CUS_STATUS_STALLED, .ENG_CUS_STATUS_USED]
  | .ENG_CUS_MQ_BASE => [.ENG_CUS_MQ_BASE_BASE]
  | .ENG_CUS_MQ_CTL => [.ENG_CUS_MQ_CTL_LOG2, .ENG_CUS_MQ_CTL_HEAD, .ENG_CUS_MQ_CTL_TAIL, .ENG_CUS_MQ_CTL_VECTOR]
  | .ENG_CUS_MSTART => [.ENG_CUS_MSTART_START]
  | .ENG_CUS_MCFG => [.ENG_CUS_MCFG_DEVICE, .ENG_CUS_MCFG_VALID, .ENG_CUS_MCFG_BLOCKS]
  | .ENG_POOL_BASE => [.ENG_POOL_BASE_BASE]
  | .ENG_POOL_SIZE => [.ENG_POOL_SIZE_UNITS]
  | .ENG_POOL_CTL => [.ENG_POOL_CTL_ENABLE, .ENG_POOL_CTL_FREE]
  | .ENG_DIR_BASE => [.ENG_DIR_BASE_BASE]
  | .ENG_DIR_CTL => [.ENG_DIR_CTL_CHUNK_UNITS, .ENG_DIR_CTL_STRIPE_UNITS, .ENG_DIR_CTL_ENABLE]
  | .ENG_DIR_CMD => [.ENG_DIR_CMD_OP, .ENG_DIR_CMD_BUSY, .ENG_DIR_CMD_KIND, .ENG_DIR_CMD_RESULT]
  | .ENG_DIR_ARG => [.ENG_DIR_ARG_ID]
  | .ENG_DREQ_BASE => [.ENG_DREQ_BASE_BASE]
  | .ENG_DREQ_CTL => [.ENG_DREQ_CTL_LOG2, .ENG_DREQ_CTL_REARM, .ENG_DREQ_CTL_HEAD, .ENG_DREQ_CTL_TAIL]
  | .ENG_DLOG_CTL => [.ENG_DLOG_CTL_HEAD, .ENG_DLOG_CTL_TAIL, .ENG_DLOG_CTL_FULL]
  | .ENG_DLOG_MARK => [.ENG_DLOG_MARK_MARK]
  | .ENG_SEAL_CTR => [.ENG_SEAL_CTR_RESERVED]
  | .ENG_SEAL_MISMATCH => [.ENG_SEAL_MISMATCH_COUNT]
  | .ENG_UNSEAL_TAGFAIL => [.ENG_UNSEAL_TAGFAIL_COUNT]
  | .ENG_SPREAD_SYNFAIL => [.ENG_SPREAD_SYNFAIL_COUNT]
  | .ENG_GATHER_ERASURES => [.ENG_GATHER_ERASURES_COUNT]
  | .ENG_DIGEST_MISMATCH => [.ENG_DIGEST_MISMATCH_COUNT]
  | .ENG_QUORUM_SHORT => [.ENG_QUORUM_SHORT_COUNT]
  | .ENG_DIR_MISS => [.ENG_DIR_MISS_COUNT]
  | .MPT_PORT_CFG => [.MPT_PORT_CFG_NARROW]
  | .MPT_LANE_SEL => [.MPT_LANE_SEL_LANE]
  | .MPT_LANE_CTL => [.MPT_LANE_CTL_ENABLE, .MPT_LANE_CTL_MAX_RATE, .MPT_LANE_CTL_WATERMARK, .MPT_LANE_CTL_RELEASE]
  | .MPT_LANE_STATUS => [.MPT_LANE_STATUS_UP, .MPT_LANE_STATUS_RATE, .MPT_LANE_STATUS_PANIC, .MPT_LANE_STATUS_FILL]
  | .MPT_LANE_ADDR => [.MPT_LANE_ADDR_SAS_ADDR]
  | .MPT_PANIC => [.MPT_PANIC_LANES]
  | .MPT_DISC_CTL => [.MPT_DISC_CTL_RUN, .MPT_DISC_CTL_BUSY, .MPT_DISC_CTL_DEVICES, .MPT_DISC_CTL_EXPANDERS, .MPT_DISC_CTL_OVERFLOW]
  | .MPT_DEV_SEL => [.MPT_DEV_SEL_DEVICE]
  | .MPT_DEV_INFO => [.MPT_DEV_INFO_STATE, .MPT_DEV_INFO_TYPE, .MPT_DEV_INFO_PATHS, .MPT_DEV_INFO_DUAL, .MPT_DEV_INFO_LBS, .MPT_DEV_INFO_EW, .MPT_DEV_INFO_PR]
  | .MPT_DEV_NAME => [.MPT_DEV_NAME_NAME]
  | .MPT_DEV_CAP => [.MPT_DEV_CAP_BLOCKS]
  | .MPT_DEV_CTL => [.MPT_DEV_CTL_DURABLE, .MPT_DEV_CTL_RT, .MPT_DEV_CTL_SCRUB_EN, .MPT_DEV_CTL_PF_GRANT, .MPT_DEV_CTL_QDEPTH]
  | .MPT_DEV_GRANT => [.MPT_DEV_GRANT_VF]
  | .MPT_DEV_CMD => [.MPT_DEV_CMD_OP, .MPT_DEV_CMD_RESULT]
  | .MPT_RETRY => [.MPT_RETRY_COUNT, .MPT_RETRY_DISK_TMO, .MPT_RETRY_TAPE_TMO]
  | .MPT_GATE => [.MPT_GATE_OPEN, .MPT_GATE_CAUSE]
  | .MPT_SCRUB_CTL => [.MPT_SCRUB_CTL_ENABLE, .MPT_SCRUB_CTL_PERIOD_DAYS, .MPT_SCRUB_CTL_SEGMENT_LOG2]
  | .MPT_SCRUB_STATUS => [.MPT_SCRUB_STATUS_BEHIND, .MPT_SCRUB_STATUS_ROUNDS]
  | .MPT_EVQ_BASE => [.MPT_EVQ_BASE_BASE]
  | .MPT_EVQ_CTL => [.MPT_EVQ_CTL_LOG2, .MPT_EVQ_CTL_HEAD, .MPT_EVQ_CTL_TAIL]
  | .MPT_INJ_ARM => [.MPT_INJ_ARM_ARMED, .MPT_INJ_ARM_ACTIVE]
  | .MPT_INJ_SLOT => [.MPT_INJ_SLOT_DEVICE, .MPT_INJ_SLOT_KIND, .MPT_INJ_SLOT_MODE, .MPT_INJ_SLOT_N, .MPT_INJ_SLOT_PARAM]
  | .MPT_RETRIES => [.MPT_RETRIES_COUNT]
  | .MPT_TIMEOUTS => [.MPT_TIMEOUTS_COUNT]
  | .MPT_TAPE_STARVE => [.MPT_TAPE_STARVE_COUNT]
  | .MPT_ZONE_FULL => [.MPT_ZONE_FULL_COUNT]
  | .MPT_GATE_REFUSED => [.MPT_GATE_REFUSED_COUNT]
  | .MPT_LATE_IGNORED => [.MPT_LATE_IGNORED_COUNT]
  | .MPT_SCRUB_ERRORS => [.MPT_SCRUB_ERRORS_COUNT]
  | .MPT_EVQ_LOST => [.MPT_EVQ_LOST_COUNT]
  | .MPT_LBA_FULL => [.MPT_LBA_FULL_COUNT]
  | .MEM_CFG => [.MEM_CFG_ORDER, .MEM_CFG_RETAINED]
  | .MEM_ORDER_NEXT => [.MEM_ORDER_NEXT_ORDER]
  | .MEM_STRIPE_STATUS => [.MEM_STRIPE_STATUS_FAILED, .MEM_STRIPE_STATUS_FE_ACTIVE, .MEM_STRIPE_STATUS_RETRAIN]
  | .MEM_STRIPE_CMD => [.MEM_STRIPE_CMD_OP, .MEM_STRIPE_CMD_STRIPE, .MEM_STRIPE_CMD_RESULT]
  | .MEM_ECC_CTL => [.MEM_ECC_CTL_FAIL_THRESH, .MEM_ECC_CTL_WRITEBACK]
  | .MEM_TRAIN_CTL => [.MEM_TRAIN_CTL_DRIFT]
  | .MEM_UE_ADDR => [.MEM_UE_ADDR_ADDR, .MEM_UE_ADDR_VALID]
  | .MEM_SCRUB_CTL => [.MEM_SCRUB_CTL_ENABLE]
  | .MEM_SCRUB_STATUS => [.MEM_SCRUB_STATUS_POS, .MEM_SCRUB_STATUS_PASSES]
  | .MEM_REF_STATUS => [.MEM_REF_STATUS_POSTPONED, .MEM_REF_STATUS_RATE]
  | .MEM_CE => [.MEM_CE_COUNT]
  | .MEM_UE => [.MEM_UE_COUNT]
  | .MEM_POISON_READS => [.MEM_POISON_READS_COUNT]
  | .MEM_AGED => [.MEM_AGED_COUNT]
  | .MEM_RETRAINS => [.MEM_RETRAINS_COUNT]
  | .MEM_FE_SWITCHES => [.MEM_FE_SWITCHES_COUNT]
  | .MEM_PANIC_TIME => [.MEM_PANIC_TIME_NS]
  | .JNL_STATUS => [.JNL_STATUS_DIES, .JNL_STATUS_SINGLE, .JNL_STATUS_FLUSHING, .JNL_STATUS_REFUSING]
  | .JNL_HEAD => [.JNL_HEAD_COUNT]
  | .JNL_TAIL => [.JNL_TAIL_COUNT]
  | .JNL_WIN_BASE => [.JNL_WIN_BASE_BASE]
  | .JNL_SCRUB_CTL => [.JNL_SCRUB_CTL_ENABLE]
  | .JNL_FLUSH => [.JNL_FLUSH_WRITES, .JNL_FLUSH_CLEAN, .JNL_FLUSH_US]
  | .JNL_REPAIRED => [.JNL_REPAIRED_COUNT]
  | .JNL_LOST => [.JNL_LOST_COUNT]
  | .JNL_LOST_LIVE => [.JNL_LOST_LIVE_COUNT]
  | .JNL_CARRIED => [.JNL_CARRIED_COUNT]
  | .JNL_REFUSED => [.JNL_REFUSED_COUNT]
  | .COH_CODE_BASE => [.COH_CODE_BASE_BASE, .COH_CODE_BASE_MONLY, .COH_CODE_BASE_VALID]
  | .COH_CODE_LIMIT => [.COH_CODE_LIMIT_LIMIT, .COH_CODE_LIMIT_LOCK]
  | .COH_IOGRANT_S => [.COH_IOGRANT_S_BLOCKS]
  | .COH_IOGRANT_U => [.COH_IOGRANT_U_BLOCKS]
  | .COH_ENC => [.COH_ENC_VALID, .COH_ENC_WORLD, .COH_ENC_SIZE, .COH_ENC_BASE]
  | .COH_CTL => [.COH_CTL_READY, .COH_CTL_PRED_OFF]
  | .COH_STATUS => [.COH_STATUS_DOMAIN, .COH_STATUS_RESTARTS]
  | .COH_DEAD => [.COH_DEAD_AGENT, .COH_DEAD_VALID]
  | .COH_NACKS => [.COH_NACKS_COUNT]
  | .COH_TOKENS => [.COH_TOKENS_COUNT]
  | .COH_DIR_EVICTS => [.COH_DIR_EVICTS_COUNT]
  | .COH_BACKINV => [.COH_BACKINV_COUNT]
  | .COH_CROSSED => [.COH_CROSSED_COUNT]
  | .COH_AMO_NEAR => [.COH_AMO_NEAR_COUNT]
  | .COH_AMO_FAR => [.COH_AMO_FAR_COUNT]
  | .COH_POISON_FILLS => [.COH_POISON_FILLS_COUNT]
  | .COH_LOST_LINES => [.COH_LOST_LINES_COUNT]
  | .COH_MAINT_ADDR => [.COH_MAINT_ADDR_ADDR]
  | .COH_MAINT_LEN => [.COH_MAINT_LEN_LEN]
  | .COH_MAINT_CMD => [.COH_MAINT_CMD_OP, .COH_MAINT_CMD_DONE, .COH_MAINT_CMD_RESULT]
  | .COH_MAINT_PROG => [.COH_MAINT_PROG_NEXT]
  | .COH_L2LOCK => [.COH_L2LOCK_WAYS]
  | .COH_IOWIN_BASE => [.COH_IOWIN_BASE_BASE, .COH_IOWIN_BASE_VALID]
  | .COH_IOWIN_LIMIT => [.COH_IOWIN_LIMIT_LIMIT]
  | .POD_INT_EN => [.POD_INT_EN_EN]
  | .POD_INT_PEND => [.POD_INT_PEND_LATCHED, .POD_INT_PEND_LEVEL]
  | .POD_IPI_SET => [.POD_IPI_SET_RAISE]
  | .POD_TIMECMP => [.POD_TIMECMP_TIME]
  | .POD_MODE => [.POD_MODE_MODE, .POD_MODE_SERVICE, .POD_MODE_PARKED, .POD_MODE_PHYS]
  | .POD_CMD => [.POD_CMD_OP, .POD_CMD_BUSY, .POD_CMD_RESULT]
  | .POD_SPLIT_ENTRY => [.POD_SPLIT_ENTRY_ADDR]
  | .POD_RESTART_ENTRY => [.POD_RESTART_ENTRY_ADDR]
  | .POD_STATUS => [.POD_STATUS_ERR, .POD_STATUS_LANES, .POD_STATUS_COMPFAULT, .POD_STATUS_RETIRE]
  | .POD_RETRIES => [.POD_RETRIES_COUNT]
  | .POD_WARM_RESTARTS => [.POD_WARM_RESTARTS_COUNT]
  | .POD_CFG => [.POD_CFG_SERVICE, .POD_CFG_SPLIT_SERVICE, .POD_CFG_MIN_PODS]
  | .POD_MAP => [.POD_MAP_MAP]
  | .POD_PHYS => [.POD_PHYS_STATE]
  | .POD_SPARES => [.POD_SPARES_LOGICAL, .POD_SPARES_LEFT]
  | .POD_RETRY_CTL => [.POD_RETRY_CTL_LIMIT]
  | .POD_SELFTEST => [.POD_SELFTEST_FAILED]
  | .POD_SPARINGS => [.POD_SPARINGS_COUNT]
  | .FLT_CTL => [.FLT_CTL_L3_ACTION, .FLT_CTL_IRQ_POD, .FLT_CTL_VECTOR, .FLT_CTL_COLL]
  | .FLT_STATUS => [.FLT_STATUS_SRC]
  | .FLT_ACK => [.FLT_ACK_SRC]
  | .FLT_SEEN => [.FLT_SEEN_SRC]
  | .FLT_CE_LEVEL => [.FLT_CE_LEVEL_SRC]
  | .FLT_PLEVEL => [.FLT_PLEVEL_LEVEL]
  | .FLT_FIRST_ADDR => [.FLT_FIRST_ADDR_ADDR]
  | .FLT_FIRST_MASTER => [.FLT_FIRST_MASTER_ORIGIN]
  | .FLT_FIRST_TYPE => [.FLT_FIRST_TYPE_SOURCE, .FLT_FIRST_TYPE_LEVEL, .FLT_FIRST_TYPE_UE, .FLT_FIRST_TYPE_ESCALATED, .FLT_FIRST_TYPE_INJECTED, .FLT_FIRST_TYPE_ACCESS, .FLT_FIRST_TYPE_KIND, .FLT_FIRST_TYPE_DETAIL, .FLT_FIRST_TYPE_VALID]
  | .FLT_FIRST_TIME => [.FLT_FIRST_TIME_NS]
  | .FLT_CNT_SEL => [.FLT_CNT_SEL_SOURCE]
  | .FLT_CNT_CE => [.FLT_CNT_CE_COUNT]
  | .FLT_CNT_UE => [.FLT_CNT_UE_COUNT]
  | .FLT_CNT_ESC => [.FLT_CNT_ESC_COUNT]
  | .FLT_INJECT => [.FLT_INJECT_SOURCE, .FLT_INJECT_UE, .FLT_INJECT_NOREACT, .FLT_INJECT_GO, .FLT_INJECT_RESULT]
  | .RNG_CTL => [.RNG_CTL_INSERT]
  | .RNG_STATUS => [.RNG_STATUS_STATE, .RNG_STATUS_NODE, .RNG_STATUS_DUPLICATE, .RNG_STATUS_WRAP_W, .RNG_STATUS_WRAP_E, .RNG_STATUS_BYPASS, .RNG_STATUS_TEST_FAIL]
  | .RNG_NODES => [.RNG_NODES_PRESENT, .RNG_NODES_DORMANT]
  | .RNG_SESSION => [.RNG_SESSION_SESSION]
  | .RNG_CLAIM_SEL => [.RNG_CLAIM_SEL_PAIR]
  | .RNG_CLAIM => [.RNG_CLAIM_CLAIM, .RNG_CLAIM_NODE, .RNG_CLAIM_VALID]
  | .RNG_PSTAT => [.RNG_PSTAT_LIGHT, .RNG_PSTAT_LOCK, .RNG_PSTAT_LANES, .RNG_PSTAT_LOOP_PASS]
  | .RNG_INJ_ARM => [.RNG_INJ_ARM_ARMED, .RNG_INJ_ARM_ACTIVE]
  | .RNG_INJ => [.RNG_INJ_KIND, .RNG_INJ_MODE, .RNG_INJ_CLASSES, .RNG_INJ_ALL, .RNG_INJ_N, .RNG_INJ_PARAM]
  | .RNG_INJ_HITS => [.RNG_INJ_HITS_COUNT]
  | .RNG_RETX => [.RNG_RETX_COUNT]
  | .RNG_DUP => [.RNG_DUP_COUNT]
  | .RNG_MSG_FAILED => [.RNG_MSG_FAILED_COUNT]
  | .RNG_CLAIM_DROP => [.RNG_CLAIM_DROP_COUNT]
  | .RNG_STALE => [.RNG_STALE_COUNT]
  | .RNG_TX_MSGS => [.RNG_TX_MSGS_COUNT]
  | .RNG_RX_MSGS => [.RNG_RX_MSGS_COUNT]
  | .RNG_CRC_DROP => [.RNG_CRC_DROP_COUNT]
  | .RNG_MALFORMED => [.RNG_MALFORMED_COUNT]
  | .RNG_FEC_CORR => [.RNG_FEC_CORR_COUNT]
  | .RNG_FEC_UNCORR => [.RNG_FEC_UNCORR_COUNT]
  | .RNG_WRAPS => [.RNG_WRAPS_COUNT]
  | .HST_ID => [.HST_ID_VENDOR, .HST_ID_DEVICE, .HST_ID_REV]
  | .HST_LINK => [.HST_LINK_SPEED, .HST_LINK_WIDTH, .HST_LINK_MAX_SPEED, .HST_LINK_MAX_WIDTH, .HST_LINK_UP, .HST_LINK_UPCFG]
  | .HST_STATUS => [.HST_STATUS_DARK]
  | .HST_DARK => [.HST_DARK_COUNT]
  | .HST_NOFUNC => [.HST_NOFUNC_COUNT]
  | .HST_MBX_REFUSED => [.HST_MBX_REFUSED_COUNT]
  | .HST_LINK_DOWNS => [.HST_LINK_DOWNS_COUNT]
  | .HST_RD_BYTES => [.HST_RD_BYTES_COUNT]
  | .HST_WR_BYTES => [.HST_WR_BYTES_COUNT]
  | .VFM_SEL => [.VFM_SEL_FUNCTION]
  | .VFM_CFG => [.VFM_CFG_NCQ, .VFM_CFG_MAX_ACTIVE]
  | .VFM_WIN => [.VFM_WIN_UNITS, .VFM_WIN_BASE]
  | .VFM_CMD => [.VFM_CMD_OP, .VFM_CMD_BUSY, .VFM_CMD_RESULT]
  | .VFM_FSTAT => [.VFM_FSTAT_STATE, .VFM_FSTAT_PAUSED, .VFM_FSTAT_GEN, .VFM_FSTAT_ACTIVE]
  | .VFM_CTL => [.VFM_CTL_VECTOR]
  | .VFM_EVENT => [.VFM_EVENT_FLR]
  | .VFM_MBX_PEND => [.VFM_MBX_PEND_FULL]
  | .VFM_MBX_IN => [.VFM_MBX_IN_DATA]
  | .VFM_MBX_OUT => [.VFM_MBX_OUT_DATA]
  | .VFM_MBX_CTL => [.VFM_MBX_CTL_LEN, .VFM_MBX_CTL_SEND, .VFM_MBX_CTL_BUSY, .VFM_MBX_CTL_FULL, .VFM_MBX_CTL_ACK, .VFM_MBX_CTL_IN_LEN, .VFM_MBX_CTL_BLOCK]
  | .FN_MBX_CTL => [.FN_MBX_CTL_LEN, .FN_MBX_CTL_SEND, .FN_MBX_CTL_BUSY, .FN_MBX_CTL_FULL, .FN_MBX_CTL_ACK, .FN_MBX_CTL_IN_LEN, .FN_MBX_CTL_VECTOR]
  | .VFM_DIRTY_LO => [.VFM_DIRTY_LO_ADDR]
  | .VFM_DIRTY_HI => [.VFM_DIRTY_HI_ADDR]
  | .VFM_DIRTY_MAP0 => [.VFM_DIRTY_MAP0_ADDR]
  | .VFM_DIRTY_MAP1 => [.VFM_DIRTY_MAP1_ADDR]
  | .VFM_DIRTY_CTL => [.VFM_DIRTY_CTL_ENABLE, .VFM_DIRTY_CTL_ACTIVE]
  | .VFM_DIRTY_CMD => [.VFM_DIRTY_CMD_SYNC, .VFM_DIRTY_CMD_BUSY, .VFM_DIRTY_CMD_RESULT]
  | .FN_CQ_BASE => [.FN_CQ_BASE_BASE]
  | .FN_CQ_CFG => [.FN_CQ_CFG_ENABLE, .FN_CQ_CFG_LOG2, .FN_CQ_CFG_VECTOR, .FN_CQ_CFG_COAL_COUNT, .FN_CQ_CFG_COAL_US, .FN_CQ_CFG_FULL, .FN_CQ_CFG_HEADERR, .FN_CQ_CFG_CFGERR]
  | .FN_CQ_TAILADDR => [.FN_CQ_TAILADDR_ADDR]
  | .FN_CQ_HEAD => [.FN_CQ_HEAD_HEAD, .FN_CQ_HEAD_TAIL]
  | .FN_STATE => [.FN_STATE_STATE, .FN_STATE_PAUSED, .FN_STATE_DEVICE_READY, .FN_STATE_NCQ, .FN_STATE_GEN, .FN_STATE_SUBCHANNELS]
  | .FN_WIN => [.FN_WIN_WIN]
  | .CLM_PAIR => [.CLM_PAIR_PAIR_ID, .CLM_PAIR_MEMBER, .CLM_PAIR_PAIRED]
  | .CLM_CLAIM => [.CLM_CLAIM_CLAIM]
  | .CLM_PEER_CLAIM => [.CLM_PEER_CLAIM_CLAIM, .CLM_PEER_CLAIM_SOURCE]
  | .CLM_STATUS => [.CLM_STATUS_ROLE, .CLM_STATUS_SYNC, .CLM_STATUS_HB_LOST, .CLM_STATUS_PEER_PRESENT, .CLM_STATUS_CFG_MISMATCH, .CLM_STATUS_WAIT_PEER, .CLM_STATUS_HOLD]
  | .CLM_CTL => [.CLM_CTL_FENCE_MS, .CLM_CTL_VECTOR]
  | .CLM_CMD => [.CLM_CMD_OP, .CLM_CMD_BUSY, .CLM_CMD_RESULT]
  | .CLM_SWITCHBACK => [.CLM_SWITCHBACK_GO, .CLM_SWITCHBACK_BUSY, .CLM_SWITCHBACK_RESULT]
  | .CLM_EVENT => [.CLM_EVENT_HB_LOST, .CLM_EVENT_TAKEOVER, .CLM_EVENT_OUTCLAIMED, .CLM_EVENT_DETACHED, .CLM_EVENT_IN_STEP]
  | .CLM_TAKEOVERS => [.CLM_TAKEOVERS_COUNT]
  | .CLM_MIRROR_MSGS => [.CLM_MIRROR_MSGS_COUNT]
  | .CLM_HB_LOSSES => [.CLM_HB_LOSSES_COUNT]
  | .CLM_HOLDS => [.CLM_HOLDS_COUNT]
  | .TMB_REQ_BASE => [.TMB_REQ_BASE_BASE]
  | .TMB_RSP_BASE => [.TMB_RSP_BASE_BASE]
  | .TMB_REQ_CTL => [.TMB_REQ_CTL_LOG2, .TMB_REQ_CTL_PROD, .TMB_REQ_CTL_CONS]
  | .TMB_RSP_CTL => [.TMB_RSP_CTL_LOG2, .TMB_RSP_CTL_PROD, .TMB_RSP_CTL_CONS]
  | .TMB_DMA_BASE => [.TMB_DMA_BASE_ADDR, .TMB_DMA_BASE_LOCK]
  | .TMB_DMA_LIMIT => [.TMB_DMA_LIMIT_ADDR, .TMB_DMA_LIMIT_LOCK]
  | .TMB_STATUS => [.TMB_STATUS_RUNNING, .TMB_STATUS_RESTARTING, .TMB_STATUS_DRBG_OK, .TMB_STATUS_BANK, .TMB_STATUS_DEBUG, .TMB_STATUS_RESTARTS]
  | .TMB_KICK => [.TMB_KICK_KICK]
  | .TMB_UNUSABLE => [.TMB_UNUSABLE_COUNT]
  | .LOG_CTL => [.LOG_CTL_CKPT_LOG2, .LOG_CTL_CKPT_SEC, .LOG_CTL_VECTOR]
  | .LOG_STATUS => [.LOG_STATUS_FULL, .LOG_STATUS_RESERVE, .LOG_STATUS_CHAIN_BROKEN, .LOG_STATUS_SIGNING]
  | .LOG_SEQ => [.LOG_SEQ_SEQ]
  | .LOG_EXPORTED => [.LOG_EXPORTED_SEQ]
  | .LOG_CKPT_SEQ => [.LOG_CKPT_SEQ_SEQ]
  | .LOG_XQ_BASE => [.LOG_XQ_BASE_BASE]
  | .LOG_XQ_CTL => [.LOG_XQ_CTL_ENABLE, .LOG_XQ_CTL_LOG2]
  | .LOG_CKPT_EXPORTED => [.LOG_CKPT_EXPORTED_COUNT, .LOG_CKPT_EXPORTED_MADE]
  | .LOG_DROPPED => [.LOG_DROPPED_COUNT]
  | .LOG_REFUSED => [.LOG_REFUSED_COUNT]
  | .FUS_STATE => [.FUS_STATE_DEBUG_KILL, .FUS_STATE_ROM_PRIMARY_REVOKED, .FUS_STATE_SLOT_PROG, .FUS_STATE_SLOT_REVOKED]
  | .FUS_ROLLBACK => [.FUS_ROLLBACK_FUSED, .FUS_ROLLBACK_MIRROR]
  | .FUS_SERIAL => [.FUS_SERIAL_ASCII]
  | .FUS_SLOT_HASH => [.FUS_SLOT_HASH_HASH]
  | .FUS_MAJORITY => [.FUS_MAJORITY_COUNT]
  | .DBG_ID => [.DBG_ID_IDCODE]
  | .DBG_CTL => [.DBG_CTL_LEVEL, .DBG_CTL_REQ, .DBG_CTL_CHECK]
  | .DBG_STATUS => [.DBG_STATUS_GRANTED, .DBG_STATUS_FAILS, .DBG_STATUS_CHAL_VALID]
  | .DBG_CHAL => [.DBG_CHAL_BYTES]
  | .MOD_STATE => [.MOD_STATE_MODE, .MOD_STATE_PENDING, .MOD_STATE_STEPS, .MOD_STATE_RETAINED]
  | .MOD_CAUSE => [.MOD_CAUSE_CODE, .MOD_CAUSE_ORIGIN]
  | .MOD_START_COUNT => [.MOD_START_COUNT_COUNT]
  | .MOD_FAIL_HIST => [.MOD_FAIL_HIST_LAST, .MOD_FAIL_HIST_PREV, .MOD_FAIL_HIST_OLDEST]
  | .MOD_CMD => [.MOD_CMD_OP, .MOD_CMD_RETAIN, .MOD_CMD_CLEAR, .MOD_CMD_BUSY, .MOD_CMD_RESULT]
  | .MOD_CTL => [.MOD_CTL_DRAIN_S, .MOD_CTL_VECTOR]
  | .MOD_WAKE_TIME => [.MOD_WAKE_TIME_TIME]
  | .MOD_INSTALL_ADDR => [.MOD_INSTALL_ADDR_VALUE]
  | .MOD_INSTALL_LEN => [.MOD_INSTALL_LEN_VALUE]
  | .MOD_STEP_TIME => [.MOD_STEP_TIME_US]
  | .MOD_MCTP => [.MOD_MCTP_ADDR, .MOD_MCTP_EID, .MOD_MCTP_DISABLE]
  | .PWR_STATE => [.PWR_STATE_ON]
  | .PWR_REQ => [.PWR_REQ_DOMAIN, .PWR_REQ_OP]
  | .PWR_RESULT => [.PWR_RESULT_BUSY, .PWR_RESULT_DEFERRED, .PWR_RESULT_RESULT]
  | .PWR_FORCE => [.PWR_FORCE_REASON, .PWR_FORCE_GO]
  | .PWR_HOLD => [.PWR_HOLD_HELD]
  | .PWR_CLKSTOP => [.PWR_CLKSTOP_STOPPED]
  | .PWR_POD_MHZ => [.PWR_POD_MHZ_STEP, .PWR_POD_MHZ_NOW]
  | .PWR_DARK_DROPS => [.PWR_DARK_DROPS_COUNT]
  | .TIM_NOW => [.TIM_NOW_NS]
  | .TIM_EPOCH => [.TIM_EPOCH_OFFSET, .TIM_EPOCH_VALID]
  | .PWR_INPUT => [.PWR_INPUT_MV, .PWR_INPUT_MA, .PWR_INPUT_MW]
  | .PWR_TEMP => [.PWR_TEMP_TJ_MAX, .PWR_TEMP_LID, .PWR_TEMP_ISLAND, .PWR_TEMP_THROTTLE]
  | .PWR_AGE => [.PWR_AGE_STEPS, .PWR_AGE_FMAX, .PWR_AGE_EXHAUSTED]
  | .PWR_LIFE_CYCLES => [.PWR_LIFE_CYCLES_COUNT]
  | .PWR_LIFE_HOURS => [.PWR_LIFE_HOURS_COUNT]
  | .PWR_REFRESH => [.PWR_REFRESH_RUNNING, .PWR_REFRESH_PERCENT, .PWR_REFRESH_UTC_VALID, .PWR_REFRESH_LAST]

/-- The ENG_ registers, part 0. -/
def Reg.listENG0 : List Reg :=
  [.ENG_EPB_CTL, .ENG_EPB_FLAGS, .ENG_EPB_BYTES_IN, .ENG_EPB_BYTES_MEDIA, .ENG_EPB_ENERGY,
   .ENG_EPB_TIME, .ENG_EPB_IDLE, .ENG_EPB_RESULT, .ENG_EPB_LIVE, .ENG_ONLINE,
   .ENG_PACK_CTL, .ENG_DOM_SEL, .ENG_DOM_CTL, .ENG_DOM_GRANT, .ENG_DOM_CMD,
   .ENG_IDX_CTL, .ENG_IDX_BASE, .ENG_IDX_BUCKETS, .ENG_IDX_CMD, .ENG_IDX_ARG0,
   .ENG_IDX_ARG1, .ENG_IDX_PURGE, .ENG_PEND_BASE, .ENG_PEND_ENTRIES, .ENG_CHUNKS,
   .ENG_CHUNK_MAXCUT, .ENG_IDX_LOOKUPS, .ENG_IDX_HITS, .ENG_IDX_INSERTS, .ENG_IDX_EVICTS,
   .ENG_IDX_POISON, .ENG_PEND_FULL, .ENG_PACK_IN, .ENG_PACK_OUT, .ENG_PACK_RAW,
   .ENG_PACK_VFAIL, .ENG_UNPACK_FAIL, .ENG_CUS_CTL, .ENG_CUS_STRIPES, .ENG_CUS_EPOCH]

/-- The ENG_ registers, part 1. -/
def Reg.listENG1 : List Reg :=
  [.ENG_CUS_STATUS, .ENG_CUS_MQ_BASE, .ENG_CUS_MQ_CTL, .ENG_CUS_MSTART, .ENG_CUS_MCFG,
   .ENG_POOL_BASE, .ENG_POOL_SIZE, .ENG_POOL_CTL, .ENG_DIR_BASE, .ENG_DIR_CTL,
   .ENG_DIR_CMD, .ENG_DIR_ARG, .ENG_DREQ_BASE, .ENG_DREQ_CTL, .ENG_DLOG_CTL,
   .ENG_DLOG_MARK, .ENG_SEAL_CTR, .ENG_SEAL_MISMATCH, .ENG_UNSEAL_TAGFAIL, .ENG_SPREAD_SYNFAIL,
   .ENG_GATHER_ERASURES, .ENG_DIGEST_MISMATCH, .ENG_QUORUM_SHORT, .ENG_DIR_MISS]

/-- The ENG_ registers. -/
def Reg.listENG : List Reg := Reg.listENG0 ++ Reg.listENG1

/-- The CSS_ registers. -/
def Reg.listCSS : List Reg :=
  [.CSS_CTL, .CSS_STATUS, .CSS_SCH_ASSIGN, .CSS_SCH_CMD, .CSS_SCH_QUERY,
   .CSS_CC_HIT, .CSS_CC_MISS, .CSS_CC_WB, .CSS_JNL_FREE, .CSS_REPOSTED,
   .CSS_IND, .CSS_GEN_DROPPED, .CSS_CTL_LOST, .CSS_RESET_ENDED, .CSS_ABANDONED,
   .CSS_OE_LOAD, .CSS_CALL_BASE, .CSS_CALL_CTL, .CSS_CALL_ANS, .CSS_CALL_STAT]

/-- The MPT_ registers. -/
def Reg.listMPT : List Reg :=
  [.MPT_PORT_CFG, .MPT_LANE_SEL, .MPT_LANE_CTL, .MPT_LANE_STATUS, .MPT_LANE_ADDR,
   .MPT_PANIC, .MPT_DISC_CTL, .MPT_DEV_SEL, .MPT_DEV_INFO, .MPT_DEV_NAME,
   .MPT_DEV_CAP, .MPT_DEV_CTL, .MPT_DEV_GRANT, .MPT_DEV_CMD, .MPT_RETRY,
   .MPT_GATE, .MPT_SCRUB_CTL, .MPT_SCRUB_STATUS, .MPT_EVQ_BASE, .MPT_EVQ_CTL,
   .MPT_INJ_ARM, .MPT_INJ_SLOT, .MPT_RETRIES, .MPT_TIMEOUTS, .MPT_TAPE_STARVE,
   .MPT_ZONE_FULL, .MPT_GATE_REFUSED, .MPT_LATE_IGNORED, .MPT_SCRUB_ERRORS, .MPT_EVQ_LOST,
   .MPT_LBA_FULL]

/-- The MEM_ registers. -/
def Reg.listMEM : List Reg :=
  [.MEM_CFG, .MEM_ORDER_NEXT, .MEM_STRIPE_STATUS, .MEM_STRIPE_CMD, .MEM_ECC_CTL,
   .MEM_TRAIN_CTL, .MEM_UE_ADDR, .MEM_SCRUB_CTL, .MEM_SCRUB_STATUS, .MEM_REF_STATUS,
   .MEM_CE, .MEM_UE, .MEM_POISON_READS, .MEM_AGED, .MEM_RETRAINS,
   .MEM_FE_SWITCHES, .MEM_PANIC_TIME]

/-- The JNL_ registers. -/
def Reg.listJNL : List Reg :=
  [.JNL_STATUS, .JNL_HEAD, .JNL_TAIL, .JNL_WIN_BASE, .JNL_SCRUB_CTL,
   .JNL_FLUSH, .JNL_REPAIRED, .JNL_LOST, .JNL_LOST_LIVE, .JNL_CARRIED,
   .JNL_REFUSED]

/-- The COH_ registers. -/
def Reg.listCOH : List Reg :=
  [.COH_CODE_BASE, .COH_CODE_LIMIT, .COH_IOGRANT_S, .COH_IOGRANT_U, .COH_ENC,
   .COH_CTL, .COH_STATUS, .COH_DEAD, .COH_NACKS, .COH_TOKENS,
   .COH_DIR_EVICTS, .COH_BACKINV, .COH_CROSSED, .COH_AMO_NEAR, .COH_AMO_FAR,
   .COH_POISON_FILLS, .COH_LOST_LINES, .COH_MAINT_ADDR, .COH_MAINT_LEN, .COH_MAINT_CMD,
   .COH_MAINT_PROG, .COH_L2LOCK, .COH_IOWIN_BASE, .COH_IOWIN_LIMIT]

/-- The POD_ registers. -/
def Reg.listPOD : List Reg :=
  [.POD_INT_EN, .POD_INT_PEND, .POD_IPI_SET, .POD_TIMECMP, .POD_MODE,
   .POD_CMD, .POD_SPLIT_ENTRY, .POD_RESTART_ENTRY, .POD_STATUS, .POD_RETRIES,
   .POD_WARM_RESTARTS, .POD_CFG, .POD_MAP, .POD_PHYS, .POD_SPARES,
   .POD_RETRY_CTL, .POD_SELFTEST, .POD_SPARINGS]

/-- The FLT_ registers. -/
def Reg.listFLT : List Reg :=
  [.FLT_CTL, .FLT_STATUS, .FLT_ACK, .FLT_SEEN, .FLT_CE_LEVEL,
   .FLT_PLEVEL, .FLT_FIRST_ADDR, .FLT_FIRST_MASTER, .FLT_FIRST_TYPE, .FLT_FIRST_TIME,
   .FLT_CNT_SEL, .FLT_CNT_CE, .FLT_CNT_UE, .FLT_CNT_ESC, .FLT_INJECT]

/-- The RNG_ registers. -/
def Reg.listRNG : List Reg :=
  [.RNG_CTL, .RNG_STATUS, .RNG_NODES, .RNG_SESSION, .RNG_CLAIM_SEL,
   .RNG_CLAIM, .RNG_PSTAT, .RNG_INJ_ARM, .RNG_INJ, .RNG_INJ_HITS,
   .RNG_RETX, .RNG_DUP, .RNG_MSG_FAILED, .RNG_CLAIM_DROP, .RNG_STALE,
   .RNG_TX_MSGS, .RNG_RX_MSGS, .RNG_CRC_DROP, .RNG_MALFORMED, .RNG_FEC_CORR,
   .RNG_FEC_UNCORR, .RNG_WRAPS]

/-- The HST_ registers. -/
def Reg.listHST : List Reg :=
  [.HST_ID, .HST_LINK, .HST_STATUS, .HST_DARK, .HST_NOFUNC,
   .HST_MBX_REFUSED, .HST_LINK_DOWNS, .HST_RD_BYTES, .HST_WR_BYTES]

/-- The VFM_ registers. -/
def Reg.listVFM : List Reg :=
  [.VFM_SEL, .VFM_CFG, .VFM_WIN, .VFM_CMD, .VFM_FSTAT,
   .VFM_CTL, .VFM_EVENT, .VFM_MBX_PEND, .VFM_MBX_IN, .VFM_MBX_OUT,
   .VFM_MBX_CTL, .VFM_DIRTY_LO, .VFM_DIRTY_HI, .VFM_DIRTY_MAP0, .VFM_DIRTY_MAP1,
   .VFM_DIRTY_CTL, .VFM_DIRTY_CMD]

/-- The FN_ registers. -/
def Reg.listFN : List Reg :=
  [.FN_MBX_CTL, .FN_CQ_BASE, .FN_CQ_CFG, .FN_CQ_TAILADDR, .FN_CQ_HEAD,
   .FN_STATE, .FN_WIN]

/-- The CLM_ registers. -/
def Reg.listCLM : List Reg :=
  [.CLM_PAIR, .CLM_CLAIM, .CLM_PEER_CLAIM, .CLM_STATUS, .CLM_CTL,
   .CLM_CMD, .CLM_SWITCHBACK, .CLM_EVENT, .CLM_TAKEOVERS, .CLM_MIRROR_MSGS,
   .CLM_HB_LOSSES, .CLM_HOLDS]

/-- The TMB_ registers. -/
def Reg.listTMB : List Reg :=
  [.TMB_REQ_BASE, .TMB_RSP_BASE, .TMB_REQ_CTL, .TMB_RSP_CTL, .TMB_DMA_BASE,
   .TMB_DMA_LIMIT, .TMB_STATUS, .TMB_KICK, .TMB_UNUSABLE]

/-- The LOG_ registers. -/
def Reg.listLOG : List Reg :=
  [.LOG_CTL, .LOG_STATUS, .LOG_SEQ, .LOG_EXPORTED, .LOG_CKPT_SEQ,
   .LOG_XQ_BASE, .LOG_XQ_CTL, .LOG_CKPT_EXPORTED, .LOG_DROPPED, .LOG_REFUSED]

/-- The FUS_ registers. -/
def Reg.listFUS : List Reg :=
  [.FUS_STATE, .FUS_ROLLBACK, .FUS_SERIAL, .FUS_SLOT_HASH, .FUS_MAJORITY]

/-- The DBG_ registers. -/
def Reg.listDBG : List Reg :=
  [.DBG_ID, .DBG_CTL, .DBG_STATUS, .DBG_CHAL]

/-- The MOD_ registers. -/
def Reg.listMOD : List Reg :=
  [.MOD_STATE, .MOD_CAUSE, .MOD_START_COUNT, .MOD_FAIL_HIST, .MOD_CMD,
   .MOD_CTL, .MOD_WAKE_TIME, .MOD_INSTALL_ADDR, .MOD_INSTALL_LEN, .MOD_STEP_TIME,
   .MOD_MCTP]

/-- The PWR_ registers. -/
def Reg.listPWR : List Reg :=
  [.PWR_STATE, .PWR_REQ, .PWR_RESULT, .PWR_FORCE, .PWR_HOLD,
   .PWR_CLKSTOP, .PWR_POD_MHZ, .PWR_DARK_DROPS, .PWR_INPUT, .PWR_TEMP,
   .PWR_AGE, .PWR_LIFE_CYCLES, .PWR_LIFE_HOURS, .PWR_REFRESH]

/-- The TIM_ registers. -/
def Reg.listTIM : List Reg :=
  [.TIM_NOW, .TIM_EPOCH]

end Sys2Proof.Machine
end

