-- ==== Sys2Proof/Machine/State.lean ====
section
/-!
DEFINITION. The state of the block as plain data: every named register field (in `regs`), every memory, FIFO, queue,
table and mode the spec gives the module, and the queue of waiting commands. INVENTORY.md lists each with its rule.
-/

namespace Sys2Proof.Machine

/-- A register field that differs from its reset value: the field, the number of its copy and its value. -/
structure RegCell where
  fld : Fld
  bank : Nat
  val : Nat
  deriving DecidableEq, Repr

/-- What leaves the module, in the order in which it leaves. The model's own record of its outputs. -/
inductive Out where
  /-- A DMA write to a function's host memory; `relaxed`: it carries Relaxed Ordering, which no other output does, and
  none carries No Snoop (R489). -/
  | hostWrite (fn addr : Nat) (relaxed : Bool) (data : List Byte)
  /-- A read-modify-write of a dirty map in the PF's host memory: the bits of `mask` are set in the byte at `addr`. -/
  | hostOr (addr : Nat) (mask : Byte)
  /-- A DMA read request to a function's host memory. -/
  | hostRead (fn addr len : Nat)
  /-- An MSI-X message: function, vector, address and data of its table entry. -/
  | msix (fn vec addr data : Nat)
  /-- A command sent to a media device: command number, device, lane of the path, task attribute (0 simple, 1 ordered,
  2 head of queue), CDB, data sent. -/
  | media (cmd dev lane attr : Nat) (cdb data : List Byte)
  /-- SMP PHY CONTROL sent to an expander: command number, lane, expander, phy, phy operation. -/
  | smp (cmd lane expander phy op : Nat)
  /-- The primitive NOTIFY (ENABLE SPINUP) on a lane. -/
  | notify (lane : Nat)
  /-- An ABORT TASK for a command. -/
  | abortTask (cmd : Nat)
  /-- A frame on a ring port (0 west, 1 east). -/
  | frame (port : Nat) (f : Frame)
  /-- Credit returned on a ring port for a class, in units of 256 bytes (R475). -/
  | credit (port cls units : Nat)
  /-- A frame with one bit flipped by an injection slot after its check was made. -/
  | badFrame (port : Nat) (f : Frame) (bit : Nat)
  /-- A heartbeat frame on the pair sideband. -/
  | heartbeat (data : List Byte)
  /-- A response on the SMBus. -/
  | mctp (data : List Byte)
  /-- A reply to a PCIe request: completion data, or none for an Unsupported Request. -/
  | completion (value : Option Nat)
  /-- An access of a core or of the debug port completes with the domain-off error (R14); its origin code. -/
  | domainOff (by_ : Nat)
  /-- A commanded position of the optical bypass: whether it is bypassed. -/
  | bypass (on : Bool)
  deriving DecidableEq, Repr

/-- One change-log entry (*Entry (64 bytes)*). -/
structure LogEntry where
  time : Nat
  epoch : Nat
  seq : Nat
  origin : Nat
  kind : Nat
  target : Nat
  old : Nat
  new : Nat
  chain : List Byte
  deriving DecidableEq, Repr

/-- A change-log checkpoint (R554): its 256-byte header and its signatures. -/
structure LogCkpt where
  first : Nat
  last : Nat
  header : List Byte
  signed : Bool
  deriving DecidableEq, Repr

/-- The change log (R551 to R554): kept in the MRAM change-log area. -/
structure LogState where
  /-- Entries by slot, `(seq − 1) mod 3_932_160`. -/
  entries : KV LogEntry := []
  /-- The chain field of the last entry. -/
  chain : List Byte := List.replicate 16 0
  /-- Events dropped since the last gap entry (R552). -/
  dropped : Nat := 0
  /-- Whether LOG_FULL held when last looked at (R552). -/
  full : Bool := false
  /-- The checkpoint being signed, if one is. -/
  closing : Option LogCkpt := none
  /-- Checkpoints by slot (R554). -/
  ckpts : KV LogCkpt := []
  /-- The header of the last checkpoint made. -/
  lastHeader : List Byte := []
  /-- TIM_NOW at the last checkpoint. -/
  lastCkptTime : Nat := 0
  /-- The next entry the export ring is to get (R553). -/
  exportNext : Nat := 1
  deriving DecidableEq, Repr

/-- What a fault's level still asks for: the event with the level it was given. -/
structure Reaction where
  ev : FaultIn
  level : Nat
  deriving DecidableEq, Repr

/-- The fault collector beside its registers. -/
structure FltState where
  /-- Reactions of levels 2 and 3 not yet carried out. -/
  todo : List Reaction := []
  /-- A firmware interrupt waits for COH_CTL.READY (R444). -/
  irqHeld : Bool := false
  /-- Regions under a level-2 restart (R448). -/
  restarting : List Region := []
  /-- The capture registers are to be reset at the next start (R458). -/
  clearAtStart : Bool := false
  /-- The event that began the core-domain restart that runs (R409). -/
  coreEvent : Option FaultIn := none
  deriving DecidableEq, Repr

/-- The status word of *Subchannel status word* (R121). -/
structure StatusWord where
  sch : Nat
  flags : Nat
  cond : Nat := 0
  token : Nat
  bits : Nat
  residual : Nat := 0
  addr : Nat
  reason : Nat := 0
  node : Nat
  deriving DecidableEq, Repr

/-- Bytes 24–59 of a journal record (R129). `block` beside a STAGE record is the parameter block the order named, which
R53 keeps in host memory for the re-drive. -/
inductive JBody where
  | start (addr tag cq : Nat) (remote : Bool) (attached : Nat)
  | stage (order : List Byte) (addr : Nat) (block : List Byte)
  | stripe (id ordinal cursor k m durable shift tapePos : Nat)
  | object (id ordinal stripes next conds cursor mapCrc : Nat)
  | final (w : StatusWord)
  | retire (cq head : Nat)
  | reset (old new : Nat)
  | abandon (ordinal reason first count : Nat)
  | haltreq (kind tag : Nat)
  deriving DecidableEq, Repr

/-- A journal record (R129): its header fields and its body. -/
structure JRec where
  sch : Nat
  token : Nat
  seq : Nat
  fn : Nat
  node : Nat
  body : JBody
  deriving DecidableEq, Repr

/-- One copy of a journal slot. -/
inductive JCopy where
  | empty
  | good (r : JRec)
  | bad
  deriving DecidableEq, Repr

/-- A journal slot with its copies A and B (R130). -/
structure JSlot where
  a : JCopy
  b : JCopy
  deriving DecidableEq, Repr

/-- What waits for a journal record to be durable (R130). -/
inductive JAct where
  /-- Post a reply on a queue of a function (R110, R117). -/
  | post (fn cq : Nat) (w : StatusWord) (sch cover : Nat)
  /-- A RETIRE record covers these words. -/
  | retired (words : List (Nat × Nat × Nat))
  /-- The START of a subchannel is accepted. -/
  | started (sch : Nat)
  /-- A stage order ends. -/
  | stageEnd (sch : Nat)
  /-- A STRIPE record is durable. -/
  | stripe (sch id : Nat)
  /-- An OBJECT record is durable. -/
  | object (sch : Nat)
  /-- A FINAL record is durable: post its word, or retire it at once (R147). -/
  | final (sch : Nat) (w : StatusWord) (posted : Bool)
  /-- A HALTREQ record is durable. -/
  | halted (sch kind : Nat)
  deriving DecidableEq, Repr

/-- A record that has been asked for and is not yet durable. -/
structure JPend where
  record : JRec
  acts : List JAct
  deriving DecidableEq, Repr

/-- The journal store (R296 to R308). DESIGN CHOICE, log entry 2. -/
structure JnlState where
  /-- Slots by number, the count mod 25_165_824. -/
  slots : KV JSlot := []
  /-- Records asked for, oldest first. -/
  pending : List JPend := []
  /-- The next record sequence (R129). -/
  nextSeq : Nat := 1
  /-- Other accepted MRAM writes not yet in both copies (R297). -/
  writes : Nat := 0
  /-- An episode without a free slot is running (R302). -/
  noSlot : Bool := false
  /-- Blocks written in one copy only, or bad in one copy: area and block number. -/
  oneCopy : List (MramArea × Nat) := []
  /-- Blocks outside the journal with no good copy (R306). -/
  lost : List (MramArea × Nat) := []
  /-- The firmware persistent area (R303). -/
  fwArea : List Host.Cell := []
  /-- Words that RETIRE records cover (R134), while records of their programs are live: 0 the START reply, 1 the HALT and
  2 the CLEAR reply, 3 the final; then subchannel and token. -/
  covered : List (Nat × Nat × Nat) := []
  /-- Stripes of the open object of a program that had no STRIPE record when a restart stopped it, by token (R118, R139). -/
  stopped : KV Nat := []
  /-- The reservation of the invocation counter cannot be read (R191). -/
  counterLost : Bool := false
  deriving DecidableEq, Repr

/-- A placement entry of SPREAD. -/
structure Place where
  dev : Nat
  kind : Nat
  start : Nat
  deriving DecidableEq, Repr

/-- The settings of SPREAD. -/
structure SpreadSet where
  k : Nat
  m : Nat
  shift : Nat
  places : List Place
  /-- The number of SPREAD orders of the program up to the one that made it. -/
  gen : Nat := 0
  deriving DecidableEq, Repr

/-- An object-map entry. -/
structure MapEntry where
  loc : Nat
  off : Nat
  len : Nat
  stored : Nat
  flags : Nat
  crc : Nat
  deriving DecidableEq, Repr

/-- The stage set of a program with the defaults of *Stage defaults* (R47). -/
structure StageSet where
  chunkMin : Nat := 65536
  chunkMax : Nat := 1048576
  chunkLog : Nat := 18
  probeRun : Bool := false
  probeDom : Nat := 0
  probeMode : Nat := 0
  packWin : Nat := 0
  packFmt : Nat := 0
  packLevel : Nat := 1
  digMask : Nat := 0
  digAddr : Nat := 0
  digDev : Bool := false
  sealKey : Option Nat := none
  spread : Option SpreadSet := none
  gather : Option (List MapEntry) := none
  unsealKey : Option Nat := none
  verify : Bool := true
  deriving DecidableEq, Repr

/-- A fetched order. -/
structure Fetched where
  addr : Nat
  raw : List Byte
  poisoned : Bool := false
  failed : Bool := false
  deriving DecidableEq, Repr

/-- A piece of source data of INGEST: where it lies, the selector and stage set it was ingested under, and whether the
open chunk and the part-filled stripe are closed after it. -/
structure SrcPiece where
  dev : Bool
  addr : Nat
  len : Nat
  sel : Nat
  stages : StageSet
  /-- The object offset of its first byte. -/
  off : Nat := 0
  cutAfter : Bool := false
  closeAfter : Bool := false
  deriving DecidableEq, Repr

/-- Source data in the CHUNK input FIFO, with the piece it came from. -/
structure FifoPiece where
  src : SrcPiece
  data : List Byte
  deriving DecidableEq, Repr

/-- How far a chunk has come on the write path. `cut`: waits for PROBE. `toPack`: waits for a PACK engine. `packing`: on
an engine. `packed`: waits its turn into SEAL. `sealed`: waits for SPREAD. `gone`: placed in a stripe. `hit`: a PROBE hit,
stored elsewhere. -/
inductive ChunkAt where
  | cut | toPack | packing (engine : Nat) | packed | sealed | gone | hit
  deriving DecidableEq, Repr

/-- A chunk of the open object. -/
structure Chunk where
  ordinal : Nat
  off : Nat
  data : List Byte
  len : Nat
  crc : Nat
  sel : Nat
  stages : StageSet
  digLen : Nat
  place : ChunkAt
  fp : List Byte := []
  mac24 : Nat := 0
  dom : Nat := 0
  loc : Nat := 0
  out : List Byte := []
  raw : Bool := false
  packed : Bool := false
  fmt : Nat := 0
  tries : Nat := 0
  lastUnit : Nat := 0
  sealed : Bool := false
  nonce : List Byte := []
  stripe : Nat := 0
  /-- Stored bytes, header left out, once SPREAD has placed it. -/
  stored : Nat := 0
  /-- The part-filled stripe closes after this chunk (R81). -/
  close : Bool := false
  deriving DecidableEq, Repr

/-- A pending index entry (R132, R166). -/
structure PendEnt where
  slot : Nat
  sch : Nat
  dom : Nat
  fp : List Byte
  mac24 : Nat
  loc : Nat
  obj : Nat
  /-- The ordinal of the chunk it was made for. -/
  ord : Nat := 0
  deriving DecidableEq, Repr

/-- A chunk as its stripe holds it: the fields of its CHUNK entry. -/
structure StripeChunk where
  loc : Nat
  off : Nat
  stored : Nat
  len : Nat
  flags : Nat
  fmt : Nat
  deriving DecidableEq, Repr

/-- A stripe from its first chunk until its buffer is free. -/
structure Stripe where
  id : Nat
  sch : Nat
  token : Nat
  fn : Nat
  obj : Nat
  cursor : Nat
  set : SpreadSet
  buf : Nat
  granules : Nat
  /-- The data area so far, while open. -/
  area : List Byte := []
  firstOff : Nat := 0
  firstDig : Nat := 0
  closed : Bool := false
  chunks : List StripeChunk := []
  hashes : List (List Byte) := []
  /-- Shards whose write has been issued, has ended, is durable. -/
  issued : List Nat := []
  ended : List Nat := []
  durable : List Nat := []
  /-- Shards written and waiting for a SYNCHRONIZE CACHE or WRITE FILEMARKS. -/
  unsynced : List Nat := []
  /-- LBA or logical object of each shard written. -/
  lbas : KV Nat := []
  tries : KV Nat := []
  recorded : Bool := false
  /-- Its STRIPE record has been asked for. -/
  asked : Bool := false
  /-- A syndrome of its codeword stream is not zero (R201); the DIGEST units disagree on one of its digests (R207). -/
  synBad : Bool := false
  digBad : Bool := false
  discarded : Bool := false
  deriving DecidableEq, Repr

/-- The phases of a running COMMIT (R84, R85, R212). `stopped`: halted, its object given up; the media commands issued for
it end (R115). -/
inductive CommitAt where
  | drain | quorum | dlog | custody | object | stopped
  deriving DecidableEq, Repr

/-- A join or single transfer of a data order (R65 to R73). -/
structure Xfer where
  /-- The order's own address and the whole join's counts. -/
  addr : Nat
  sel : Nat
  total : Nat := 0
  moved : Nat := 0
  short : Bool := false
  sink : Bool := false
  mark : Bool := false
  dev : Bool := false
  /-- Destination segments left, for EMIT and MEDIA data-in. -/
  segs : List (Nat × Nat) := []
  deriving DecidableEq, Repr

/-- A shard on its way through GATHER or VERIFY. -/
structure ShardGot where
  index : Nat
  good : Bool
  payload : List Byte
  deriving DecidableEq, Repr

/-- Where a restore stands on the chunk or stripe it works on. -/
inductive ReadAt where
  | start | wantLoc | wantStripe | reading | decoded | opened | done
  deriving DecidableEq, Repr

/-- A running EMIT or VERIFY (R87, R88, R204 to R206). -/
structure Restore where
  verify : Bool
  repair : Bool := false
  /-- Map entries left, in order; for VERIFY, the stripe ids left. -/
  todo : List MapEntry
  stripesDone : List Nat := []
  from_ : Nat
  upTo : Nat
  place : ReadAt := .start
  chunk : Option StripeChunk := none
  stripe : Nat := 0
  k : Nat := 0
  m : Nat := 0
  shift : Nat := 0
  shards : List (Nat × Nat × List Byte) := []
  /-- Shard reads issued, the results. -/
  asked : List Nat := []
  got : List ShardGot := []
  all : Bool := false
  /-- The chunk at hand has been decoded again under R183. -/
  again : Bool := false
  /-- Bad shards of the stripe that a REPAIR entry names already (R211). -/
  noted : Nat := 0
  buf : Option (Nat × Nat) := none
  plain : List Byte := []
  data : List Byte := []
  bad : Nat := 0
  usedParity : Bool := false
  digest : List Byte := []
  /-- The DIGEST units disagree on an object digest of this EMIT (R209). -/
  digBad : Bool := false
  deriving DecidableEq, Repr

/-- A call to firmware (R95 to R98). -/
structure Call where
  sch : Nat
  token : Nat
  addr : Nat
  a : Nat
  service : Nat
  timeoutMs : Nat
  len : Nat
  dev : Bool
  arg : Nat
  block : List Byte := []
  slot : Option Nat := none
  tag : Nat := 0
  since : Nat := 0
  deriving DecidableEq, Repr

/-- A segment of the data buffer of a MEDIA or ZONE order (R65). -/
structure MediaSeg where
  addr : Nat
  len : Nat
  dev : Bool
  sink : Bool
  deriving DecidableEq, Repr

/-- A running MEDIA or ZONE order: the device, where its command block lies and whether with DEV (none for ZONE), the
block, the buffer, the data-out collected, and the command once it is sent. -/
structure MediaRun where
  dev : Nat
  block : Option (Nat × Bool) := none
  bytes : List Byte := []
  dir : Nat := 0
  segs : List MediaSeg := []
  out : List Byte := []
  cmd : Option Nat := none
  deriving DecidableEq, Repr

/-- What the running order of a program waits for. -/
inductive RunAt where
  | ingest
  | stage
  | keyLoad (handle : Nat)
  | commit (at_ : CommitAt) (quorum map count obj : Nat) (dev : Bool)
  | restore (r : Restore)
  | media (m : MediaRun)
  | wait (kind deadline : Nat)
  | call
  /-- The word of the order waits to be posted; then the program goes on, or goes to an address. -/
  | word
  | wordTo (addr : Nat)
  deriving DecidableEq, Repr

/-- The order a program is running. -/
structure Run where
  addr : Nat
  raw : List Byte
  x : Xfer
  place : RunAt
  deriving DecidableEq, Repr

/-- A program from its START to its final status. -/
structure Prog where
  token : Nat
  start : Nat
  tag : Nat
  attached : Option Nat := none
  journaled : Bool := false
  engine : Option Nat := none
  /-- Where the next order lies, and where the next fetch reads. -/
  next : Nat
  fetchAt : Option Nat
  fetched : List Fetched := []
  /-- The join in progress: opcode and transfer so far. -/
  join : Option (Nat × Run) := none
  run : Option Run := none
  stages : StageSet := {}
  conds : Nat := 0
  transfers : Nat := 0
  /-- The open object: ordinal, length so far, chunks. -/
  obj : Nat := 0
  objLen : Nat := 0
  cursor : Nat := 0
  /-- The SPREAD order the cursor counts for. -/
  cursorGen : Nat := 0
  nextChunk : Nat := 0
  chunks : List Chunk := []
  /-- The CHUNK lane's stream: place, bytes of the turn it has had (R155), open chunk, hash. -/
  lane : Option Nat := none
  laneIn : Nat := 0
  open_ : List Byte := []
  openOff : Nat := 0
  hash : Nat := 0
  openSrc : Option SrcPiece := none
  /-- Source data still to be read, reads outstanding, data in the FIFO, and all pieces of the object so far. -/
  todo : List SrcPiece := []
  reads : List SrcPiece := []
  fifo : List FifoPiece := []
  pieces : List SrcPiece := []
  digest : List Byte := []
  /-- The open stripe and the stripes of the open object, in order. -/
  stripe : Option Nat := none
  stripes : List Nat := []
  waitBuf : Bool := false
  /-- Object offset at which the last INGEST began, when one has run for the open object. -/
  ingestFrom : Option Nat := none
  /-- Effects of domain destruction (R159): domains destroyed while in use. -/
  deadDoms : List Nat := []
  /-- Keys the program ran SEAL or UNSEAL with (R193). -/
  keys : List Nat := []
  /-- HALT or CLEAR is in force; for CLEAR the residual of R118. -/
  halt : Option Nat := none
  /-- CLEAR or an end waits for media commands and buffers. -/
  ending : Option StatusWord := none
  /-- Words of a re-driven program carry REPOST (R140). -/
  redriven : Bool := false
  /-- On re-drive an attached node must be asked first (R143). -/
  askFirst : Bool := false
  /-- What a program run for another node has received of the blocks the order at its front needs (R101). -/
  heldData : List HostRead := []
  /-- Lengths of the blocks such a program has asked for, and what it has got of the first of them, in READs of at most
  9152 bytes (R101). -/
  blockAsks : List Nat := []
  blockGot : List HostRead := []
  /-- Kind of the WAIT that the executing node has reported for a remote program (R112). -/
  farWait : Option Nat := none
  deriving DecidableEq, Repr

/-- The subchannel states of *Subchannel states*. -/
inductive SubState where
  | unassigned | idle | startPending | active | waiting | waitCore | haltPending | clearPending | statusPending
  | redrive | resetting
  deriving DecidableEq, Repr

/-- A subchannel that has been handed to a function (R104, R105). -/
structure Sub where
  fn : Nat
  rel : Nat
  cq : Nat
  remote : Bool
  node : Nat
  st : SubState := .idle
  seq : Nat := 0
  prog : Option Prog := none
  deriving DecidableEq, Repr

/-- What a word waiting for room on a completion queue is. -/
inductive PostKind where
  | reply | note | final | notice
  deriving DecidableEq, Repr

/-- A status word waiting to be posted. -/
structure Post where
  w : StatusWord
  sch : Nat
  kind : PostKind
  /-- Which word of its program's records it is, coded as in `JnlState.covered`. -/
  cover : Option Nat := none
  deriving DecidableEq, Repr

/-- An entry of the context cache (R125). DESIGN CHOICE, log entry 46. -/
structure CtxEnt where
  sch : Nat
  ref : Bool
  age : Nat
  dirty : Bool
  filling : Bool
  /-- The access that missed has not been served yet (R126). -/
  missed : Bool := false
  deriving DecidableEq, Repr

/-- The channel subsystem beside its registers. -/
structure CssState where
  subs : KV Sub := []
  /-- Control FIFOs by function, oldest control word first (R108). -/
  ctl : KV (List (List Byte)) := []
  /-- Words waiting by function × 32 + queue. -/
  posts : KV (List Post) := []
  /-- Words posted since the last interrupt of a queue, and the time of the first. -/
  coal : KV (Nat × Nat) := []
  /-- What stands in each queue from its head to its tail: the code, subchannel and token of a word of journal records. -/
  sent : KV (List (Option (Nat × Nat × Nat))) := []
  /-- Queues with a head advance no RETIRE record covers, with the words it passed. -/
  retire : KV (List (Nat × Nat × Nat)) := []
  ctx : List CtxEnt := []
  /-- Calls waiting for a slot or an answer, in order of arrival. -/
  calls : List Call := []
  slotTags : KV Nat := []
  /-- Programs that wait for a CHUNK stream place, oldest first (R156). -/
  laneWait : List Nat := []
  /-- By lane, the program whose turn of 64 KiB is under way (R155). -/
  laneTurn : KV Nat := []
  /-- Stripe-buffer requests: subchannel, granules, whether for restore (R44). -/
  bufWait : List (Nat × Nat × Bool) := []
  /-- Buffers in use: first granule, granules, owner as `subchannel × 2^64 + token`. -/
  bufs : List (Nat × Nat × Nat) := []
  stripes : KV Stripe := []
  nextStripe : Nat := 1
  /-- The function resets in progress: whether queues are cleared. -/
  resets : KV Bool := []
  /-- Actions of durable records that wait for the partner's acknowledgement of a mirror message (R521): its sequence
  and the actions. -/
  mirrorWait : List (Nat × List JAct) := []
  deriving DecidableEq, Repr

/-- A dedup domain that is live (R158). -/
structure Dom where
  owner : Nat
  own : Bool
  pfGrant : Bool
  vfGrant : Nat
  key : List Byte
  deriving DecidableEq, Repr

/-- A purge slot (R170). -/
structure Purge where
  lo : Nat
  hi : Nat
  scanned : Bool
  /-- Subchannels and tokens of the programs on order engines at registration that have no final yet. -/
  waits : List (Nat × Nat)
  deriving DecidableEq, Repr

/-- A directory request with no answer yet (R217). -/
structure DirReq where
  kind : Nat
  id : Nat
  posted : Bool
  deriving DecidableEq, Repr

/-- A descriptor-log entry with the object it belongs to. -/
structure DlogEnt where
  data : List Byte
  token : Nat
  obj : Nat
  settled : Bool
  deriving DecidableEq, Repr

/-- A stripe in a custody epoch: its list entry and its shard hashes. -/
structure CusStripe where
  id : Nat
  k : Nat
  m : Nat
  repair : Bool
  hashes : List (List Byte)
  deriving DecidableEq, Repr

/-- A closed epoch being signed and written (R223 to R228). -/
structure CusEpoch where
  number : Nat
  header : List Byte
  stripes : List CusStripe
  root : List Byte
  signed : Bool := false
  sigs : List Byte := []
  /-- Regions that hold the manifest durably (R228). -/
  results : KV Bool := []
  deriving DecidableEq, Repr

/-- The engines beside their registers. DESIGN CHOICE, log entry 2. -/
structure EngState where
  doms : KV Dom := []
  /-- The domain command Tuber works on: whether CREATE (else DESTROY), the domain, and for CREATE what it is to be. -/
  domCmd : Option (Bool × Nat × Dom) := none
  pend : List PendEnt := []
  purges : KV Purge := []
  /-- IDX_CLEAR or IDX_LOAD running: list address and count for LOAD. -/
  idxCmd : Option (Nat × Nat) := none
  nextLoc : Nat := 1
  locLimit : Nat := 1
  invoke : Nat := 1
  invokeLimit : Nat := 1
  /-- Sequence of the mirror message that carries the last reservation, while it is not acknowledged (R521). -/
  locHeld : Option Nat := none
  invokeHeld : Option Nat := none
  /-- SEAL key slots, least recently used first (R192). -/
  slots : List Nat := []
  /-- Domains whose key the PROBE lanes do not hold: it was zeroised and not loaded since (R159, R550, R555). -/
  probeOut : List Nat := []
  /-- Times of recent verify mismatches by PACK engine (R442). -/
  packBad : KV (List Nat) := []
  dlog : KV DlogEnt := []
  dirReqs : List DirReq := []
  /-- REPAIR entries that wait for room in the descriptor log: stripe id and mask (R213). -/
  repairWait : List (Nat × Nat) := []
  cus : List CusStripe := []
  cusOpened : Nat := 0
  cusClosed : Option CusEpoch := none
  cusPrev : List Byte := List.replicate 48 0
  cusLastObj : Nat := 0
  notices : List (List Byte) := []
  /-- Ring position in each manifest region, in blocks. -/
  mpos : KV Nat := []
  /-- The open energy window: start time; the calibration: time, temperature. -/
  epbStart : Nat := 0
  epbCalAt : Option Nat := none
  epbCalTemp : Nat := 0
  deriving DecidableEq, Repr

/-- What a media command is for. -/
inductive CmdFor where
  | shardWrite (stripe shard : Nat)
  | shardRead (sch token stripe shard : Nat)
  | order (sch token : Nat)
  | sync (covers : List (Nat × Nat))
  | filemark (covers : List (Nat × Nat))
  /-- A verify of `n` blocks at `lba`, with `left` blocks of the segment after it. -/
  | scrub (lba n left : Nat)
  | reserve (kind : PrKind)
  /-- The write of a manifest to a region, and the SYNCHRONIZE CACHE or FLUSH CACHE EXT that makes it durable. -/
  | manifest (region : Nat)
  | manifestSync (region : Nat)
  /-- READ POSITION or REPORT ZONES before the first shard a program places on a tape or into a zone. -/
  | probe (stripe shard : Nat)
  /-- REPORT ZONES before the next segment of a zoned disk's scrub. -/
  | scrubProbe
  deriving DecidableEq, Repr

/-- A command outstanding on a device. -/
structure MediaCmd where
  dev : Nat
  lane : Nat
  use : CmdFor
  mutating : Bool
  issuedAt : Nat
  dropped : Bool := false
  /-- Timeout in ms. -/
  tmo : Nat := 10000
  /-- Bit of the data-in transfer that an injection slot flips (R268). -/
  flip : Option Nat := none
  /-- Injection slot that holds the completion back (R268). -/
  hold : Option Nat := none
  tries : Nat := 0
  /-- A shard or manifest write sent with FUA (R228, R240). -/
  fua : Bool := false
  deriving DecidableEq, Repr

/-- A reservation command or manifest write that waits until its device takes one more command (R242). -/
structure WaitCmd where
  dev : Nat
  use : CmdFor
  mutating : Bool
  dataIn : Bool
  tries : Nat
  cdb : List Byte
  data : List Byte
  deriving DecidableEq, Repr

/-- A zone bound as a placement target (R90, R254 to R256). -/
structure ZoneBind where
  sch : Nat
  token : Nat
  start : Nat
  read : Bool := false
  pointer : Nat := 0
  limit : Nat := 0
  failed : Bool := false
  deriving DecidableEq, Repr

/-- One zone of a host-managed drive as REPORT ZONES gives it: writable in condition EMPTY, OPENED or CLOSED; `top` is where what
has been written of it ends. -/
structure Zone where
  start : Nat
  capacity : Nat
  pointer : Nat
  top : Nat
  sequential : Bool
  writable : Bool
  deriving DecidableEq, Repr

/-- A numbered device beside its registers (R236): the ports its paths go through (below 16 a wide port by its group, else 16 + the
lane of a narrow link), and the expander phy that attaches it. -/
structure Dev where
  ports : List Nat := []
  expander : Nat := 0
  phy : Nat := 0
  path : Nat := 0
  tapeReady : Bool := false
  tapeMinRecord : Nat := 0
  tapeMaxRecord : Nat := 0
  tapeGranularity : Nat := 0
  tapePos : Option Nat := none
  /-- Tokens of programs whose tape writes failed here (R251). -/
  tapeFailed : List Nat := []
  /-- Tokens of programs that have placed on the tape and had its position read (R250). -/
  tapeRead : List Nat := []
  /-- Tokens of programs that placed past the last block (R241). -/
  pastEnd : List Nat := []
  /-- The zones bound here, one a program at most. -/
  binds : List ZoneBind := []
  scrubPos : Nat := 0
  scrubbing : Bool := false
  /-- The key read as the reservation's holder. -/
  holder : Option Nat := none
  deriving DecidableEq, Repr

/-- A data-out transfer on a lane: its command (none while it is fetched ahead of one), its device, the shard it carries, the bytes of
it the lane's FIFO holds and those still to be fetched (R246, R250). -/
structure LaneXfer where
  cmd : Option Nat
  dev : Nat
  shard : Option (Nat × Nat)
  held : Nat
  left : Nat
  deriving DecidableEq, Repr

/-- The media ports beside their registers. -/
structure MptState where
  devs : KV Dev := []
  cmds : KV MediaCmd := []
  nextCmd : Nat := 0
  /-- Commands of the device's own that its devices cannot take yet, in order (R242). -/
  waiting : List WaitCmd := []
  /-- Events waiting for the event ring (R267). -/
  events : List (List Byte) := []
  /-- The data-out transfers of each lane, in order (R246). -/
  lanes : KV (List LaneXfer) := []
  /-- The groups that are four narrow links since the last discovery (R231). -/
  narrow : Nat := 0
  /-- Commands counted by each injection slot, and completions it holds back. -/
  injSeen : KV Nat := []
  held : KV (List (Nat × MediaStatus × List Byte)) := []
  deriving DecidableEq, Repr

/-- A request that waits in the queues of a front end: its requester, its line, for a write the offset in the line and the
bytes, the wrong symbols a read will meet, when it entered, and whether it was promoted by age (R275, R287, R289). -/
structure MemReq where
  client : MemClient
  line : Nat
  write : Option (Nat × List Byte) := none
  errs : List SymbolError := []
  at_ : Nat := 0
  aged : Bool := false
  deriving DecidableEq, Repr

/-- The DRAM and its controller beside their registers. -/
structure MemState where
  /-- Bytes that differ from 0 (R280), by DRAM offset. -/
  dram : List Host.Cell := []
  /-- Poisoned lines, by line number D[37:7], rising. -/
  poison : List Nat := []
  /-- Wrong symbols held by lines. -/
  errs : KV (List SymbolError) := []
  /-- Corrections counted against each stripe in this patrol pass (R282). -/
  passCorr : KV Nat := []
  /-- Failed retrainings in a row, by stripe × 4 + channel. -/
  badTrain : KV Nat := []
  /-- Channels retraining, as stripe × 4 + channel (R293). -/
  retrain : List Nat := []
  /-- Row state by bank: open row, the last four accesses' row misses (R288), keyed by group × 32 + bank. -/
  banks : KV (Option Nat × Nat × List Bool) := []
  /-- Write queues by line group: lines waiting (R287, R290). -/
  writeQ : KV (List Nat) := []
  /-- Requests that wait in the front ends, in order of arrival (R275, R287). -/
  reqs : List MemReq := []
  /-- Line groups in a batch of writes (R290). -/
  batch : List Nat := []
  /-- A front-end switch is under way (R274). -/
  switching : Bool := false
  /-- Refresh intervals postponed by line group (R291). -/
  postponed : KV Nat := []
  /-- Stripe marks to be cleared at the next start that does not retain DRAM (R283). -/
  clearNext : List Nat := []
  deriving DecidableEq, Repr

/-- A function (R496, R502, R505 to R510). -/
structure Fn where
  created : Bool := false
  paused : Bool := false
  ncq : Nat := 1
  winUnits : Nat := 0
  winBase : Nat := 0
  d3 : Bool := false
  deriving DecidableEq, Repr

/-- An MSI-X table entry. -/
structure Msix where
  addr : Nat := 0
  data : Nat := 0
  masked : Bool := true
  pending : Bool := false
  deriving DecidableEq, Repr

/-- A DMA write that waits while its function is in D3hot (R501). `owner`: the program it is for, as its stripe buffers
name it; 0 for none. -/
structure HeldWrite where
  fn : Nat
  addr : Nat
  bulk : Bool
  data : List Byte
  owner : Nat := 0
  deriving DecidableEq, Repr

/-- The host port and function manager beside their registers. -/
structure HstState where
  fns : KV Fn := []
  /-- MSI-X entries by function × 64 + vector. -/
  msix : KV Msix := []
  msixOn : List Nat := []
  msixMask : List Nat := []
  /-- Configuration registers written by the host, by function × 4096 + offset. -/
  config : KV Nat := []
  vfEnable : Bool := false
  vfMse : Bool := false
  /-- The latched high half of a 64-bit register: requester code, register address, value (R11). -/
  latch : Option (Nat × Nat × Nat) := none
  /-- The function a DESTROY runs on (R504, R509). -/
  destroying : Option Nat := none
  /-- VFs whose running reset an FLR asked for or joined. -/
  flrs : List Nat := []
  /-- DMA writes held while a function is in D3hot (R501). -/
  heldWrites : List HeldWrite := []
  /-- The function a VFM_CMD RESET runs on. -/
  vfmReset : Option Nat := none
  /-- The mailbox buffers of the VF pages (R506): outgoing and incoming, by VF. -/
  vfOut : KV (List Byte) := []
  vfIn : KV (List Byte) := []
  /-- Whether the link runs with common reference clock; SRIS otherwise (R584). -/
  commonClk : Bool := false
  deriving DecidableEq, Repr

/-- A TLB entry: its words and the order in which it was written (R382, R383). -/
structure TlbEnt where
  hi : Word
  lo : Word
  stamp : Nat
  deriving DecidableEq, Repr

/-- A retired store that has not reached the L1D (R379): physical address and bytes. -/
structure BufStore where
  addr : Nat
  data : List Byte
  /-- The store is a release (R374). -/
  rel : Bool := false
  /-- While cr.retire is this, the next instruction may make it the low half of a pair (R371). -/
  half : Option Word := none
  deriving DecidableEq, Repr

/-- The high half of a 16-byte block as it stood when its low half was loaded (R371): its physical address, the O bit, the value of
cr.retire at which the next instruction takes it, and its 8 bytes as a number. -/
structure LoadHalf where
  pa : Nat
  aq : Bool
  retire : Word
  value : Nat
  deriving DecidableEq, Repr

/-- What a core does: nothing (no power, not started), runs, stalls in WFI, is parked (R435) or frozen. -/
inductive CoreRun where
  | off | running | wfi | parked | frozen
  deriving DecidableEq, Repr

/-- A code region as fetch sees it: number, base, limit, MONLY. -/
structure CodeRegion where
  base : Nat
  limit : Nat
  monly : Bool
  deriving DecidableEq, Repr

/-- One logical Octip core: the register files, both banks of the control registers, the TLBs and the store buffer. The
`seen` fields are what fetch uses until the next ISYNC (R323, R325, R386). DESIGN CHOICE, log entry 2. -/
structure OctCore where
  run : CoreRun := .off
  pc : Word := 0
  g : List Word := List.replicate 32 0
  f : List Word := List.replicate 32 0
  p : List Bool := [true, false, false, false, false, false, false, false]
  status : Word := 2
  estatusS : Word := 0
  estatusM : Word := 0
  epcS : Word := 0
  epcM : Word := 0
  causeS : Word := 0
  causeM : Word := 0
  badS : Word := 0
  badM : Word := 0
  vbase : Word := 0
  asid : Word := 0
  tlbhi : Word := 0
  tlblo : Word := 0
  astat : Word := 0
  fctl : Word := 0
  retire : Word := 0
  itlb : KV TlbEnt := []
  dtlb : KV TlbEnt := []
  stamp : Nat := 0
  seenItlb : KV TlbEnt := []
  seenAsid : Word := 0
  seenCode : List CodeRegion := []
  buf : List BufStore := []
  /-- What a load of the high half of a pair returns (R371). -/
  half : Option LoadHalf := none
  /-- The instruction that waits for a line, if one does. -/
  wait : Option Instr := none
  /-- Interrupt sources captured by the agreement unit with their boundaries (R421). -/
  bounds : KV Nat := []
  /-- Source 1 has been set since POD_TIMECMP was written. -/
  timed : Bool := false
  deriving DecidableEq, Repr

/-- A pod beside its registers. -/
structure PodSt where
  /-- Retries in a row of the mismatch being retried: 0 none, 1, 2 (R424). -/
  retry : Nat := 0
  /-- Times of the successful retries of the last second (R426). -/
  recent : List Nat := []
  /-- Times of the warm restarts begun by the collector in the last hour (R432). -/
  warm : List Nat := []
  /-- Sparing under way: the physical pod taken out and the cause recorded. -/
  sparing : Option (Nat × Nat) := none
  deriving DecidableEq, Repr

/-- Stable states of a line in an L2. -/
inductive LineSt where
  | shared | exclusive | modified
  deriving DecidableEq, Repr

/-- A line of 128 bytes in a pod's L2; the L1s are folded into it. -/
structure L2Line where
  st : LineSt
  data : List Byte
  poison : Bool := false
  locked : Bool := false
  evicting : Bool := false
  stamp : Nat := 0
  deriving DecidableEq, Repr

/-- A line in an L3 slice. -/
structure L3Line where
  data : List Byte
  dirty : Bool
  poison : Bool := false
  stamp : Nat := 0
  deriving DecidableEq, Repr

/-- A request a home is serving: the line is in a transient state (R397). -/
structure DirTrans where
  pod : Nat
  excl : Bool
  /-- Pods whose snoop answer is missing. -/
  left : List Nat
  /-- The data is on its way to the requester. -/
  filling : Bool := false
  noInstall : Bool := false
  token : Bool := false
  /-- A maintenance operation waits for the acknowledgement (R401). -/
  maint : Bool := false
  deriving DecidableEq, Repr

/-- A directory entry (R397). -/
structure DirEnt where
  owner : Option Nat := none
  sharers : Nat := 0
  trans : Option DirTrans := none
  deriving DecidableEq, Repr

/-- A request answered NACK: how often, and whether it waits in the token queue (R398). -/
structure CohReq where
  pod : Nat
  line : Nat
  excl : Bool
  nacks : Nat
  queued : Bool := false
  deriving DecidableEq, Repr

/-- A snoop between home and pod. `ans`: the answer is on its way back; `evicting`: it says EVICTING (R400). -/
structure Snoop where
  pod : Nat
  line : Nat
  inval : Bool
  ans : Bool := false
  evicting : Bool := false
  deriving DecidableEq, Repr

/-- The caches and directories of the coherent domain beside the COH registers. DESIGN CHOICE, log entry 39. -/
structure CohState where
  /-- L2 lines by pod × 2^31 + line. -/
  l2 : KV L2Line := []
  l3 : KV L3Line := []
  dir : KV DirEnt := []
  reqs : List CohReq := []
  snoops : List Snoop := []
  /-- PUT-ACKs on their way, as pod × 2^31 + line. -/
  acks : List Nat := []
  /-- The last writer of a line for the AMO predictor (R405). -/
  writer : KV Nat := []
  /-- Two-bit counters by (pod × 2 + core) × 256 + index (R405). -/
  pred : KV Nat := []
  stamp : Nat := 0
  /-- The core domain is being restarted (R409). -/
  restarting : Bool := false
  deriving DecidableEq, Repr

/-- A reliable message that is not acknowledged (R476 to R478). -/
structure TxMsg where
  frame : Frame
  gen : Nat
  tries : Nat
  /-- The program the message belongs to, as its token, for REMOTE. -/
  token : Nat
  deriving DecidableEq, Repr

/-- A flow as its sender keeps it. -/
structure TxFlow where
  next : Nat := 1
  unacked : List TxMsg := []
  waiting : List TxMsg := []
  deriving DecidableEq, Repr

/-- A flow as its receiver keeps it: the cumulative sequence and the later messages held (R479). -/
structure RxFlow where
  cum : Nat := 0
  held : KV Frame := []
  deriving DecidableEq, Repr

/-- A node heard on the ring (R471). -/
structure Heard where
  mode : Nat
  serial : Nat
  pairId : Nat
  at_ : Nat
  deriving DecidableEq, Repr

/-- The ring ports beside their registers. -/
structure RingState where
  /-- Frames waiting to be sent, by port: transit, each with the port it came in by, and local. -/
  transit : KV (List (Frame × Nat)) := []
  own : KV (List Frame) := []
  /-- Transit frames sent since the last local one, by port (R475). -/
  since : KV Nat := []
  /-- Credit units by port × 4 + class (R475). -/
  credit : KV Nat := []
  tx : KV TxFlow := []
  rx : KV RxFlow := []
  /-- Highest session heard, by source (R480). -/
  sessions : KV Nat := []
  heard : KV Heard := []
  /-- Frames held by the injection slots, and frames each has looked at. -/
  injHeld : KV (List Frame) := []
  /-- The forwarded frames of the last 2 MiB in each port's egress SRAM, oldest first: flow, sequence, bytes (R31). -/
  egress : KV (List (Nat × Nat × Nat)) := []
  injSeen : KV Nat := []
  /-- REMOTE messages held in DORMANT (R484). -/
  dormantHeld : List Frame := []
  /-- Credit units of class REMOTE withheld while the hold buffer is full, by port (R484). -/
  owed : KV Nat := []
  /-- The ports whose span is lost and not yet wrapped or relocked, with the time at which the wrap is in force (R469, R470). -/
  lost : KV Nat := []
  /-- Whether the own broadcast last came back turned: a wrap is in force elsewhere on the ring (*Ring states*). -/
  farWrap : Bool := false
  /-- Set by REMOVE or LEAVE-BYPASS: bypassed until the next start (R482). -/
  removed : Bool := false
  /-- The commanded position of the bypass and whether a leave runs (R465). -/
  bypass : Bool := true
  leaving : Bool := false
  announced : Bool := false
  deriving DecidableEq, Repr

/-- The claim and pair block beside its registers. -/
structure PairState where
  /-- Arrival time of the last valid heartbeat; none when none has come since the start. -/
  hbAt : Option Nat := none
  /-- Mode code and flag byte of the last valid heartbeat. -/
  hbMode : Nat := 0
  hbFlags : Nat := 0
  lostAt : Option Nat := none
  holdAt : Option Nat := none
  /-- Messages of the mirror stream sent and not acknowledged: sequences of the PAIR flow. -/
  unacked : List Nat := []
  /-- Flags the next heartbeat frame carries. -/
  sayDetach : Bool := false
  sayDetachAck : Bool := false
  sayResync : Bool := false
  sayYield : Bool := false
  /-- A takeover is under way. -/
  taking : Bool := false
  /-- Origin of the command that began the takeover; 0 when the standby began it itself. -/
  takeBy : Nat := 0
  /-- A switch-back under way (R529). -/
  yielding : Bool := false
  /-- Subchannel contexts by subchannel, as last sent to the standby or as the standby holds them (*Mirror contents*). -/
  contexts : KV (List Byte) := []
  deriving DecidableEq, Repr

/-- A key handle (R544). -/
structure Handle where
  fn : Nat
  kek : Nat
  st : Nat
  seq : Nat
  blob : List Byte
  deriving DecidableEq, Repr

/-- A request of the mailbox ring (*Request*). -/
structure TubReq where
  code : Nat
  tag : Nat
  buf : Nat
  len : Nat
  args : List Byte
  deriving DecidableEq, Repr

/-- An image as it runs: what its envelope said and its measurement. -/
structure RunImage where
  svn : Nat
  version : Nat
  slot : Nat
  measurement : List Byte
  deriving DecidableEq, Repr

/-- Tuber beside its registers. DESIGN CHOICE, log entry 2. -/
structure TubState where
  fw : Option RunImage := none
  main : Option RunImage := none
  bootBank : Nat := 0
  /-- The NAND's images as installed: Tuber firmware and main image, by bank × 2 + (0 or 1); the others are as delivered. -/
  banks : KV (List Byte) := []
  /-- The key hashes of the ROM's key sets, primary and secondary (R533, R536). -/
  romKeys : List (List Byte) := [Config.romKeyHash 0, Config.romKeyHash 1]
  handles : KV Handle := []
  nextHandle : Nat := 1
  /-- KEK slots, wrapped for MRAM. -/
  keks : KV (List Byte) := []
  /-- cdi_t of the module's start, and the tag of the alias keys. -/
  cdi : List Byte := []
  aliasTag : List Byte := []
  dbg : Bool := false
  kickAt : Nat := 0
  challenge : List Byte := []
  challengeAt : Nat := 0
  /-- DEBUG_KILL has been blown since the module started: it acts from the next start on (R556). -/
  killFresh : Bool := false
  /-- Tuber's own Octip-S core, while PD1 is on (R340). -/
  core : Option OctCore := none
  /-- Tuber's SRAM: bytes that differ from 0, by address (*Tuber resources*). -/
  sram : List Host.Cell := []
  deriving DecidableEq, Repr

/-- A power request that is deferred (R549). -/
structure PwrWait where
  domain : Nat
  op : Nat
  /-- When the deferral began. -/
  since : Nat := 0
  deriving DecidableEq, Repr

/-- The mode and power controllers beside their registers. -/
structure ModState where
  /-- 12 V lost or RESET_N held: the module is in OFF. -/
  off : Bool := false
  resetHeld : Bool := false
  supplyLost : Bool := false
  /-- TIM_NOW as last written to the MRAM (R568). -/
  savedNow : Nat := 0
  /-- A loss of 12 V during FIDDLEHEAD waits to be counted (R572). -/
  lossInStart : Bool := false
  /-- SPORE is ready; the 1 s of a failed start is to pass first. -/
  sporeReady : Bool := false
  retryWait : Bool := false
  /-- FIDDLEHEAD entry time. -/
  startAt : Nat := 0
  /-- When the mode was entered, and since when the module has been in FROND or STANDBY without a break (R573). -/
  modeAt : Nat := 0
  upAt : Nat := 0
  /-- The SMBus address in force, taken from MOD_MCTP.ADDR at SPORE (R581). -/
  smbAddr : Nat := 0x64
  /-- Role found by the ring-lock step: 1 active, 2 standby. -/
  role : Option Nat := none
  /-- VFs that a waiting MAINTENANCE paused, and the origin of the command that waits, with its time. -/
  drainPaused : List Nat := []
  cmdBy : Nat := 0
  cmdAt : Nat := 0
  /-- A wake from DORMANT runs, with its cause and origin. -/
  waking : Bool := false
  wakeCause : Nat := 0
  wakeBy : Nat := 0
  /-- The power request that is deferred. -/
  pwr : Option PwrWait := none
  /-- Domains whose power-up or power-down sequence runs: domain, op. -/
  pwrRun : List (Nat × Nat) := []
  /-- Age steps and pod frequency limits by domain (R596, R597). -/
  age : KV Nat := []
  fmax : KV Nat := []
  deriving DecidableEq, Repr

/-- The state of the module. -/
structure State where
  /-- Commands waiting, the front first. -/
  pending : List Instr := []
  /-- Register fields that differ from reset, sorted by field and copy. -/
  regs : List RegCell := []
  /-- The model's own counter from which free values are drawn. -/
  free : Nat := 0
  out : List Out := []
  log : LogState := {}
  flt : FltState := {}
  jnl : JnlState := {}
  css : CssState := {}
  eng : EngState := {}
  mpt : MptState := {}
  mem : MemState := {}
  hst : HstState := {}
  coh : CohState := {}
  cores : KV OctCore := []
  pods : KV PodSt := []
  ring : RingState := {}
  pair : PairState := {}
  tub : TubState := {}
  mod_ : ModState := {}
  deriving DecidableEq, Repr

/-- Why the block stops. -/
inductive Fault where
  /-- Raised by MEM_READ and MEM_WRITE for an address outside the DRAM (R271): no such line exists. Safe: no claim about
  such an access can be proved. -/
  | noSuchLine (addr : Nat)
  deriving DecidableEq, Repr

/-- Why a command has no meaning. -/
inductive Refusal where
  /-- Answered by an arm of `exec` that has no meaning yet. Safe: nothing can be proved of the command. -/
  | notModelled (mnemonic : String)
  deriving DecidableEq, Repr

/-- The module right after reset: 12 V has come into regulation for the first time and SPORE is entered (R570). Every
register field is at its reset value, so none is listed. Log entries 1 and 2. DESIGN CHOICE, log entry 1. DESIGN CHOICE, log entry 2. -/
def State.reset : State := {}

end Sys2Proof.Machine
end

