-- ==== Sys2Proof/Machine/RegAccess.lean ====
section
/-!
DEFINITION. Reading and writing register fields, and finding the register an I/O address names (R8, R9, R11, R12).
-/

namespace Sys2Proof.Machine

/-- The width of a field in bits. -/
def Fld.width (f : Fld) : Nat := f.info.hi + 1 - f.info.lo

/-- The reset value of copy `i` of a field: fused words differ from copy to copy; words 6 and 7 of a slot hash do not exist. -/
def Fld.resetAt (f : Fld) (i : Nat) : Nat :=
  match f with
  | .FUS_SERIAL_ASCII => Config.fusedBits (16 + i) 64
  | .FUS_SLOT_HASH_HASH => if 6 ≤ i % 8 then 0 else Config.fusedBits (32 + i) 64
  | f => f.info.reset

/-- The order in which cells are listed: by field, then by copy. -/
def cellLt (f : Fld) (i : Nat) (c : RegCell) : Bool :=
  decide (f.ctorIdx < c.fld.ctorIdx) || (decide (f.ctorIdx = c.fld.ctorIdx) && decide (i < c.bank))

/-- Whether a cell is copy `i` of field `f`. -/
def cellIs (f : Fld) (i : Nat) (c : RegCell) : Bool := decide (c.fld = f) && decide (c.bank = i)

/-- The value listed for a field. -/
def cellsGet : List RegCell → Fld → Nat → Option Nat
  | [], _, _ => none
  | c :: t, f, i => if cellIs f i c then some c.val else cellsGet t f i

/-- The cells without one. -/
def cellsDel (l : List RegCell) (f : Fld) (i : Nat) : List RegCell := l.filter (fun c => !cellIs f i c)

/-- The cells with one added in its place; none of it is listed. -/
def cellsIns : List RegCell → RegCell → List RegCell
  | [], c => [c]
  | d :: t, c => if cellLt c.fld c.bank d then c :: d :: t else d :: cellsIns t c

/-- The cells after copy `i` of field `f` is set to `v`: a value equal to the reset value is not listed. -/
def cellsPut (l : List RegCell) (f : Fld) (i v : Nat) : List RegCell :=
  if v = f.resetAt i then cellsDel l f i else cellsIns (cellsDel l f i) ⟨f, i, v⟩

/-- Copy `i` of field `f`. -/
def State.getB (s : State) (f : Fld) (i : Nat) : Nat := (cellsGet s.regs f i).getD (f.resetAt i)

/-- Field `f` of a register with one copy. -/
def State.get (s : State) (f : Fld) : Nat := s.getB f 0

/-- Whether a one-bit field is 1. -/
def State.onB (s : State) (f : Fld) (i : Nat) : Bool := s.getB f i == 1

/-- Whether a one-bit field of a register with one copy is 1. -/
def State.on (s : State) (f : Fld) : Bool := s.getB f 0 == 1

/-- The state with copy `i` of field `f` set to `v`, cut to the field's width. -/
def State.setB (s : State) (f : Fld) (i v : Nat) : State :=
  { s with regs := cellsPut s.regs f i (v % 2 ^ f.width) }

/-- The state with field `f` set. -/
def State.set (s : State) (f : Fld) (v : Nat) : State := s.setB f 0 v

/-- A counter advanced by `n`; it saturates. -/
def State.bumpB (s : State) (f : Fld) (i n : Nat) : State :=
  s.setB f i (min (s.getB f i + n) (2 ^ f.width - 1))

/-- A counter of one copy advanced by 1; it saturates. -/
def State.bump (s : State) (f : Fld) : State := s.bumpB f 0 1

/-- A counter of one copy advanced by `n`; it saturates. -/
def State.bumpN (s : State) (f : Fld) (n : Nat) : State := s.bumpB f 0 n

/-- One bit of a field set or cleared. -/
def State.setBitB (s : State) (f : Fld) (i k : Nat) (b : Bool) : State := s.setB f i (putBit (s.getB f i) k b)

/-- One bit of a field. -/
def State.bitB (s : State) (f : Fld) (i k : Nat) : Bool := (s.getB f i).testBit k

/-- The register file after a restart that keeps only the fields `keep` allows (R458, R562). DESIGN CHOICE, log entry 33. -/
def State.restartRegs (s : State) (keep : Keep → Bool) : State :=
  { s with regs := s.regs.filter (fun c => keep c.fld.info.keep) }

/-- The state with output appended. DESIGN CHOICE, log entry 11. -/
def State.emit (s : State) (o : Out) : State := { s with out := s.out ++ [o] }

/-- Whether DEBUG_KILL acts: the fuse is blown, and was so when the module started (R4, R556). -/
def State.dbgKilled (s : State) : Bool := !s.tub.killFresh && s.on .FUS_STATE_DEBUG_KILL

/-- The register as its fields hold it; write-only fields read 0 (R8). -/
def State.regRaw (s : State) (r : Reg) (i : Nat) : Nat :=
  r.fields.foldl (fun a f => if f.info.acc = .wo then a else a + s.getB f i * 2 ^ f.info.lo) 0

/-- Whether a BAR0 offset lies in the host-visible part of the I/O space (R494). -/
def hostSees (a : Nat) : Bool :=
  let o := a % 0x10000
  match a / 0x10000 with
  | 0x00 | 0x01 | 0x02 | 0x03 | 0x04 | 0x05 | 0x14 | 0x18 | 0x20 | 0x38 | 0x40 | 0x48 => true
  | 0x08 => decide (0x800 ≤ o % 0x1000 ∧ o % 0x1000 < 0xC00) || (decide (o < 0x1000) && decide (0xC00 ≤ o))
  | 0x10 => decide (o < 0x400)
  | 0x28 => decide (0x100 ≤ o ∧ o < 0x200) || decide (0x800 ≤ o ∧ o < 0x900) || decide (0xF00 ≤ o ∧ o < 0xF34)
  | 0x30 => !decide (0x380 ≤ o ∧ o < 0x390)
  | _ => false

/-- The registers of the 64 KiB block at `n` × 64 KiB (R12). -/
def blockRegs (n : Nat) : List Reg :=
  match n with
  | 0x00 => Reg.listMOD
  | 0x01 => Reg.listFLT
  | 0x02 => Reg.listPWR
  | 0x03 => Reg.listLOG
  | 0x04 => Reg.listFUS
  | 0x05 => Reg.listTIM
  | 0x08 => Reg.listPOD
  | 0x10 => Reg.listCOH
  | 0x14 => Reg.listMEM
  | 0x18 => Reg.listJNL
  | 0x20 => Reg.listCSS
  | 0x28 => Reg.listENG
  | 0x30 => Reg.listMPT
  | 0x38 => Reg.listRNG
  | 0x40 => Reg.listHST ++ Reg.listVFM
  | 0x48 => Reg.listCLM
  | 0x50 => Reg.listTMB
  | 0x60 => Reg.listDBG
  | _ => []

/-- Where an address points: a register, the number of the repeat and the byte within it. For the POD registers `slot`
is the logical pod and `second` says that the address lies in the half of core 1. -/
structure RegLoc where
  reg : Reg
  rep : Nat
  byte : Nat
  slot : Nat := 0
  second : Bool := false
  deriving DecidableEq, Repr

/-- The repeat and byte of `r` that address `a` names, when it names one. -/
def regAt (r : Reg) (a : Nat) : Option (Nat × Nat) :=
  let i := r.info
  if a < i.base then none
  else if i.count ≤ 1 then
    if a < i.base + i.width / 8 then some (0, a - i.base) else none
  else if i.stride = 0 then none
  else
    let k := (a - i.base) / i.stride
    let b := (a - i.base) % i.stride
    if k < i.count ∧ b < i.width / 8 then some (k, b) else none

/-- The register among `l` that an address names. -/
def findReg (l : List Reg) (a : Nat) : Option RegLoc :=
  l.findSome? (fun r => (regAt r a).map (fun (k, b) => { reg := r, rep := k, byte := b }))

/-- Whether a register is one of a core's own in its pod slot. -/
def Reg.ofCore (r : Reg) : Bool :=
  match r.info.bank with
  | .core => true
  | _ => false

/-- Where an I/O address points (R12); none for an unused offset. Pod slots follow *Slot layout*. -/
def locate (a : Nat) : Option RegLoc :=
  let n := a / 0x10000
  if n = 0x08 then
    let p := (a - 0x80000) / 0x1000
    let o := (a - 0x80000) % 0x1000
    if 0xC00 ≤ o then
      if p = 0 then findReg Reg.listPOD a else none
    else if 0x400 ≤ o ∧ o < 0x800 then
      (findReg Reg.listPOD (0x80000 + o - 0x400)).map (fun l => { l with slot := p, second := true })
    else (findReg Reg.listPOD (0x80000 + o)).map (fun l => { l with slot := p })
  else findReg (blockRegs n) a

/-- The number of the copy that an access by pod `pod`, core `core` reaches. -/
def State.bankOf (s : State) (l : RegLoc) (pod core : Nat) : Nat :=
  match l.reg.info.bank with
  | .one => 0
  | .array => l.rep
  | .dom => s.get .ENG_DOM_SEL_DOMAIN
  | .lane => s.get .MPT_LANE_SEL_LANE
  | .dev => s.get .MPT_DEV_SEL_DEVICE
  | .fnSel => s.get .VFM_SEL_FUNCTION
  | .src => s.get .FLT_CNT_SEL_SOURCE
  | .claim => s.get .RNG_CLAIM_SEL_PAIR
  | .pod => l.slot
  | .core => if 0x100000 ≤ l.reg.info.base then pod * 2 + core else l.slot * 2 + b2n l.second
  | .fn => l.slot
  | .fnq => l.slot * 32 + l.rep

end Sys2Proof.Machine
end

