-- ==== Sys2Proof/Machine/Ops.lean ====
section
/-!
DEFINITION. Operations every block uses: origin codes, the timebase, modes and power domains, free values, MSI-X, and
DMA writes with dirty-page marking.
-/

namespace Sys2Proof.Machine

/-- Every command that completes ends in this. DESIGN CHOICE, log entry 5. -/
abbrev done (s : State) : Host.Outcome State Fault Refusal := .next s

/-- The origin code of R15 and R16. DESIGN CHOICE, log entry 19. -/
def originCode : Origin → Nat
  | .hw => 0
  | .fw p c w l => 0x1000 + p % 16 * 256 + c % 2 * 128 + w % 8 * 16 + l % 16
  | .pf => 0x2000
  | .vf n => 0x3000 + n % 4096
  | .ring n => 0x4000 + n % 4096
  | .tuber => 0x5000
  | .debug => 0x6000
  | .smbus => 0x7000
  | .peer => 0x8000

/-- The origin code of a function: 0x2000 for the PF, 0x3000 and its number for a VF (R15). -/
def fnOrigin (fn : Nat) : Nat := if fn = 0 then 0x2000 else 0x3000 + fn % 4096

/-- Whether a command comes from a core. -/
def isFw : Origin → Bool
  | .fw .. => true
  | _ => false

/-- TIM_NOW (R568). -/
def State.now (s : State) : Nat := s.get .TIM_NOW_NS

/-- A command that stands for a time reached: TIM_NOW is at least that time (DESIGN CHOICE, log entry 5). DESIGN CHOICE, log entry 94. -/
def timeTo (t : Nat) (s : State) : State := if s.get .TIM_NOW_NS < t then s.set .TIM_NOW_NS t else s

/-- The mode codes of *Mode codes*. -/
def Mode.off : Nat := 0
def Mode.spore : Nat := 1
def Mode.fiddlehead : Nat := 2
def Mode.frond : Nat := 3
def Mode.dormant : Nat := 4
def Mode.standby : Nat := 5
def Mode.crust : Nat := 6
def Mode.maintenance : Nat := 7

/-- The mode the module is in: OFF while 12 V is lost (R586), else MOD_STATE.MODE (R557). -/
def State.mode (s : State) : Nat := if s.mod_.off then Mode.off else s.get .MOD_STATE_MODE

/-- Whether power domain `n` is on and clocked. -/
def State.pdOn (s : State) (n : Nat) : Bool := (s.get .PWR_STATE_ON).testBit n

/-- Whether the core domain runs (COH_STATUS). -/
def State.coreUp (s : State) : Bool := decide (2 ≤ s.get .COH_STATUS_DOMAIN)

/-- TIM_EPOCH as log entries and headers record it. -/
def State.epoch (s : State) : Nat := s.get .TIM_EPOCH_OFFSET + s.get .TIM_EPOCH_VALID * 2 ^ 63

/-- A number for a free value, and the state that has used it up. DESIGN CHOICE, log entry 3. -/
def State.draw (s : State) : Nat × State := (s.free, { s with free := s.free + 1 })

/-- Two words of 64 bits in one register read as one number. -/
def word64 (hi lo : Nat) : Nat := hi % 2 ^ 32 * 2 ^ 32 + lo % 2 ^ 32

/-- Vectors of a function: 64 on the PF, 8 on a VF (R488). -/
def vectorsOf (fn : Nat) : Nat := if fn = 0 then 64 else 8

/-- A function as the function manager keeps it. The PF always exists (*Functions and resources*). -/
def State.fnOf (s : State) (fn : Nat) : Fn := kvGet s.hst.fns fn { created := fn == 0 }

/-- The state with a function changed. -/
def State.setFn (s : State) (fn : Nat) (f : Fn) : State := { s with hst := { s.hst with fns := kvSet s.hst.fns fn f } }

/-- Whether a function is in D3hot (R501). -/
def State.inD3 (s : State) (fn : Nat) : Bool := (s.fnOf fn).d3

/-- The MSI-X entry of a vector. -/
def State.msixAt (s : State) (fn vec : Nat) : Msix := kvGet s.hst.msix (fn * 64 + vec) {}

/-- The state with an MSI-X entry changed. -/
def State.setMsix (s : State) (fn vec : Nat) (m : Msix) : State :=
  { s with hst := { s.hst with msix := kvSet s.hst.msix (fn * 64 + vec) m } }

/-- Raises a vector of a function (R500): the message is sent, or its pending bit set while the vector or the function
is masked or the function is in D3hot (R501). With MSI-X disabled nothing is sent. -/
def raiseVec (fn vec : Nat) (s : State) : State :=
  if vec < vectorsOf fn ∧ fn ∈ s.hst.msixOn then
    let m := s.msixAt fn vec
    if m.masked || s.hst.msixMask.contains fn || s.inD3 fn then s.setMsix fn vec { m with pending := true }
    else s.emit (.msix fn vec m.addr m.data)
  else s

/-- Pages of the range a DMA write touches (R512). -/
def dirtyPages (lo hi addr len : Nat) : List Nat :=
  if len = 0 ∨ hi ≤ lo then []
  else
    let a := max addr lo
    let b := min (addr + len) hi
    if b ≤ a then []
    else (List.range ((b - 1 - lo) / 4096 - (a - lo) / 4096 + 1)).map (· + (a - lo) / 4096)

/-- Marks the pages a DMA write of a function touches in the active map (R511 to R513). -/
def dirtyMark (fn addr len : Nat) (s : State) : State :=
  if s.onB .VFM_DIRTY_CTL_ENABLE fn then
    let lo := s.getB .VFM_DIRTY_LO_ADDR fn * 4096
    let hi := s.getB .VFM_DIRTY_HI_ADDR fn * 4096
    let map := (if s.onB .VFM_DIRTY_CTL_ACTIVE fn then s.getB .VFM_DIRTY_MAP1_ADDR fn
      else s.getB .VFM_DIRTY_MAP0_ADDR fn) * 4096
    (dirtyPages lo hi addr len).foldl (fun s i => s.emit (.hostOr (map + i / 8) (BitVec.ofNat 8 (2 ^ (i % 8))))) s
  else s

/-- Whether a function's Enable Relaxed Ordering bit is 1 (R489): bit 4 of Device Control, which PCI Express has as 1 until
the host writes it. PRESUMED, log entry 95. -/
def State.relaxed (s : State) (fn : Nat) : Bool :=
  (kvGet s.hst.config (fn * 4096 + Config.devCtl) 16).testBit 4

/-- A DMA write of a function for a program, or for none (0), marked where its pages are logged; held while the function
is in D3hot (R501). `bulk`: a data write, which carries Relaxed Ordering where the function enables it (R489). -/
def hostWriteFor (owner fn addr : Nat) (bulk : Bool) (data : List Byte) (s : State) : State :=
  if data.isEmpty then s
  else if s.inD3 fn then
    let w : HeldWrite := { fn := fn, addr := addr, bulk := bulk, data := data, owner := owner }
    { s with hst := { s.hst with heldWrites := s.hst.heldWrites ++ [w] } }
  else dirtyMark fn addr data.length
    ((s.emit (.hostWrite fn addr (bulk && s.relaxed fn) data)).bumpN .HST_WR_BYTES_COUNT data.length)

/-- A DMA write of a function for no program. -/
abbrev hostWrite (fn addr : Nat) (bulk : Bool) (data : List Byte) (s : State) : State := hostWriteFor 0 fn addr bulk data s

/-- Sets a flag of the energy window while one is open (*ENG_EPB_FLAGS*). -/
def epbFlag (f : Fld) (s : State) : State := if s.on .ENG_EPB_CTL_OPEN then s.set f 1 else s

/-- A DMA read of a function of `len` bytes. -/
def hostReadReq (fn addr len : Nat) (s : State) : State :=
  (s.emit (.hostRead fn addr len)).bumpN .HST_RD_BYTES_COUNT len

end Sys2Proof.Machine
end

