-- ==== Sys2Proof/Machine/Sha.lean ====
section
/-!
DEFINITION. The hash functions the spec names by their standards: SHA-256 and SHA-384 (FIPS 180-4), HMAC (FIPS 198-1)
and CRC-32C. Log entry 8 says that their definitions come from those standards.
-/

namespace Sys2Proof.Machine

/-- Largest `r` with `r ^ k ≤ n`, one bit at a time from bit `b - 1` down, over the bits found so far. -/
def rootFloor (k n : Nat) : Nat → Nat → Nat
  | 0, r => r
  | b + 1, r => rootFloor k n b (if (r + 2 ^ b) ^ k ≤ n then r + 2 ^ b else r)

/-- First 64 fraction bits of the `k`-th root of `p`, for roots below 16. -/
def rootBits (k p : Nat) : Nat := rootFloor k (p * 2 ^ (64 * k)) 68 0 % 2 ^ 64

/-- The first 80 primes: the numbers below 410 that no smaller number from 2 to 20 divides. -/
def shaPrimes : List Nat :=
  (List.range' 2 408).filter (fun n => (List.range' 2 19).all (fun d => decide (n ≤ d) || n % d != 0))

/-- The 80 round constants of SHA-512 and SHA-384; SHA-256 uses the top 32 bits of the first 64. -/
def shaK : List Nat := shaPrimes.map (rootBits 3)

/-- The eight working variables of one compression. -/
structure ShaVars (w : Nat) where
  a : BitVec w
  b : BitVec w
  c : BitVec w
  d : BitVec w
  e : BitVec w
  f : BitVec w
  g : BitVec w
  h : BitVec w

/-- The rotation and shift amounts in which SHA-256 and SHA-512 differ. -/
structure ShaShape where
  s0 : Nat × Nat × Nat
  s1 : Nat × Nat × Nat
  e0 : Nat × Nat × Nat
  e1 : Nat × Nat × Nat

/-- SHA-256's amounts. -/
def sha256Shape : ShaShape := ⟨(7, 18, 3), (17, 19, 10), (2, 13, 22), (6, 11, 25)⟩

/-- SHA-512's amounts. -/
def sha512Shape : ShaShape := ⟨(1, 8, 7), (19, 61, 6), (28, 34, 39), (14, 18, 41)⟩

/-- Two rotations and a shift. -/
def shaSmall {w : Nat} (r : Nat × Nat × Nat) (x : BitVec w) : BitVec w :=
  x.rotateRight r.1 ^^^ x.rotateRight r.2.1 ^^^ (x >>> r.2.2)

/-- Three rotations. -/
def shaBig {w : Nat} (r : Nat × Nat × Nat) (x : BitVec w) : BitVec w :=
  x.rotateRight r.1 ^^^ x.rotateRight r.2.1 ^^^ x.rotateRight r.2.2

/-- The message schedule, newest word first, extended by `n` words. -/
def shaSchedule {w : Nat} (p : ShaShape) : Nat → List (BitVec w) → List (BitVec w)
  | 0, l => l
  | n + 1, l =>
    shaSchedule p n
      ((shaSmall p.s1 (l.getD 1 0) + l.getD 6 0 + shaSmall p.s0 (l.getD 14 0) + l.getD 15 0) :: l)

/-- One round. -/
def shaRound {w : Nat} (p : ShaShape) (v : ShaVars w) (kw : BitVec w × BitVec w) : ShaVars w :=
  let t1 := v.h + shaBig p.e1 v.e + ((v.e &&& v.f) ^^^ ((~~~ v.e) &&& v.g)) + kw.1 + kw.2
  let t2 := shaBig p.e0 v.a + ((v.a &&& v.b) ^^^ (v.a &&& v.c) ^^^ (v.b &&& v.c))
  ⟨t1 + t2, v.a, v.b, v.c, v.d + t1, v.e, v.f, v.g⟩

/-- The hash value that starts a message, from eight numbers. -/
def ShaVars.ofList (w : Nat) (l : List Nat) : ShaVars w :=
  let v := fun i => BitVec.ofNat w (l.getD i 0)
  ⟨v 0, v 1, v 2, v 3, v 4, v 5, v 6, v 7⟩

/-- One block folded into the hash value. -/
def shaBlock {w : Nat} (p : ShaShape) (ks : List (BitVec w)) (v : ShaVars w) (ws : List (BitVec w)) : ShaVars w :=
  let sched := (shaSchedule p (ks.length - 16) ws.reverse).reverse
  let r := (List.zip ks sched).foldl (shaRound p) v
  ⟨v.a + r.a, v.b + r.b, v.c + r.c, v.d + r.d, v.e + r.e, v.f + r.f, v.g + r.g, v.h + r.h⟩

/-- A message padded to whole blocks of `bs` bytes, its length in bits in the last `ls` bytes. -/
def shaPad (bs ls : Nat) (m : List Byte) : List Byte :=
  let used := (m.length + 1 + ls) % bs
  m ++ [0x80] ++ zeros (if used = 0 then 0 else bs - used) ++ beBytes ls (8 * m.length)

/-- SHA-256 of a message: 32 bytes. PRESUMED, log entry 8. -/
def sha256 (m : List Byte) : List Byte :=
  let ks : List (BitVec 32) := (shaK.take 64).map (fun k => BitVec.ofNat 32 (k / 2 ^ 32))
  let iv := ShaVars.ofList 32 ((shaPrimes.take 8).map (fun p => rootBits 2 p / 2 ^ 32))
  let v := (pieces 64 (shaPad 64 8 m)).foldl
    (fun v blk => shaBlock sha256Shape ks v ((pieces 4 blk).map (fun x => BitVec.ofNat 32 (beNat x)))) iv
  [v.a, v.b, v.c, v.d, v.e, v.f, v.g, v.h].flatMap (fun x => beBytes 4 x.toNat)

/-- SHA-384 of a message: 48 bytes. PRESUMED, log entry 8. -/
def sha384 (m : List Byte) : List Byte :=
  let ks : List (BitVec 64) := shaK.map (BitVec.ofNat 64)
  let iv := ShaVars.ofList 64 (((shaPrimes.drop 8).take 8).map (rootBits 2))
  let v := (pieces 128 (shaPad 128 16 m)).foldl
    (fun v blk => shaBlock sha512Shape ks v ((pieces 8 blk).map (fun x => BitVec.ofNat 64 (beNat x)))) iv
  [v.a, v.b, v.c, v.d, v.e, v.f].flatMap (fun x => beBytes 8 x.toNat)

/-- HMAC-SHA-256: 32 bytes. PRESUMED, log entry 8. -/
def hmacSha256 (key m : List Byte) : List Byte :=
  let k := padTo 64 (if key.length > 64 then sha256 key else key)
  let ipad := k.map (· ^^^ 0x36)
  let opad := k.map (· ^^^ 0x5c)
  sha256 (opad ++ sha256 (ipad ++ m))

/-- One byte of a reflected CRC with polynomial `p`, eight steps. -/
def crcByte (p : Nat) (c : Nat) (b : Byte) : Nat :=
  (List.range 8).foldl (fun c _ => if c % 2 = 1 then (c / 2) ^^^ p else c / 2) (c ^^^ b.toNat)

/-- The CRC-32C register run over bytes (Castagnoli, reflected), from a running value. -/
def crc32cRun (c : Nat) (m : List Byte) : Nat := m.foldl (crcByte 0x82F63B78) c

/-- CRC-32C of a message. PRESUMED, log entry 8. -/
def crc32c (m : List Byte) : Nat := crc32cRun 0xFFFFFFFF m ^^^ 0xFFFFFFFF

end Sys2Proof.Machine
end

