-- ==== Sys2Proof/Machine/Log.lean ====
section
/-!
DEFINITION. The change log and the latching of fault events: R440 to R447, R452, R453, R551, R552. Reactions of levels 2
and 3 are queued here and carried out by `settle` in Faults.lean.
-/

namespace Sys2Proof.Machine

/-- Entries the log area holds (R551). -/
def logCapacity : Nat := 3932160

/-- Entries not yet exported (R552). -/
def State.logUnexported (s : State) : Nat := s.get .LOG_SEQ_SEQ - s.get .LOG_EXPORTED_SEQ

/-- LOG_FULL (R552). -/
def State.logFull (s : State) : Bool :=
  decide (logCapacity - 65536 ≤ s.logUnexported ∨ 512 ≤ s.get .LOG_CKPT_EXPORTED_MADE - s.get .LOG_CKPT_EXPORTED_COUNT)

/-- Whether an entry can be written, the reserve included. -/
def State.logRoom (s : State) : Bool := decide (s.logUnexported < logCapacity)

/-- Bytes 0 to 47 of an entry (*Entry (64 bytes)*). -/
def LogEntry.body (e : LogEntry) : List Byte :=
  leBytes 8 e.time ++ leBytes 8 e.epoch ++ leBytes 8 e.seq ++ leBytes 2 e.origin ++ leBytes 1 e.kind ++ leBytes 1 0 ++
  leBytes 4 e.target ++ leBytes 8 e.old ++ leBytes 8 e.new

/-- All 64 bytes of an entry. -/
def LogEntry.bytes (e : LogEntry) : List Byte := e.body ++ e.chain

/-- Writes one entry: next sequence, chained (R551). There is room. -/
def logPut (origin kind target old new : Nat) (s : State) : State :=
  let seq := s.get .LOG_SEQ_SEQ + 1
  let e : LogEntry := 
    { time := s.now, epoch := s.epoch, seq := seq, origin := origin, kind := kind, target := target, old := old,
      new := new, chain := [] }
  let e := { e with chain := (sha384 (s.log.chain ++ e.body)).take 16 }
  { s.set .LOG_SEQ_SEQ seq with
    log := { s.log with chain := e.chain, entries := kvSet s.log.entries ((seq - 1) % logCapacity) e } }

/-- Drops one entry (R552). DESIGN CHOICE, log entry 18. -/
def logDrop (s : State) : State :=
  { s.bump .LOG_DROPPED_COUNT with log := { s.log with dropped := s.log.dropped + 1 } }

/-- Writes the gap entry when entries were dropped before (R552). DESIGN CHOICE, log entry 18. -/
def logGap (s : State) : State :=
  if s.log.dropped = 0 then s
  else
    let n := s.log.dropped
    logPut 0 13 0 (s.get .LOG_SEQ_SEQ + 1) n { s with log := { s.log with dropped := 0 } }

/-- Enters an event that is not to be refused: it is written, or dropped when no room is left (R552). DESIGN CHOICE, log entry 18. -/
def logRaw (origin kind target old new : Nat) (s : State) : State :=
  if s.logRoom then
    let s := logGap s
    if s.logRoom then logPut origin kind target old new s else logDrop s
  else logDrop s

/-- A bit of FLT_STATUS. -/
def State.fltUnacked (s : State) (n : Nat) : Bool := s.bitB .FLT_STATUS_SRC 0 n

/-- FLT_PLEVEL of a source (R445). -/
def State.plevel (s : State) (n : Nat) : Nat :=
  bits (s.getB .FLT_PLEVEL_LEVEL (n / 32)) (2 * (n % 32) + 1) (2 * (n % 32))

/-- Sets FLT_PLEVEL of a source. -/
def State.setPlevel (s : State) (n v : Nat) : State :=
  s.setB .FLT_PLEVEL_LEVEL (n / 32) (putBits (s.getB .FLT_PLEVEL_LEVEL (n / 32)) (2 * (n % 32) + 1) (2 * (n % 32)) v)

/-- *Region of each power domain*. -/
def domainRegion (pd : Nat) : Region :=
  if pd = 0 then .aon else if pd = 1 then .tuber else if pd ≤ 19 then .coreDomain else if pd ≤ 25 then .memory
  else if pd = 26 then .pack0 else if pd = 27 then .pack1 else if pd = 28 then .sealGroup else if pd = 29 then .code
  else if pd = 30 then .css else if pd = 31 then .mediaA else if pd = 32 then .mediaB else if pd = 33 then .host
  else if pd = 34 then .ringW else .ringE

/-- The regions a source acts on (*Error sources*); RAIL takes the region of its rail (R448). DESIGN CHOICE, log entry 84. -/
def sourceRegions (n : Nat) (rail : Option Nat) : List Region :=
  if n ≤ 24 then [.coreDomain]
  else match n with
    | 25 => [.memory]
    | 27 => [.css]
    | 28 | 29 | 34 | 35 => [.code]
    | 30 => [.pack0]
    | 31 => [.pack1]
    | 32 => [.pack0, .pack1]
    | 33 => [.sealGroup]
    | 36 => [.mediaA]
    | 37 => [.mediaB]
    | 38 => [.host]
    | 39 => [.ringW]
    | 40 => [.ringE]
    | 41 => [.tuber]
    | 49 => [domainRegion (rail.getD 0)]
    | 53 => [.ringW, .ringE]
    | _ => [.aon]

/-- Whether a region's row of *Level-2 restarts* gives no restart. -/
def noRestart : Region → Bool
  | .aon | .css | .memory => true
  | _ => false

/-- Whether an event is a RAIL event of PD20 to PD25 (R604). -/
def memRail (e : FaultIn) : Bool :=
  e.source == 49 && (match e.rail with | some p => decide (20 ≤ p ∧ p ≤ 25) | none => false)

/-- The base level of an event (R440, R443). DESIGN CHOICE, log entry 67. -/
def State.baseLevel (s : State) (e : FaultIn) : Nat :=
  if e.ue then e.base else b2n (s.bitB .FLT_CE_LEVEL_SRC 0 e.source)

/-- Whether some stripe other than `k` is marked failed (R285, R604). -/
def State.otherStripeFailed (s : State) (k : Nat) : Bool :=
  (setBits (s.get .MEM_STRIPE_STATUS_FAILED) 6).any (· != k)

/-- The level of an event (R446), with the raise of R448 and R604 where its region has no restart. -/
def State.eventLevel (s : State) (e : FaultIn) : Nat :=
  let b := s.baseLevel e
  let l := min 3 (if s.fltUnacked e.source then max b (s.plevel e.source + 1) else b)
  if l = 2 then
    if memRail e then (if s.otherStripeFailed (e.rail.getD 20 - 20) then 3 else 2)
    else if (sourceRegions e.source e.rail).any noRestart then 3 else 2
  else l

/-- Makes an interrupt source pending on a core (*Interrupt sources*), with its agreed boundary on a CHECKED pod (R421);
a core stalled in WFI goes on (R339). -/
def pendInt (k src : Nat) (s : State) : State :=
  let s := if src < 2 then s.setBitB .POD_INT_PEND_LATCHED k src true
    else s.setBitB .POD_INT_PEND_LEVEL k (src - 2) true
  match kvGet? s.cores k with
  | none => s
  | some c =>
    let r := c.retire.toNat
    let b := if s.getB .POD_MODE_MODE (k / 2) = 0 then (if c.run = .wfi then r else r + 8) else r
    let c := if kvHas c.bounds src then c else { c with bounds := kvSet c.bounds src b }
    let c := if c.run = .wfi then { c with run := .running } else c
    { s with cores := kvSet s.cores k c }

/-- Withdraws an interrupt source. -/
def unpendInt (k src : Nat) (s : State) : State :=
  let s := if src < 2 then s.setBitB .POD_INT_PEND_LATCHED k src false
    else s.setBitB .POD_INT_PEND_LEVEL k (src - 2) false
  { s with cores := kvMod s.cores k (fun c => { c with bounds := kvDel c.bounds src }) }

/-- The firmware interrupt of the collector: source 2 on the pod FLT_CTL.IRQ_POD names, held until the core domain is
READY (R444). -/
def fwFaultIrq (s : State) : State :=
  if s.on .COH_CTL_READY then pendInt (s.get .FLT_CTL_IRQ_POD * 2) 2 s
  else { s with flt := { s.flt with irqHeld := true } }

/-- Fills the first-error capture (R452). -/
def capture (e : FaultIn) (level : Nat) (esc : Bool) (s : State) : State :=
  let s := (s.set .FLT_FIRST_ADDR_ADDR e.addr).set .FLT_FIRST_MASTER_ORIGIN e.origin
  let s := ((s.set .FLT_FIRST_TYPE_SOURCE e.source).set .FLT_FIRST_TYPE_LEVEL level).set .FLT_FIRST_TYPE_UE (b2n e.ue)
  let s := (s.set .FLT_FIRST_TYPE_ESCALATED (b2n esc)).set .FLT_FIRST_TYPE_INJECTED (b2n e.injected)
  let s := (s.set .FLT_FIRST_TYPE_ACCESS e.access).set .FLT_FIRST_TYPE_KIND e.kind
  let s := (s.set .FLT_FIRST_TYPE_DETAIL e.detail).set .FLT_FIRST_TYPE_VALID 1
  s.set .FLT_FIRST_TIME_NS s.now

/-- Counts an event and its escalation (*FLT_CNT*), and notes the source as seen. -/
def countFault (e : FaultIn) (esc : Bool) (s : State) : State :=
  let s := s.setBitB .FLT_SEEN_SRC 0 e.source true
  let s := if e.ue then s.bumpB .FLT_CNT_UE_COUNT e.source 1 else s.bumpB .FLT_CNT_CE_COUNT e.source 1
  if esc then s.bumpB .FLT_CNT_ESC_COUNT e.source 1 else s

/-- Latches an event of level 1 or above: status, pending level and, if it is the first, the capture (R445, R452). -/
def latchFault (e : FaultIn) (level : Nat) (esc : Bool) (s : State) : State :=
  if level = 0 then s
  else
    let p := if s.fltUnacked e.source then s.plevel e.source else 0
    let s := (s.setBitB .FLT_STATUS_SRC 0 e.source true).setPlevel e.source (max p level)
    if s.on .FLT_FIRST_TYPE_VALID then s else capture e level esc s

/-- The reactions of an event: both interrupts at level 1, the rest queued (R444); none under NOREACT (R455), none for
one absorbed by a restart of its region that runs (*Two faults*). -/
def reactFault (e : FaultIn) (level : Nat) (s : State) : State :=
  let absorbed := decide (level ≤ 2) && (sourceRegions e.source e.rail).any (fun r => s.flt.restarting.contains r)
  if level = 0 ∨ e.noReact ∨ absorbed then s
  else
    let s := raiseVec 0 (s.get .FLT_CTL_VECTOR) (fwFaultIrq s)
    if 2 ≤ level then { s with flt := { s.flt with todo := s.flt.todo ++ [⟨e, level⟩] } } else s

/-- One event at the collector, up to its level-1 reactions (R440 to R447, R452). Sources above 55 do not exist. -/
def noteFault (e : FaultIn) (s : State) : State :=
  if 55 < e.source then s
  else
    let level := s.eventLevel e
    let esc := decide (s.baseLevel e < level)
    let first := !s.on .FLT_FIRST_TYPE_VALID && decide (1 ≤ level)
    let s := latchFault e level esc (countFault e esc s)
    let s := logRaw 0 10 e.source (if first then e.addr else 0) level s
    reactFault e level s

/-- The detail code of an internal event; the spec gives no coding. -/
def detailOf (source base : Nat) (ue : Bool) : Nat := Config.faultDetail (source * 8 + base * 2 + b2n ue) % 128

/-- A UE of a source at a base level, by hardware. -/
def raiseUe (source base : Nat) (access kind addr origin : Nat) (s : State) : State :=
  noteFault
    { source := source, ue := true, base := base, access := access, kind := kind, addr := addr,
      detail := detailOf source base true, origin := origin } s

/-- A CE of a source. -/
def raiseCe (source : Nat) (access kind addr origin : Nat) (s : State) : State :=
  noteFault
    { source := source, ue := false, base := 0, access := access, kind := kind, addr := addr,
      detail := detailOf source 0 false, origin := origin } s

/-- Looks whether LOG_FULL has just begun or ended: its beginning raises source 44 and the PF vector of LOG_CTL
(R552). -/
def checkLogFull (s : State) : State :=
  if s.logFull then
    if s.log.full then s
    else raiseVec 0 (s.get .LOG_CTL_VECTOR) (raiseUe 44 1 0 0 0 0 { s with log := { s.log with full := true } })
  else { s with log := { s.log with full := false } }

/-- Whether the log takes an event of an origin: only those of origins 0 and 8 while LOG_FULL holds (R552). -/
def State.logTakes (s : State) (o : Origin) : Bool := !s.logFull || originCode o == 0 || originCode o == 0x8000

/-- Enters an event of hardware. DESIGN CHOICE, log entry 18. -/
def logHw (kind target old new : Nat) (s : State) : State := checkLogFull (logRaw 0 kind target old new s)

/-- Enters an event of an origin that `logTakes` allows. DESIGN CHOICE, log entry 19. -/
def logBy (o : Origin) (kind target old new : Nat) (s : State) : State :=
  checkLogFull (logRaw (originCode o) kind target old new s)

/-- Counts a refused event (R552). -/
def logRefuse (s : State) : State := s.bump .LOG_REFUSED_COUNT

/-- Does `act` once its entry is made, or `no` where the log refuses it (R10, R552, R601). -/
def logged (o : Origin) (kind target old new : Nat) (no act : State → State) (s : State) : State :=
  if s.logTakes o then act (logBy o kind target old new s) else no (logRefuse s)

end Sys2Proof.Machine
end

