-- ==== Sys2Proof/Machine/Memory.lean ====
section
/-!
DEFINITION. The DRAM: its bytes, its lines and the line code (R271 to R295). An unlisted byte reads 0, as after the
initialisation of R280.
-/

namespace Sys2Proof.Machine

/-- The size of the DRAM (R271). -/
def dramSize : Nat := 2 ^ 38

/-- A byte of memory; one that is not listed is 0 (R280). -/
def cellGet : List Host.Cell → Nat → Byte
  | [], _ => 0
  | (j, b) :: t, a => if j = a then b else cellGet t a

/-- Memory with a byte set. A byte of 0 is not listed. -/
def cellSet : List Host.Cell → Nat → Byte → List Host.Cell
  | [], a, b => if b = 0 then [] else [(a, b)]
  | (j, c) :: t, a, b =>
    if a < j then (if b = 0 then (j, c) :: t else (a, b) :: (j, c) :: t)
    else if a = j then (if b = 0 then t else (a, b) :: t)
    else (j, c) :: cellSet t a b

/-- Memory with bytes stored from an address upward. -/
def cellPut (m : List Host.Cell) (a : Nat) : List Byte → List Host.Cell
  | [] => m
  | b :: t => cellPut (cellSet m a b) (a + 1) t

/-- `n` bytes of memory from an address. -/
def cellRead (m : List Host.Cell) (a n : Nat) : List Byte := (List.range n).map (fun i => cellGet m (a + i))

/-- The canonical form: addresses strictly rise and no byte listed is 0. -/
def Memory.wf : List Host.Cell → Bool
  | [] => true
  | [(_, b)] => decide (b ≠ 0)
  | (j, b) :: (k, c) :: t => decide (b ≠ 0) && decide (j < k) && Memory.wf ((k, c) :: t)

/-- The line a DRAM offset lies in. -/
def lineOf (a : Nat) : Nat := a / 128

/-- The 128 bytes of a line as the writer meant them. -/
def MemState.line (m : MemState) (l : Nat) : List Byte := cellRead m.dram (l * 128) 128

/-- The check bytes of a column, which make both syndromes zero (R276). -/
def lineChecks (b0 b1 b2 b3 : Nat) : Nat × Nat :=
  let a := xorAll [b0, b1, b2, b3]
  let b := gfDot [1, 2, 4, 8] [b0, b1, b2, b3]
  let b5 := gfMul (a ^^^ gfMul b (gfInv (gfAlpha 4))) (gfInv 3)
  (a ^^^ b5, b5)

/-- The six bytes of column `t` as DRAM holds them: data, check bytes (complemented in a poisoned line, R279) and the
wrong symbols. -/
def storedColumn (data : List Byte) (poison : Bool) (errs : List SymbolError) (t : Nat) : List Nat :=
  let d := fun j => ((data.getD (32 * j + t) 0)).toNat
  let (c4, c5) := lineChecks (d 0) (d 1) (d 2) (d 3)
  let c4 := if poison then 255 - c4 else c4
  let c5 := if poison then 255 - c5 else c5
  let col := [d 0, d 1, d 2, d 3, c4, c5]
  (col.zipIdx).map (fun (v, i) =>
    errs.foldl (fun v e => if e.stripe = i ∧ e.col = t then v ^^^ (e.err % 256) else v) v)

/-- The coefficients of the second syndrome. -/
def alphaPowers : List Nat := [1, 2, 4, 8, 16, 32]

/-- The syndromes of a column (R276). -/
def syndromes (col : List Nat) : Nat × Nat := (xorAll col, gfDot alphaPowers col)

/-- The stripe at which syndromes locate a single error (R276). -/
def locateError (s0 s1 : Nat) : Option Nat :=
  if s0 = 0 then none else (List.range 6).find? (fun i => gfMul (gfAlpha i) s0 == s1)

/-- How a line reads (*Line decode*). -/
inductive LineRead where
  | clean | corrected (stripe : Nat) | reconstructed | poisoned
  deriving DecidableEq, Repr

/-- A column with the byte of an erased stripe solved from the first syndrome. -/
def solveOne (col : List Nat) (f : Nat) : List Nat := col.set f (xorAll (col.set f 0))

/-- A column with the bytes of two erased stripes solved from both syndromes. -/
def solveTwo (col : List Nat) (f g : Nat) : List Nat :=
  let z := (col.set f 0).set g 0
  let (a, b) := syndromes z
  let y := gfMul (b ^^^ gfMul (gfAlpha f) a) (gfInv (gfAlpha f ^^^ gfAlpha g))
  (z.set f (a ^^^ y)).set g y

/-- The outcome over all columns with no stripe failed (R277). -/
def decodeNone (cols : List (List Nat)) : LineRead :=
  let syn := cols.map syndromes
  let bad := syn.filter (fun p => p.1 != 0 || p.2 != 0)
  match bad with
  | [] => .clean
  | (s0, s1) :: _ =>
    match locateError s0 s1 with
    | none => .poisoned
    | some i => if bad.all (fun p => locateError p.1 p.2 == some i) then .corrected i else .poisoned

/-- The columns and outcome of a read with the stripes `failed` left out (*Line decode*). -/
def decodeLine (cols : List (List Nat)) (failed : List Nat) : LineRead × List (List Nat) :=
  match failed with
  | [] =>
    match decodeNone cols with
    | .corrected i => (.corrected i, cols.map (fun c => c.set i (c.getD i 0 ^^^ xorAll c)))
    | r => (r, cols)
  | [f] =>
    let cs := cols.map (fun c => solveOne c f)
    if cs.all (fun c => (syndromes c).2 == 0) then (.reconstructed, cs) else (.poisoned, cs)
  | f :: g :: _ => (.reconstructed, cols.map (fun c => solveTwo c f g))

/-- The data bytes of six-byte columns. -/
def columnsData (cols : List (List Nat)) : List Byte :=
  (List.range 4).flatMap (fun j => cols.map (fun c => BitVec.ofNat 8 (c.getD j 0)))

/-- The line group of a line: D[8:7] in every order (*Address orders*). -/
def lineGroup (l : Nat) : Nat := l % 4

/-- The bank a line lies in under an address order (*Address orders*). -/
def lineBank (order l : Nat) : Nat :=
  let d := l * 128
  match order with
  | 0 => bits d 19 15
  | 1 => bits d 13 9
  | _ => bits d 19 15 ^^^ bits d 24 20

/-- The row of a line. -/
def lineRow (l : Nat) : Nat := bits (l * 128) 37 20

/-- The stripes a read of a line leaves out: those marked failed, or with none failed the one whose channel of the
line's group retrains (R293). -/
def State.leftOut (s : State) (l : Nat) : List Nat :=
  match setBits (s.get .MEM_STRIPE_STATUS_FAILED) 6 with
  | [] => ((s.mem.retrain.filter (fun k => k % 4 == lineGroup l)).map (· / 4)).take 1
  | fs => fs

/-- Whether accesses to a line wait for a retraining (R293). -/
def State.lineWaits (s : State) (l : Nat) (write : Bool) : Bool :=
  s.mem.retrain.any (fun k => k % 4 == lineGroup l) && (write || s.get .MEM_STRIPE_STATUS_FAILED != 0)

/-- Marks a line poisoned (R279): inserted in rising order. -/
def poisonAdd : List Nat → Nat → List Nat
  | [], l => [l]
  | j :: t, l => if l < j then l :: j :: t else if l = j then j :: t else j :: poisonAdd t l

/-- The state with the memory changed. -/
def State.withMem (s : State) (f : MemState → MemState) : State := { s with mem := f s.mem }

/-- Whether a line is marked poisoned. -/
def State.poisoned (s : State) (l : Nat) : Bool := s.mem.poison.contains l

/-- Marks a stripe failed (R282): kept in MRAM, logged, the memory error source raised at level 1, or level 3 for a
second stripe (R285). The front ends move to the lowest domain whose stripe is not failed (R274). -/
def markStripe (origin k : Nat) (s : State) : State :=
  if s.bitB .MEM_STRIPE_STATUS_FAILED 0 k then s
  else
    let second := s.otherStripeFailed k
    let old := s.get .MEM_STRIPE_STATUS_FAILED
    let s := checkLogFull (logRaw origin 12 0x140000 old (setBit old k) s)
    let s := s.setBitB .MEM_STRIPE_STATUS_FAILED 0 k true
    let s := if s.get .MEM_STRIPE_STATUS_FE_ACTIVE = k then s.withMem (fun m => { m with switching := true }) else s
    raiseUe 25 (if second then 3 else 1) 0 0 0 origin (epbFlag .ENG_EPB_FLAGS_DEGRADED s)

/-- Counts a correction against a stripe, which may mark it failed (R278, R282). -/
def countCorrection (k : Nat) (s : State) : State :=
  let s := s.bumpB .MEM_CE_COUNT k 1
  let n := kvGet s.mem.passCorr k 0 + 1
  let s := s.withMem (fun m => { m with passCorr := kvSet m.passCorr k n })
  let s := raiseCe 25 1 0 0 0 s
  let t := s.get .MEM_ECC_CTL_FAIL_THRESH
  if t ≠ 0 ∧ t ≤ n then markStripe 0 k s else s

/-- Writes a whole line with data and check chunks that agree (R276). -/
def putLine (l : Nat) (data : List Byte) (s : State) : State :=
  s.withMem (fun m =>
    { m with
      dram := cellPut m.dram (l * 128) (padTo 128 data)
      poison := m.poison.filter (· != l)
      errs := kvDel m.errs l })

/-- Marks a line poisoned and captures its offset (R279, MEM_UE_ADDR). -/
def newPoison (l : Nat) (s : State) : State :=
  let s := s.bump .MEM_UE_COUNT
  let s := if s.on .MEM_UE_ADDR_VALID then s else (s.set .MEM_UE_ADDR_ADDR (l * 128)).set .MEM_UE_ADDR_VALID 1
  let s := s.withMem (fun m => { m with poison := poisonAdd m.poison l, errs := kvDel m.errs l })
  raiseUe 25 1 1 1 (l * 128) 0 s

/-- Reads a line (R277, R278): its data, or none where it decodes as poisoned. `scrub`: the write-back is made whatever
WRITEBACK says (R295). -/
def readLine (scrub : Bool) (l : Nat) (s : State) : Option (List Byte) × State :=
  let errs := kvGet s.mem.errs l []
  let data := s.mem.line l
  let out := s.leftOut l
  if errs.isEmpty && !s.poisoned l && decide (out.length < 2) then (some data, s)
  else
    let (r, cols) := decodeLine ((List.range 32).map (storedColumn data (s.poisoned l) errs)) out
    let got := columnsData cols
    match r with
    | .clean | .reconstructed => (some got, s)
    | .corrected i =>
      let s := countCorrection i s
      (some got, if scrub || s.on .MEM_ECC_CTL_WRITEBACK then putLine l got s else s)
    | .poisoned =>
      let s := s.bump .MEM_POISON_READS_COUNT
      (none, if s.poisoned l then s else newPoison l (putLine l got s))

/-- Bytes of a list overwritten from `off`. -/
def overlay (l : List Byte) (off : Nat) (d : List Byte) : List Byte := l.take off ++ d ++ l.drop (off + d.length)

/-- Writes part or all of a line (R272, R279): false when a partial write meets a poisoned line. -/
def writeLine (l off : Nat) (d : List Byte) (s : State) : Bool × State :=
  if off = 0 ∧ d.length = 128 then (true, putLine l d s)
  else
    match readLine false l s with
    | (none, s) => (false, s)
    | (some old, s) => (true, putLine l (overlay old off d) s)

/-- The pieces of an access line by line: line, offset in it, bytes of it. -/
def linePieces : Nat → Nat → Nat → List (Nat × Nat × Nat)
  | 0, _, _ => []
  | k + 1, a, n =>
    if n = 0 then []
    else
      let w := min n (128 - a % 128)
      (a / 128, a % 128, w) :: linePieces k (a + w) (n - w)

/-- The lines an access of `n` bytes at `a` touches. -/
def piecesOf (a n : Nat) : List (Nat × Nat × Nat) := linePieces (n / 128 + 2) a n

/-- Records an access in its bank: whether it was a row miss among the last four, and whether the row stays open (R288).
-/
def touchBank (l : Nat) (s : State) : State :=
  let b := lineGroup l * 32 + lineBank (s.get .MEM_CFG_ORDER) l
  let (_, last, hist) := kvGet s.mem.banks b (none, lineRow l, [])
  let hist := ((lineRow l != last) :: hist).take 4
  let stays := decide ((hist.filter id).length < 3)
  s.withMem (fun m => { m with banks := kvSet m.banks b (if stays then some (lineRow l) else none, lineRow l, hist) })

/-- Puts a line into the write queue of its front end; a batch runs at 48 lines and leaves 16 (R287, R290). -/
def queueWrite (l : Nat) (s : State) : State :=
  let g := lineGroup l
  let q := kvGet s.mem.writeQ g []
  let q := if q.contains l then q else q ++ [l]
  let q := if 48 ≤ q.length then q.drop (q.length - 16) else q
  s.withMem (fun m => { m with writeQ := kvSet m.writeQ g q })

end Sys2Proof.Machine
end

