-- ==== Sys2Proof/Machine/JournalStore.lean ====
section
/-!
DEFINITION. The journal store: record bytes, slots and their copies, and what the journal window shows (R129, R130, R296
to R304). Carrying out what waits for a record is in Journal.lean.
-/

namespace Sys2Proof.Machine

/-- Slots of the journal ring (R299). -/
def jnlSlots : Nat := 25165824

/-- The 32 bytes of a status word (*Subchannel status word*, R121). -/
def StatusWord.bytes (w : StatusWord) : List Byte :=
  leBytes 2 w.sch ++ leBytes 1 w.flags ++ leBytes 1 w.cond ++ leBytes 8 w.token ++ leBytes 4 w.bits ++
  leBytes 4 w.residual ++ leBytes 8 w.addr ++ leBytes 2 w.reason ++ leBytes 1 w.node ++ zeros 1

/-- The type code of a record (*Record types*). -/
def JBody.code : JBody → Nat
  | .start .. => 1
  | .stage .. => 2
  | .stripe .. => 3
  | .object .. => 4
  | .final _ => 5
  | .retire .. => 6
  | .reset .. => 7
  | .abandon .. => 8
  | .haltreq .. => 9

/-- Bytes 24 to 59 of a record (*Record types*). -/
def JBody.bytes : JBody → List Byte
  | .start addr tag cq remote att =>
    leBytes 8 addr ++ leBytes 4 tag ++ leBytes 2 cq ++ leBytes 1 (b2n remote) ++ leBytes 1 att
  | .stage order addr _ => padTo 28 order ++ leBytes 8 addr
  | .stripe id ord cursor k m durable shift tapePos =>
    leBytes 8 id ++ leBytes 4 ord ++ leBytes 4 cursor ++ leBytes 1 k ++ leBytes 1 m ++ leBytes 1 durable ++
    leBytes 1 shift ++ leBytes 8 tapePos
  | .object id ord stripes next conds cursor mapCrc =>
    leBytes 8 id ++ leBytes 4 ord ++ leBytes 4 stripes ++ leBytes 8 next ++ leBytes 1 conds ++ zeros 3 ++
    leBytes 4 cursor ++ leBytes 4 mapCrc
  | .final w => w.bytes
  | .retire cq head => leBytes 2 cq ++ zeros 2 ++ leBytes 4 head
  | .reset old new => leBytes 2 old ++ leBytes 2 new
  | .abandon ord reason first count =>
    leBytes 4 ord ++ leBytes 2 reason ++ zeros 2 ++ leBytes 8 first ++ leBytes 4 count
  | .haltreq kind tag => leBytes 1 kind ++ zeros 3 ++ leBytes 4 tag

/-- Bytes 0 to 59 of a record. -/
def JRec.head (r : JRec) : List Byte :=
  leBytes 1 r.body.code ++ zeros 1 ++ leBytes 2 (r.sch % 4096) ++ leBytes 8 r.token ++ leBytes 8 r.seq ++ leBytes 2 r.fn ++
  leBytes 1 r.node ++ zeros 1 ++ padTo 36 r.body.bytes

/-- The 64 bytes of a record with its CRC-32C (R129). -/
def JRec.bytes (r : JRec) : List Byte := r.head ++ leBytes 4 (crc32c r.head)

/-- The state with the journal store changed. -/
def State.withJnl (s : State) (f : JnlState → JnlState) : State := { s with jnl := f s.jnl }

/-- Whether MRAM die `n` is usable. -/
def State.dieOk (s : State) (n : Nat) : Bool := s.bitB .JNL_STATUS_DIES 0 n

/-- The die of copy A of a block of an area: die 0 for the first 16_777_216 journal slots, else die 2 (R296). Copy B is
on the next die. -/
def dieOf (area : MramArea) (block : Nat) : Nat :=
  match area with
  | .journal => if block < 16777216 then 0 else 2
  | _ => 2

/-- Whether copy B (`second`) or A of a block can be read. -/
def State.copyOk (s : State) (area : MramArea) (block : Nat) (second : Bool) : Bool :=
  s.dieOk (dieOf area block + b2n second)

/-- Free slots of the journal ring, CSS_JNL_FREE (R299). -/
def State.jnlFree (s : State) : Nat := jnlSlots - (s.get .JNL_TAIL_COUNT - s.get .JNL_HEAD_COUNT)

/-- The record of a copy. -/
def JCopy.rec? : JCopy → Option JRec
  | .good r => some r
  | _ => none

/-- A slot as a read sees it: copy A when it is good, else copy B (R298). -/
def State.slotRead (s : State) (n : Nat) : Option JCopy :=
  match kvGet? s.jnl.slots n with
  | none => some .empty
  | some sl =>
    let a := if s.copyOk .journal n false then sl.a else .bad
    let b := if s.copyOk .journal n true then sl.b else .bad
    match a, b with
    | .bad, .bad => none
    | .bad, c => some c
    | c, _ => some c

/-- Writes a record at the tail with the next record sequence, both copies at once; a copy on a die that is not usable
is not written (R129, R130, R299, R307). -/
def jnlPut (r : JRec) (s : State) : State :=
  let n := s.get .JNL_TAIL_COUNT
  let slot := n % jnlSlots
  let r := { r with seq := s.jnl.nextSeq }
  let a : JCopy := if s.copyOk .journal slot false then .good r else .bad
  let b : JCopy := if s.copyOk .journal slot true then .good r else .bad
  let one := (a = .bad) != (b = .bad)
  let s := s.withJnl (fun j =>
    { j with
      slots := kvSet j.slots slot { a := a, b := b }
      nextSeq := j.nextSeq + 1
      oneCopy := if one then (MramArea.journal, slot) :: j.oneCopy else j.oneCopy })
  let s := if one then s.set .JNL_STATUS_SINGLE 1 else s
  let s := s.set .JNL_TAIL_COUNT (n + 1)
  s.set .CSS_JNL_FREE_RECORDS s.jnlFree

/-- The record standing in a slot, when there is one. -/
def State.jnlRec (s : State) (n : Nat) : Option JRec := (s.slotRead (n % jnlSlots)).bind JCopy.rec?

/-- The records of the live range with their counts, in ring order (R299). -/
def State.jnlLive (s : State) : List (Nat × JRec) :=
  let h := s.get .JNL_HEAD_COUNT
  (List.range (s.get .JNL_TAIL_COUNT - h)).filterMap (fun i => (s.jnlRec (h + i)).map (fun r => (h + i, r)))

/-- Asks for a record; `acts` waits until it is durable (R130). -/
def jnlAsk (r : JRec) (acts : List JAct) (s : State) : State :=
  s.withJnl (fun j => { j with pending := j.pending ++ [{ record := r, acts := acts }] })

/-- Whether a record may be written now (R302): below 65_536 free slots only FINAL, RETIRE and RESET records; none
without a free slot, while new writes are refused, or while the journal is sealed in SPORE (R570). -/
def State.jnlTakes (s : State) (r : JRec) : Bool :=
  let free := s.jnlFree
  s.mode != Mode.spore && s.mode != Mode.off && !s.on .JNL_STATUS_REFUSING && decide (0 < free) &&
  (decide (65536 ≤ free) || (match r.body with
    | .final _ | .retire .. | .reset .. => true
    | _ => false))

/-- The size of the journal window. -/
def jnlWindowSize : Nat := 0x80000000

/-- Whether a physical address lies in the journal window (R303). -/
def inJournalWindow (pa : Nat) : Bool := decide (0x3F0000000000 ≤ pa) && decide (pa < 0x3F0000000000 + jnlWindowSize)

/-- Whether a physical address lies in the firmware persistent area. -/
def inFwArea (pa : Nat) : Bool := inJournalWindow pa && decide (0x3F0000000000 + 0x7E000000 ≤ pa)

/-- Bytes the spec does not lay out, free ones. -/
def freeBytes (n : Nat) (s : State) : List Byte × State :=
  let (k, s) := s.draw
  (leBytes n (Config.freeNat k), s)

/-- The header block of a checkpoint slot, the signatures left out (R554). -/
def ckptBytes (s : State) (block off n : Nat) : Option (List Byte) :=
  if block % 512 * 64 < 256 then
    some (match kvGet? s.log.ckpts (block / 512) with
      | some c => bytesAt c.header (block % 512 * 64 + off) n
      | none => zeros n)
  else none

/-- The area and block an offset of the journal window lies in (*Journal window*). DESIGN CHOICE, log entry 59. -/
def areaBlock (o : Nat) : MramArea × Nat :=
  if o < 0x60000000 then (.journal, o / 64)
  else if o < 0x70000000 then (.changeLog, (o - 0x60000000) / 64)
  else if o < 0x78000000 then (.descLog, (o - 0x70000000) / 64)
  else if o < 0x7C000000 then (.custody, (o - 0x78000000) / 64)
  else if o < 0x7E000000 then (.device, (o - 0x7C000000) / 64)
  else (.firmware, (o - 0x7E000000) / 64)

/-- Bytes read through the journal window at an offset, within one 64-byte block: none when both copies are bad (R298,
R303). The layouts of the custody area, the device state and the signatures are internal: free values. -/
def windowRead (o n : Nat) (s : State) : Option (List Byte) × State :=
  if o < 0x60000000 then
    match s.slotRead (o / 64) with
    | none => (none, s)
    | some .empty => (some (zeros n), s)
    | some .bad => (none, s)
    | some (.good r) => (some (bytesAt r.bytes (o % 64) n), s)
  else if !(s.dieOk 2 || s.dieOk 3) ∨ s.jnl.lost.contains (areaBlock o) then (none, s)
  else if o < 0x6F000000 then
    (some (match kvGet? s.log.entries ((o - 0x60000000) / 64) with
      | some e => bytesAt e.bytes (o % 64) n
      | none => zeros n), s)
  else if o < 0x70000000 then
    match ckptBytes s ((o - 0x6F000000) / 64) (o % 64) n with
    | some d => (some d, s)
    | none => let (d, s) := freeBytes n s; (some d, s)
  else if o < 0x78000000 then
    (some (match kvGet? s.eng.dlog ((o - 0x70000000) / 64) with
      | some e => bytesAt e.data (o % 64) n
      | none => zeros n), s)
  else if o < 0x7E000000 then let (d, s) := freeBytes n s; (some d, s)
  else (some (cellRead s.jnl.fwArea (o - 0x7E000000) n), s)

/-- Stores into the firmware persistent area: the block is rewritten in both copies; the write is under way until
MRAM_WRITE_COMPLETE (R297, R304). -/
def fwAreaWrite (pa : Nat) (d : List Byte) (s : State) : State :=
  let b := areaBlock (pa - 0x3F0000000000)
  s.withJnl (fun j =>
    { j with
      fwArea := cellPut j.fwArea (pa - 0x3F0000000000 - 0x7E000000) d
      lost := j.lost.filter (· != b)
      writes := j.writes + 1 })

/-- Whether the controller accepts one more MRAM write (R297, R308). -/
def State.mramTakes (s : State) : Bool := decide (s.jnl.writes < 256) && !s.on .JNL_STATUS_REFUSING

end Sys2Proof.Machine
end

