-- ==== Sys2Proof/Machine/Cache.lean ====
section
/-!
DEFINITION. The caches of the coherent domain and the accesses of devices to DRAM: R391 to R394, R397, R399, R404, R407.
The L1s are folded into their pod's L2, which includes them (R391).
-/

namespace Sys2Proof.Machine

/-- The key of a pod's copy of a line. -/
def l2Key (pod line : Nat) : Nat := pod * 2 ^ 31 + line

/-- A pod's copy of a line. -/
def CohState.l2At (c : CohState) (pod line : Nat) : Option L2Line := kvGet? c.l2 (l2Key pod line)

/-- The directory entry of a line. -/
def CohState.dirAt (c : CohState) (line : Nat) : DirEnt := kvGet c.dir line {}

/-- The home slice of the line at physical address `a` (R392). DESIGN CHOICE, log entry 37. -/
def homeSlice (a : Nat) : Nat := bits a 9 7 ^^^ bits a 12 10 ^^^ bits a 15 13 ^^^ bits a 18 16 ^^^ bits a 21 19

/-- The set of a line in its slice's L3 and directory: 4096 sets; the spec gives no index bits. DESIGN CHOICE, log entry 37. -/
def homeSet (line : Nat) : Nat := line / 8 % 4096

/-- The set of a line in an L2 of 1024 sets. DESIGN CHOICE, log entry 37. -/
def l2Set (line : Nat) : Nat := line % 1024

/-- The state with the coherent domain changed. -/
def State.withCoh (s : State) (f : CohState → CohState) : State := { s with coh := f s.coh }

/-- A fresh stamp for an entry just used. -/
def State.stampCoh (s : State) : Nat × State := (s.coh.stamp, s.withCoh (fun c => { c with stamp := c.stamp + 1 }))

/-- The coherent value of a line: the owner's copy, else the L3's, else what DRAM reads (R391, R397). Its second part
is true when the line is poisoned. -/
def cohLine (line : Nat) (s : State) : (List Byte × Bool) × State :=
  let c := s.coh
  let own := (c.dirAt line).owner.bind (fun p => c.l2At p line)
  match own with
  | some e => ((e.data, e.poison), s)
  | none =>
    match kvGet? c.l3 line with
    | some e => ((e.data, e.poison), s)
    | none =>
      match readLine false line s with
      | (some d, s) => ((d, false), s)
      | (none, s) => ((s.mem.line line, true), s)

/-- Writes a whole line to DRAM, marked when it is poisoned (R407). -/
def writeBack (line : Nat) (data : List Byte) (poison : Bool) (s : State) : State :=
  let s := putLine line data s
  if poison then s.withMem (fun m => { m with poison := poisonAdd m.poison line }) else s

/-- Lines of the L3 in one set of one slice, oldest first. -/
def l3InSet (c : CohState) (line : Nat) : List (Nat × L3Line) :=
  (c.l3.filter (fun p => homeSet p.1 == homeSet line && homeSlice (p.1 * 128) == homeSlice (line * 128))).mergeSort
    (fun a b => decide (a.2.stamp ≤ b.2.stamp))

/-- Puts a line into its L3 slice; in a full set the oldest line leaves, written back when dirty. DESIGN CHOICE, log entry 37. -/
def l3Put (line : Nat) (data : List Byte) (dirty poison : Bool) (s : State) : State :=
  let (t, s) := s.stampCoh
  let dirty := dirty || (match kvGet? s.coh.l3 line with | some e => e.dirty | none => false)
  let s :=
    if kvHas s.coh.l3 line then s
    else
      match l3InSet s.coh line with
      | (l, e) :: rest =>
        if 15 ≤ rest.length then
          let s := if e.dirty then writeBack l e.data e.poison s else s
          s.withCoh (fun c => { c with l3 := kvDel c.l3 l })
        else s
      | [] => s
  s.withCoh (fun c => { c with l3 := kvSet c.l3 line { data := data, dirty := dirty, poison := poison, stamp := t } })

/-- Removes a pod's copy of a line and its mark in the directory. -/
def dropCopy (pod line : Nat) (s : State) : State :=
  s.withCoh (fun c =>
    let d := c.dirAt line
    let d := { d with sharers := clearBit d.sharers pod, owner := if d.owner = some pod then none else d.owner }
    { c with
      l2 := kvDel c.l2 (l2Key pod line)
      dir := if d.owner.isNone && d.sharers == 0 && d.trans.isNone then kvDel c.dir line else kvSet c.dir line d })

/-- A pod gives up its copy of a line: modified data goes to the L3 (R399, R400). -/
def evictCopy (pod line : Nat) (s : State) : State :=
  match s.coh.l2At pod line with
  | none => s
  | some e =>
    let s := if e.st = .modified then l3Put line e.data true e.poison s else s
    dropCopy pod line s

/-- The pods with a copy of a line. -/
def CohState.holders (c : CohState) (line : Nat) : List Nat :=
  (List.range 16).filter (fun p => (c.l2At p line).isSome)

/-- A modified copy is brought to the L3 and stays as a shared copy (R400). -/
def downgrade (pod line : Nat) (s : State) : State :=
  match s.coh.l2At pod line with
  | none => s
  | some e =>
    let s := if e.st = .modified then l3Put line e.data true e.poison s else s
    s.withCoh (fun c =>
      let d := c.dirAt line
      { c with
        l2 := kvSet c.l2 (l2Key pod line) { e with st := .shared }
        dir := kvSet c.dir line { d with owner := none, sharers := setBit d.sharers pod } })

/-- Unlocked lines of a pod in one L2 set, oldest first, those being evicted left out. -/
def l2InSet (c : CohState) (pod line : Nat) : List (Nat × L2Line) :=
  (c.l2.filter (fun p => p.1 / 2 ^ 31 == pod && l2Set (p.1 % 2 ^ 31) == l2Set line && !p.2.locked && !p.2.evicting)).mergeSort
    (fun a b => decide (a.2.stamp ≤ b.2.stamp))

/-- Ways of an L2 left to ordinary lines: 16 less those COH_L2LOCK reserves (R404). Both cores of a pod share the
register's effect; the larger value counts. -/
def State.l2Ways (s : State) (pod : Nat) : Nat :=
  16 - min 4 (max (s.getB .COH_L2LOCK_WAYS (pod * 2)) (s.getB .COH_L2LOCK_WAYS (pod * 2 + 1)))

/-- The line that must leave an L2 set before one more is put into it. DESIGN CHOICE, log entry 37. -/
def l2Victim (pod line : Nat) (s : State) : Option Nat :=
  let l := l2InSet s.coh pod line
  if (s.coh.l2At pod line).isSome then none
  else if s.l2Ways pod ≤ l.length then (l.head?).map (·.1 % 2 ^ 31) else none

/-- Directory entries in the set of a line. -/
def dirInSet (c : CohState) (line : Nat) : List (Nat × DirEnt) :=
  c.dir.filter (fun p => homeSet p.1 == homeSet line && homeSlice (p.1 * 128) == homeSlice (line * 128))

/-- Makes room for a directory entry of a line (R399): a stable entry of a full set is evicted with back-invalidations;
none when all 16 are transient. DESIGN CHOICE, log entry 37. -/
def dirRoom (line : Nat) (s : State) : Option State :=
  if kvHas s.coh.dir line then some s
  else
    let l := dirInSet s.coh line
    if l.length < 16 then some s
    else
      match l.find? (fun p => p.2.trans.isNone) with
      | none => none
      | some (v, _) =>
        let hs := s.coh.holders v
        let s := (s.bump .COH_DIR_EVICTS_COUNT).bumpN .COH_BACKINV_COUNT hs.length
        let s := hs.foldl (fun s p => evictCopy p v s) s
        some (s.withCoh (fun c => { c with dir := kvDel c.dir v }))

/-- Installs a line in a pod's L2 and in the directory. DESIGN CHOICE, log entry 38. -/
def installLine (pod line : Nat) (st : LineSt) (data : List Byte) (poison : Bool) (s : State) : State :=
  let s := match l2Victim pod line s with
    | some v => evictCopy pod v s
    | none => s
  let (t, s) := s.stampCoh
  let locked := match s.coh.l2At pod line with | some e => e.locked | none => false
  let s := if poison then s.bump .COH_POISON_FILLS_COUNT else s
  s.withCoh (fun c =>
    let d := c.dirAt line
    let d := if st = .shared then { d with sharers := setBit d.sharers pod }
      else { d with owner := some pod, sharers := 2 ^ pod }
    { c with
      l2 := kvSet c.l2 (l2Key pod line) { st := st, data := data, poison := poison, locked := locked, stamp := t }
      dir := kvSet c.dir line d })

/-- A pod gets a line, shared or exclusive, when its home can serve it at once: other copies are invalidated or
downgraded and the line is installed (R397). None while the line is in a transient state or no directory entry is free;
the access then waits. DESIGN CHOICE, log entry 38. -/
def acquire (pod line : Nat) (excl : Bool) (s : State) : Option State :=
  let hit : Bool := match s.coh.l2At pod line with
    | some e => !e.evicting && (!excl || e.st != .shared)
    | none => false
  if hit then
    let (t, s) := s.stampCoh
    some (s.withCoh (fun c => { c with l2 := kvMod c.l2 (l2Key pod line) (fun e => { e with stamp := t }) }))
  else if (s.coh.dirAt line).trans.isSome then none
  else
    match dirRoom line s with
    | none => none
    | some s =>
      let ((d, p), s) := cohLine line s
      let others := (s.coh.holders line).filter (· != pod)
      let s := if excl then others.foldl (fun s q => evictCopy q line s) s
        else others.foldl (fun s q => downgrade q line s) s
      let s := if kvHas s.coh.l3 line then s else l3Put line d false p s
      some (installLine pod line (if excl || others.isEmpty then .exclusive else .shared) d p s)

/-- Writes into a line a pod holds exclusive; it becomes modified. DESIGN CHOICE, log entry 38. -/
def modifyLine (pod line off : Nat) (d : List Byte) (s : State) : State :=
  s.withCoh (fun c =>
    { c with
      writer := kvSet c.writer line pod
      l2 := kvMod c.l2 (l2Key pod line) (fun e => { e with st := .modified, data := overlay e.data off d }) })

/-- Every copy of a line in the caches is removed; dirty data is first brought to DRAM when `keep`. -/
def purgeLine (keep : Bool) (line : Nat) (s : State) : State :=
  let ((d, p), s) := if keep then cohLine line s else (([], false), s)
  let dirty := (s.coh.holders line).any (fun q =>
      match s.coh.l2At q line with | some e => e.st == .modified | none => false) ||
    (match kvGet? s.coh.l3 line with | some e => e.dirty | none => false)
  let s := if keep && dirty then writeBack line d p s else s
  s.withCoh (fun c =>
    let e := c.dirAt line
    { c with
      l2 := c.l2.filter (fun x => x.1 % 2 ^ 31 != line)
      l3 := kvDel c.l3 line
      dir := if e.trans.isNone then kvDel c.dir line else kvSet c.dir line { e with owner := none, sharers := 0 } })

/-- A dirty copy of a line anywhere is written back; copies stay (CLEAN). -/
def cleanLine (line : Nat) (s : State) : State :=
  let dirty := (s.coh.holders line).any (fun q =>
      match s.coh.l2At q line with | some e => e.st == .modified | none => false) ||
    (match kvGet? s.coh.l3 line with | some e => e.dirty | none => false)
  if dirty then
    let ((d, p), s) := cohLine line s
    let s := writeBack line d p s
    s.withCoh (fun c =>
      { c with
        l3 := kvMod c.l3 line (fun e => { e with dirty := false, data := d, poison := p })
        l2 := c.l2.map (fun x => if x.1 % 2 ^ 31 = line && x.2.st == .modified then
          (x.1, { x.2 with st := .exclusive }) else x) })
  else s

/-- Whether a device access to a line goes through the coherent I/O port: the core domain runs and the line lies in a
valid window (R394, R396). -/
def State.inWindow (s : State) (line : Nat) : Bool :=
  s.coreUp && (List.range 4).any (fun n => s.onB .COH_IOWIN_BASE_VALID n &&
    decide (s.getB .COH_IOWIN_BASE_BASE n * 4096 ≤ line * 128) &&
    decide (line * 128 < s.getB .COH_IOWIN_LIMIT_LIMIT n * 4096))

/-- Whether an address lies in a valid enclave range: requests of devices to it are refused (R332). DESIGN CHOICE, log entry 60. -/
def State.inEnclave (s : State) (a : Nat) : Option Nat :=
  ((List.range 8).find? (fun n => s.onB .COH_ENC_VALID n &&
    decide (s.getB .COH_ENC_BASE n * 2 ^ 21 ≤ a) &&
    decide (a < (s.getB .COH_ENC_BASE n + s.getB .COH_ENC_SIZE n + 1) * 2 ^ 21))).map (s.getB .COH_ENC_WORLD)

/-- What a device access to DRAM ends in: the data, the poisoned-data error, or the access error of R332. -/
inductive DevRead where
  | ok (data : List Byte) | poisoned | refused
  deriving DecidableEq, Repr

/-- A device reads one piece of a line (R272, R394). -/
def devLine (line off n : Nat) (s : State) : Option (List Byte) × State :=
  if s.inWindow line then
    let ((d, p), s) := cohLine line s
    (if p then none else some ((d.drop off).take n), s)
  else
    match readLine false line s with
    | (none, s) => (none, s)
    | (some d, s) => (some ((d.drop off).take n), s)

/-- The pieces of a device read. -/
def devReadAux : List (Nat × Nat × Nat) → State → Option (List Byte) × State
  | [], s => (some [], s)
  | (l, o, n) :: t, s =>
    let (a, s) := devLine l o n s
    let (b, s) := devReadAux t s
    (match a, b with | some x, some y => some (x ++ y) | _, _ => none, s)

/-- A device reads `n` bytes of DRAM (R272, R281, R332, R394). DESIGN CHOICE, log entry 60. DESIGN CHOICE, log entry 88. -/
def devRead (a n : Nat) (s : State) : DevRead × State :=
  if dramSize < a + n then (.refused, s)
  else if (piecesOf a n).any (fun p => (s.inEnclave (p.1 * 128)).isSome) then (.refused, s)
  else
    match devReadAux (piecesOf a n) s with
    | (some d, s) => (.ok d, s)
    | (none, s) => (.poisoned, s)

/-- A device writes a piece of a line; through the coherent port in a window, where every cached copy is invalidated
(R394). -/
def devPut (line off : Nat) (d : List Byte) (s : State) : Bool × State :=
  if s.inWindow line then writeLine line off d (purgeLine true line s) else writeLine line off d s

/-- The pieces of a device write: false when a partial line met poison. -/
def devWriteAux : List (Nat × Nat × Nat) → List Byte → State → Bool × State
  | [], _, s => (true, s)
  | (l, o, n) :: t, d, s =>
    let (a, s) := devPut l o (d.take n) s
    let (b, s) := devWriteAux t (d.drop n) s
    (a && b, s)

/-- A device writes bytes to DRAM (R272, R279, R394): false where it got an error. DESIGN CHOICE, log entry 60. -/
def devWrite (a : Nat) (d : List Byte) (s : State) : Bool × State :=
  if dramSize < a + d.length then (false, s)
  else if (piecesOf a d.length).any (fun p => (s.inEnclave (p.1 * 128)).isSome) then (false, s)
  else devWriteAux (piecesOf a d.length) d s

end Sys2Proof.Machine
end

