-- ==== Sys2Proof/Machine/Flags.lean ====
section
/-!
DEFINITION. The sticky flags of cr.astat and how an instruction sets them (*cr.astat flags*, R344, R346, R350).
-/

namespace Sys2Proof.Machine

/-- IOV and IDZ of cr.astat (*cr.astat flags*). -/
def flagIOV : Word := 0x100
def flagIDZ : Word := 0x200

/-- A result and the flags it sets. -/
structure IntRes where
  val : Word
  flags : Word := 0
  deriving DecidableEq, Repr

/-- The flag of a `.v` form: IOV when the exact signed result does not fit in 64 bits (R346, R350). -/
def ovFlag (ov : Bool) (exact : Int) : Word :=
  if ov && decide (exact < -(2 : Int) ^ 63 ∨ (2 : Int) ^ 63 ≤ exact) then flagIOV else 0

/-- The flags of cr.astat (*cr.astat flags*). -/
def flagNX : Word := 1
def flagUF : Word := 2
def flagOF : Word := 4
def flagDZ : Word := 8
def flagNV : Word := 16

/-- ORs flags into cr.astat (R344). -/
def OctCore.flag (c : OctCore) (m : Word) : OctCore := { c with astat := c.astat ||| m }

end Sys2Proof.Machine
end

