-- ==== Sys2Proof/Machine/Operands.lean ====
section
/-!
DEFINITION. The operand forms of an Octip instruction: g, f and predicate registers with their hard-wired members, a source
that is a register or an immediate, and fields of a register (R310, R311, R319 to R321).
-/

namespace Sys2Proof.Machine

/-- The number of the core a command names. -/
def coreKey (c : OctCtx) : Nat := c.pod * 2 + c.core

/-- A g register; g0 reads zero (R310). -/
def OctCore.gr (c : OctCore) (n : Nat) : Word := if n = 0 then 0 else c.g.getD n 0

/-- The core with a g register written; a write to g0 is discarded (R310). -/
def OctCore.setG (c : OctCore) (n : Nat) (v : Word) : OctCore := if n = 0 then c else { c with g := c.g.set n v }

/-- An f register. -/
def OctCore.fr (c : OctCore) (n : Nat) : Word := c.f.getD n 0

/-- The core with an f register written. -/
def OctCore.setF (c : OctCore) (n : Nat) (v : Word) : OctCore := { c with f := c.f.set n v }

/-- A predicate; p0 is always true. -/
def OctCore.pr (c : OctCore) (n : Nat) : Bool := n == 0 || c.p.getD n false

/-- The core with a predicate written; a write to p0 is discarded (R311). -/
def OctCore.setP (c : OctCore) (n : Nat) (b : Bool) : OctCore := if n = 0 then c else { c with p := c.p.set n b }

/-- A source operand's value. -/
def OctCore.src (c : OctCore) : Src → Word
  | .reg n => c.gr n
  | .imm w => w

/-- Bits [hi:lo] of a register. -/
def wbits (w : Word) (hi lo : Nat) : Nat := bits w.toNat hi lo

/-- A register with bits [hi:lo] replaced. -/
def wput (w : Word) (hi lo x : Nat) : Word := BitVec.ofNat 64 (putBits w.toNat hi lo x)

end Sys2Proof.Machine
end

