-- ==== Sys2Proof/Machine/Octip.lean ====
section
/-!
DEFINITION. One Octip core: registers, control-register fields, translation, fetch checks, taking an exception, returning
from one, and how an instruction retires (R310 to R339, R381 to R390).
-/

namespace Sys2Proof.Machine

/-- The privilege level of a status: 0 U, 1 S, 2 M (*cr.status*). -/
def stPl (w : Word) : Nat := wbits w 1 0
def stIe (w : Word) : Bool := w.toNat.testBit 2
def stIt (w : Word) : Bool := w.toNat.testBit 3
def stDt (w : Word) : Bool := w.toNat.testBit 4
def stTlbm (w : Word) : Bool := w.toNat.testBit 5
def stWorld (w : Word) : Nat := wbits w 10 8

/-- The status after entry to level `pl` (R336): IE, IT, DT and WORLD 0, TLBM set for the TLB-miss vectors. -/
def entryStatus (old : Word) (pl : Nat) (miss : Bool) : Word :=
  BitVec.ofNat 64 (pl + (if miss || stTlbm old then 32 else 0))

/-- A cause word (*cr.cause*). -/
def causeWord (code access nested : Nat) (int : Bool) : Word :=
  BitVec.ofNat 64 (code % 256 + access % 16 * 256 + nested % 256 * 65536 + (if int then 2 ^ 63 else 0))

/-- Enters a vector at S: the S copies are written in one step (R336). -/
def enterS (vec epc cause bad : Word) (miss : Bool) (c : OctCore) : OctCore :=
  { c with
    estatusS := c.status, epcS := epc, causeS := cause, badS := bad
    status := entryStatus c.status 1 miss, pc := vec }

/-- Enters a vector at M: the M copies are written in one step (R336). -/
def enterM (vec epc cause bad : Word) (c : OctCore) : OctCore :=
  { c with
    estatusM := c.status, epcM := epc, causeM := cause, badM := bad
    status := entryStatus c.status 2 false, pc := vec }

/-- The M vector base: COH_CODE_BASE0 (*Vectors*). -/
def State.mBase (s : State) : Word := BitVec.ofNat 64 (s.getB .COH_CODE_BASE_BASE 0 * 2 ^ 21)

/-- What an access was, as cr.cause.ACCESS codes it. -/
inductive Access where
  | fetch | load | store | amo | input | output | ldi | sti | push | pop | none
  deriving DecidableEq, Repr

/-- The ACCESS code (*cr.cause*). -/
def accessCode : Access → Nat
  | .fetch | .none => 0
  | .load => 1
  | .store => 2
  | .amo => 3
  | .input => 4
  | .output => 5
  | .ldi => 6
  | .sti => 7
  | .push => 8
  | .pop => 9

/-- Taking a synchronous exception (R335, R336, R338, R389): to M as a double fault while TLBM is 1; to M when raised at
M, inside an enclave, or as an enclave fault; otherwise to S, a TLB miss loading cr.tlbhi and clearing cr.tlblo. -/
def takeException (mBase : Word) (code : Nat) (access : Access) (bad : Word) (c : OctCore) : OctCore :=
  let a := accessCode access
  if stTlbm c.status then enterM (mBase + 0x100) c.pc (causeWord 0x10 a code false) bad c
  else
    let miss := code == 3 || code == 4
    let c := if miss then
        { c with tlbhi := BitVec.ofNat 64 (wbits bad 47 12 * 4096 + wbits c.asid 15 0 * 2 ^ 48), tlblo := 0 }
      else c
    if stPl c.status = 2 ∨ stWorld c.status ≠ 0 ∨ code = 0x0E then
      enterM (mBase + 0x180) c.pc (causeWord code a 0 false) bad c
    else
      let vec : Word := if code = 3 then 0 else if code = 4 then 0x80 else 0x100
      enterS (c.vbase + vec) c.pc (causeWord code a 0 false) bad miss c

/-- Entering the M vector for MCALL (R331): cr.epc is the next instruction and cr.badaddr the service. -/
def takeMcall (mBase next service : Word) (c : OctCore) : OctCore :=
  if stTlbm c.status then enterM (mBase + 0x100) c.pc (causeWord 0x10 0 0x0D false) service c
  else enterM (mBase + 0x80) next (causeWord 0x0D 0 0 false) service c

/-- Taking an interrupt (R336, R339): inside an enclave to M vector 0x200, else to S vector 0x180. -/
def takeInterrupt (mBase : Word) (src : Nat) (c : OctCore) : OctCore :=
  if stWorld c.status ≠ 0 then enterM (mBase + 0x200) c.pc (causeWord src 0 0 true) 0 c
  else enterS (c.vbase + 0x180) c.pc (causeWord src 0 0 true) 0 false c

/-- The shift of a TLB entry's page: 4 KiB, 64 KiB, 2 MiB, 1 GiB (*cr.tlbhi*). -/
def pageShift (size : Nat) : Nat :=
  match size with
  | 0 => 12
  | 1 => 16
  | 2 => 21
  | _ => 30

/-- Whether an entry matches a virtual address under a tag (R383). -/
def tlbMatch (tag va : Nat) (e : TlbEnt) : Bool :=
  let sh := pageShift (wbits e.hi 1 0)
  e.lo.toNat.testBit 0 && (e.hi.toNat.testBit 2 || wbits e.hi 63 48 == tag) &&
  bits va 47 0 / 2 ^ sh == wbits e.hi 47 0 / 2 ^ sh

/-- The entry that translates an address: a locked match, else the most recently written (R383). -/
def tlbFind (t : KV TlbEnt) (tag va : Nat) : Option TlbEnt :=
  let m := (kvVals t).filter (tlbMatch tag va)
  match m.find? (fun e => e.lo.toNat.testBit 5) with
  | some e => some e
  | none => m.foldl (fun b e => match b with
      | none => some e
      | some x => if x.stamp ≤ e.stamp then some e else some x) none

/-- The physical address an entry gives. -/
def tlbPhys (e : TlbEnt) (va : Nat) : Nat :=
  let sh := pageShift (wbits e.hi 1 0)
  wbits e.lo 45 0 / 2 ^ sh * 2 ^ sh + va % 2 ^ sh

/-- Whether bits [63:48] of an address equal bit 47 (R381). -/
def canonical (va : Nat) : Bool := bits va 63 48 == (if va.testBit 47 then 0xFFFF else 0)

/-- What a translation asks of an entry: the bit of cr.tlblo. -/
inductive Need where
  | read | write | both | exec
  deriving DecidableEq, Repr

/-- Whether an entry allows an access at a level (R383, *cr.tlblo*). -/
def allows (e : TlbEnt) (need : Need) (pl : Nat) : Bool :=
  let l := e.lo.toNat
  (match need with
    | .read => l.testBit 1
    | .write => l.testBit 2
    | .both => l.testBit 1 && l.testBit 2
    | .exec => l.testBit 3) && (pl != 0 || l.testBit 4)

/-- Translation (R381, R383): the physical address, or the cause code. `miss` and `prot` are the codes for no match and
for a match without the right. At M it is off (R313). -/
def translate (on : Bool) (t : KV TlbEnt) (tag pl : Nat) (need : Need) (miss prot va : Nat) : Except Nat Nat :=
  if on && pl != 2 then
    if canonical va then
      match tlbFind t tag va with
      | none => .error miss
      | some e => if allows e need pl then .ok (tlbPhys e va) else .error prot
    else .error 7
  else if va < 2 ^ 46 then .ok va else .error 7

/-- The code region an address lies in, among those fetch sees (R322, R325). -/
def regionOf (l : List CodeRegion) (pa : Nat) : Option CodeRegion :=
  l.find? (fun r => decide (r.base ≤ pa) && decide (pa < r.limit))

/-- The valid code regions as the COH registers hold them. -/
def State.codeRegions (s : State) : List CodeRegion :=
  (List.range 4).filterMap (fun n =>
    if s.onB .COH_CODE_BASE_VALID n then
      some { base := s.getB .COH_CODE_BASE_BASE n * 2 ^ 21, limit := s.getB .COH_CODE_LIMIT_LIMIT n * 2 ^ 21,
             monly := s.onB .COH_CODE_BASE_MONLY n }
    else none)

/-- Fetching one parcel: its physical address, or the cause of the fetch fault (R322, R332, R337). -/
def fetchParcel (s : State) (c : OctCore) (va : Nat) : Except Nat Nat :=
  match translate (stIt c.status) c.seenItlb (wbits c.seenAsid 15 0) (stPl c.status) .exec 3 5 va with
  | .error e => .error e
  | .ok pa =>
    match regionOf c.seenCode pa with
    | none => .error 7
    | some r =>
      if r.monly && stPl c.status != 2 then .error 5
      else if (match s.inEnclave pa with | some w => w != stWorld c.status | none => false) then .error 0x0E
      else if dramSize ≤ pa then .error 7
      else if (cohLine (lineOf pa) s).1.2 then .error 8
      else .ok pa

/-- The first parcel that cannot be fetched, with its cause (R322). DEDUCED, log entry 82. -/
def fetchFault (s : State) (c : OctCore) (parcels : Nat) : Option (Nat × Word) :=
  (List.range parcels).findSome? (fun i =>
    let va := c.pc + BitVec.ofNat 64 (2 * i)
    match fetchParcel s c va.toNat with
    | .error e => some (e, va)
    | .ok _ => none)

/-- The world of the enclave range the running instruction was fetched from; 0 outside every range (R332). -/
def fetchWorld (s : State) (c : OctCore) : Nat :=
  match fetchParcel s c c.pc.toNat with
  | .ok pa => (s.inEnclave pa).getD 0
  | .error _ => 0

/-- What an instruction comes to. `ok`: the core is changed and the instruction retires. `jump`: it also transfers.
`exc`: it raises an exception. `stall`: it waits for a line or a drain and is run again as the instruction given. -/
inductive Eff where
  | ok (f : OctCore → OctCore) (s : State)
  | jump (f : OctCore → OctCore) (target : Word) (s : State)
  | exc (code : Nat) (access : Access) (bad : Word) (s : State)
  | mcall (service : Word) (s : State)
  | eret (f : OctCore → OctCore) (s : State)
  | stall (i : Instr) (s : State)

/-- The state with a core changed. -/
def State.modCore (s : State) (k : Nat) (f : OctCore → OctCore) : State := { s with cores := kvMod s.cores k f }

/-- An instruction retires (R311, *cr.retire*): the count goes up by one and the pc moves to `next`. -/
def retireTo (next : Word) (c : OctCore) : OctCore := { c with pc := next, retire := c.retire + 1 }

/-- Carries out what an instruction comes to, on core `k`; `len` is its length in bytes. DEDUCED, log entry 82. -/
def finish (k : Nat) (pc len : Word) : Eff → State
  | .ok f s => s.modCore k (fun c => retireTo (pc + len) (f c))
  | .jump f t s => s.modCore k (fun c => retireTo t (f c))
  | .exc code a bad s => s.modCore k (takeException s.mBase code a bad)
  | .mcall v s => s.modCore k (fun c =>
      { takeMcall s.mBase (pc + len) v c with retire := if stTlbm c.status then c.retire else c.retire + 1 })
  | .eret f s => s.modCore k (fun c => let d := f c; { d with retire := d.retire + 1 })
  | .stall i s => s.modCore k (fun c => { c with wait := some i })

/-- The guard of an instruction (R320). -/
def guardOf (c : OctCtx) (k : OctCore) : Bool := k.pr c.gP != c.gN

/-- An instruction after its fetch, in the order of R337: the prefix sequence, the guard (false: a no-op that retires, R320),
the fixed fields, then the instruction's own work. -/
def issue (c : OctCtx) (k : OctCore) (body : OctCore → State → Eff) (s : State) : Eff :=
  if !c.prefixOk then .exc 1 .none 0 s
  else if !guardOf c k then .ok id s
  else if !c.fieldsOk then .exc 1 .none 0 s
  else body k s

/-! ## Tuber's own core (R340, *Tuber resources*) -/

/-- Tuber's ROM: 64 KiB at 0. -/
def inTuberRom (a : Nat) : Bool := decide (a < 0x10000)

/-- Tuber's SRAM: 2 MiB at 0x1000_0000. -/
def inTuberSram (a : Nat) : Bool := decide (0x10000000 ≤ a ∧ a < 0x10200000)

/-- The state with Tuber's core changed. -/
def State.modTuber (s : State) (f : OctCore → OctCore) : State :=
  { s with tub := { s.tub with core := s.tub.core.map f } }

/-- Entering a vector of Tuber's core, always at M; it has one copy of each register. DESIGN CHOICE, log entry 35. -/
def enterTuber (vec epc cause bad : Word) (c : OctCore) : OctCore :=
  { c with estatusM := c.status, epcM := epc, causeM := cause, badM := bad, status := 2, pc := vec }

/-- The first parcel that Tuber's core cannot fetch. -/
def tuberFetchFault (c : OctCore) (parcels : Nat) : Option Word :=
  ((List.range parcels).map (fun i => c.pc + BitVec.ofNat 64 (2 * i))).find? (fun va =>
    !inTuberRom va.toNat && !inTuberSram va.toNat)

/-- Carries out what an instruction of Tuber's core comes to. DESIGN CHOICE, log entry 35. -/
def finishTuber (pc len : Word) : Eff → State
  | .ok f s => s.modTuber (fun c => retireTo (pc + len) (f c))
  | .jump f t s => s.modTuber (fun c => retireTo t (f c))
  | .exc code a bad s => s.modTuber (enterTuber 0x100 pc (causeWord code (accessCode a) 0 false) bad)
  | .mcall v s => s.modTuber (fun c =>
      { enterTuber 0x100 (pc + len) (causeWord 0x0D 0 0 false) v c with retire := c.retire + 1 })
  | .eret f s => s.modTuber (fun c => let d := f c; { d with retire := d.retire + 1 })
  | .stall _ s => s

/-- Runs one instruction on Tuber's core, while it has power. DESIGN CHOICE, log entry 35. -/
def octipTuber (c : OctCtx) (body : OctCore → State → Eff) (s : State) : State :=
  match s.tub.core with
  | none => s
  | some k =>
    if c.core ≠ 0 then s
    else
      match tuberFetchFault k c.parcels with
      | some bad => finishTuber k.pc 0 (.exc 7 .fetch bad s)
      | none => finishTuber k.pc (BitVec.ofNat 64 (2 * c.parcels)) (issue c k body s)

/-! ## Running an instruction -/

/-- Runs one instruction on a main core: fetch faults first, then `issue`. A core that does not exist, does not run or waits
for an earlier instruction does nothing. -/
def octipMain (c : OctCtx) (body : OctCore → State → Eff) (s : State) : State :=
  match kvGet? s.cores (coreKey c) with
  | none => s
  | some k =>
    let len : Word := BitVec.ofNat 64 (2 * c.parcels)
    if k.run != .running || k.wait.isSome then s
    else
      match fetchFault s k c.parcels with
      | some (code, bad) =>
        let s := if code = 8 then s.bump .MEM_POISON_READS_COUNT else s
        if stPl k.status = 2 ∧ [0, 0x80, 0x100, 0x180, 0x200].contains (k.pc - s.mBase) then
          s.modCore (coreKey c) (fun d => enterM (s.mBase + 0x100) d.pc (causeWord 0x10 0 code false) bad d)
        else finish (coreKey c) k.pc len (.exc code .fetch bad s)
      | none => finish (coreKey c) k.pc len (issue c k body s)

/-- Runs one instruction whose work differs on Tuber's core (pod 16): `body` on a main core, `tuber` there (R340). -/
def octipOn (c : OctCtx) (body tuber : OctCore → State → Eff) (s : State) : State :=
  if c.pod = 16 then octipTuber c tuber s else octipMain c body s

/-- Runs one instruction whose work is the same on every core. -/
def octip (c : OctCtx) (body : OctCore → State → Eff) (s : State) : State := octipOn c body body s

/-- An instruction that only writes the core. -/
def pureOp (f : OctCore → OctCore) (_ : OctCore) (s : State) : Eff := .ok f s

/-- Illegal instruction. -/
def illegal (s : State) : Eff := .exc 1 .none 0 s

/-- Privileged instruction. -/
def privileged (s : State) : Eff := .exc 2 .none 0 s

/-- Runs one instruction that Octip-S does not have (R340). DESIGN CHOICE, log entry 35. -/
def octipNotS (c : OctCtx) (body : OctCore → State → Eff) (s : State) : State := octipOn c body (fun _ s => illegal s) s

end Sys2Proof.Machine
end

