-- ==== Sys2Proof/Machine/OctipS.lean ====
section
/-!
DEFINITION. What Octip-S changes beside leaving instructions out (R340): accesses reach Tuber's ROM and SRAM physically, there
are levels U and M, no banked copies, no worlds and no stores that wait.
-/

namespace Sys2Proof.Machine

/-- A byte as Tuber's core reads it. -/
def State.tuberByte (s : State) (a : Nat) : Byte := if inTuberRom a then Config.romByte a else cellGet s.tub.sram a

/-- The first piece of an access of `n` bytes at `va` that lies outside the ROM and the SRAM, or, for a store, outside the
SRAM; an access cut at 8-byte boundaries. -/
def tuberFault (writes : Bool) (va : Word) (n : Nat) : Option Word :=
  let ok := fun a => inTuberSram a || (!writes && inTuberRom a)
  let cut := if va.toNat % 8 + n ≤ 8 then [(0, n)] else [(0, 8 - va.toNat % 8), (8 - va.toNat % 8, n - (8 - va.toNat % 8))]
  (cut.find? (fun p => let a := (va + BitVec.ofNat 64 p.1).toNat
    !(ok a && ok (a + p.2 - 1)))).map (fun p => va + BitVec.ofNat 64 p.1)

/-- The number in `n` bytes at an address. -/
def State.tuberRead (s : State) (va : Word) (n : Nat) : Nat :=
  leNat ((List.range n).map (fun i => s.tuberByte (va.toNat + i)))

/-- The state with bytes stored in Tuber's SRAM. -/
def tuberWrite (va : Word) (d : List Byte) (s : State) : State :=
  { s with tub := { s.tub with sram := cellPut s.tub.sram va.toNat d } }

/-- A load of Tuber's core. DESIGN CHOICE, log entry 35. -/
def tuberLoad (acc : Access) (va : Word) (n : Nat) (k : Nat → State → Eff) (s : State) : Eff :=
  match tuberFault false va n with
  | some a => .exc 7 acc a s
  | none => k (s.tuberRead va n) s

/-- A store of Tuber's core. DESIGN CHOICE, log entry 35. -/
def tuberStore (va : Word) (n v : Nat) (s : State) : Eff :=
  match tuberFault true va n with
  | some a => .exc 7 .store a s
  | none => .ok id (tuberWrite va (leBytes n v) s)

/-- An access of Tuber's core to the I/O space: alignment, then its own window; a read there gives a free value (R340). DESIGN CHOICE, log entry 35. -/
def tuberIo (acc : Access) (a n : Nat) (k : Nat → State → Eff) (s : State) : Eff :=
  if a % n ≠ 0 then .exc 0x0C acc (BitVec.ofNat 64 a) s
  else if !Config.tuberWindow a then .exc 9 acc (BitVec.ofNat 64 a) s
  else
    let (x, s) := s.draw
    k (Config.freeNat x) s

/-- The control register of Tuber's core that number `kk` names at a level, or the exception. -/
def tuberCtl (k : OctCore) (kk : Nat) : Except Nat Nat :=
  if 12 ≤ kk ∨ (5 ≤ kk ∧ kk ≤ 8) ∨ kk = 10 then .error 1
  else if stPl k.status = 0 ∧ kk < 9 then .error 2
  else .ok kk

/-- The bits its control registers hold: no IT, DT, TLBM and WORLD, and no floating-point flags. -/
def tuberMask (n : Nat) : Word :=
  match n with
  | 0 | 1 => 0x7
  | 9 => 0x300
  | _ => 0xFFFFFFFFFFFFFFFF

/-- Whether a status names a level that exists there: U or M. -/
def tuberLevel (v : Word) : Bool := stPl v == 0 || stPl v == 2

/-- A core with the state of a core start, at an address of Tuber's. -/
def tuberFresh (pc : Word) : OctCore := { run := .running, pc := pc, status := 2 }

/-- Tuber's core comes out of reset, its SRAM zero (*Tuber resources*, R547). DESIGN CHOICE, log entry 35. -/
def tuberReset (s : State) : State := { s with tub := { s.tub with core := some (tuberFresh 0), sram := [] } }

/-- Tuber's core leaves the ROM for its firmware, loaded into the SRAM (R534). DESIGN CHOICE, log entry 35. -/
def tuberEnter (entry load : Nat) (body : List Byte) (s : State) : State :=
  let s := s.modTuber (fun k => { k with pc := BitVec.ofNat 64 entry })
  { s with tub := { s.tub with sram := cellPut s.tub.sram load body } }

end Sys2Proof.Machine
end

