-- ==== Sys2Proof/Machine/OctipMem.lean ====
section
/-!
DEFINITION. Octip accesses to the data space and the instruction space: checks, store buffer, loads, stores, atomic
operations, calls (R322, R323, R326, R329, R330, R332, R337, R370 to R380, R403 to R407).
-/

namespace Sys2Proof.Machine

/-- What a data access needs beside its address. -/
structure Want where
  need : Need
  access : Access
  writes : Bool
  amo : Bool := false
  deriving DecidableEq, Repr

/-- An access cut at 8-byte boundaries, as pairs of offset and length; an aligned access is one piece (R372). -/
def vaPieces (va n : Nat) : List (Nat × Nat) :=
  let r := va % 8
  if r + n ≤ 8 then [(0, n)] else [(0, 8 - r), (8 - r, n - (8 - r))]

/-- The checks of one piece in the order of R337: DTLB miss and protection, a store into a code region (R323), enclave
(R332), and the address itself (R303, R326, R390, R406). The physical address, or the cause code. -/
def checkPiece (s : State) (c : OctCore) (w : Want) (world va n : Nat) (aligned : Bool) : Except Nat Nat :=
  match translate (stDt c.status) c.dtlb (wbits c.asid 15 0) (stPl c.status) w.need 4 6 va with
  | .error e => .error e
  | .ok pa =>
    if w.writes && (regionOf s.codeRegions pa).isSome then .error 6
    else if (match s.inEnclave pa with | some x => x != world | none => false) then .error 0x0E
    else if pa + n ≤ dramSize then .ok pa
    else if inJournalWindow pa && aligned && !stTlbm c.status && !w.amo && (!w.writes || inFwArea pa) then .ok pa
    else .error 7

/-- The checks of an access of `n` bytes: the physical pieces, or the cause and the address of the first fault in
address order (R337). DEDUCED, log entry 81. -/
def checkAccess (s : State) (c : OctCore) (w : Want) (va : Word) (n : Nat) :
    Except (Nat × Word) (List (Nat × Nat)) :=
  let aligned := va.toNat % n == 0
  if w.amo && !aligned then .error (0x0C, va)
  else
    (vaPieces va.toNat n).mapM (fun (o, m) =>
      let a := va + BitVec.ofNat 64 o
      match checkPiece s c w (fetchWorld s c) a.toNat m aligned with
      | .error e => .error (e, a)
      | .ok pa => .ok (pa, m))

/-- Bytes of memory overlaid with the core's own stores that are still buffered (R373: a load returns the core's own
latest store). -/
def forward (buf : List BufStore) (pa : Nat) (d : List Byte) : List Byte :=
  buf.foldl (fun d b =>
    (d.zipIdx).map (fun (x, i) =>
      if b.addr ≤ pa + i ∧ pa + i < b.addr + b.data.length then b.data.getD (pa + i - b.addr) 0 else x)) d

/-- What reading memory for a load comes to. -/
inductive Got where
  | data (d : List Byte) (s : State)
  | poison (s : State)
  | wait (s : State)

/-- Reads one physical piece for a core: from the journal window uncached, else from a line the pod holds or gets
(R303, R397, R407). -/
def loadPiece (pod : Nat) (buf : List BufStore) (pa n : Nat) (s : State) : Got :=
  if inJournalWindow pa then
    match windowRead (pa - 0x3F0000000000) n s with
    | (some d, s) => .data (forward buf pa d) s
    | (none, s) => .poison s
  else
    match acquire pod (lineOf pa) false s with
    | none => .wait s
    | some s =>
      match s.coh.l2At pod (lineOf pa) with
      | none => .wait s
      | some e => if e.poison then .poison s else .data (forward buf pa ((e.data.drop (pa % 128)).take n)) s

/-- Reads the pieces of a load in address order; the index of a poisoned piece is reported. DESIGN CHOICE, log entry 40. -/
def loadPieces (pod : Nat) (buf : List BufStore) : List (Nat × Nat) → State → Got
  | [], s => .data [] s
  | (pa, n) :: t, s =>
    match loadPiece pod buf pa n s with
    | .data d s =>
      match loadPieces pod buf t s with
      | .data e s => .data (d ++ e) s
      | g => g
    | g => g

/-- The origin code of a core. -/
def coreOrigin (pod core : Nat) (c : OctCore) : Nat :=
  originCode (.fw pod core (stWorld c.status) (stPl c.status))

/-- The physical pod that runs a logical one (POD_MAP). -/
def State.physPod (s : State) (pod : Nat) : Nat := bits (s.get .POD_MAP_MAP) (4 * pod + 3) (4 * pod)

/-- A pod's error source is raised as a UE; POD_STATUS.ERR reads 1 while it is unacknowledged. -/
def podError (pod base access kind addr origin : Nat) (s : State) : State :=
  raiseUe (s.physPod pod) base access kind addr origin (s.setB .POD_STATUS_ERR pod 1)

/-- Performs one buffered store (R379, R380): none while its line, or the MRAM controller, cannot take it. A store that
meets poison is discarded and raises the pod's source. -/
def performStore (pod core : Nat) (c : OctCore) (b : BufStore) (s : State) : Option State :=
  if inJournalWindow b.addr then (if s.mramTakes then some (fwAreaWrite b.addr b.data s) else none)
  else
    match acquire pod (lineOf b.addr) true s with
    | none => none
    | some s =>
      match s.coh.l2At pod (lineOf b.addr) with
      | none => none
      | some e =>
        if e.poison then some (podError pod 1 2 1 (lineOf b.addr * 128) (coreOrigin pod core c) s)
        else some (modifyLine pod (lineOf b.addr) (b.addr % 128) b.data s)

/-- Drains a store buffer from its oldest entry, at most `n` entries; true when it is empty. -/
def drainStores : Nat → Nat → Nat → State → Bool × State
  | 0, k, _, s => (((kvGet? s.cores k).map (·.buf.isEmpty)).getD true, s)
  | n + 1, k, fuel, s =>
    match kvGet? s.cores k with
    | none => (true, s)
    | some c =>
      match c.buf with
      | [] => (true, s)
      | b :: t =>
        match performStore (k / 2) (k % 2) c b s with
        | none => (false, s)
        | some s => drainStores n k fuel (s.modCore k (fun c => { c with buf := t }))

/-- Drains the whole store buffer of core `k`. DESIGN CHOICE, log entry 85. -/
def drainCore (k : Nat) (s : State) : Bool × State :=
  drainStores (((kvGet? s.cores k).map (·.buf.length)).getD 0) k 0 s

/-- Puts the pieces of a store into the store buffer. DESIGN CHOICE, log entry 80. -/
def bufferPieces (rel : Bool) : List (Nat × Nat) → List Byte → OctCore → OctCore
  | [], _, c => c
  | (pa, n) :: t, d, c =>
    bufferPieces rel t (d.drop n) { c with buf := c.buf ++ [{ addr := pa, data := d.take n, rel := rel }] }

/-- Whether some piece lies in a poisoned line. -/
def piecesPoisoned (l : List (Nat × Nat)) (s : State) : Bool :=
  l.any (fun (pa, _) => decide (pa < dramSize) && (cohLine (lineOf pa) s).1.2)

/-- The bytes of an access size. -/
def sizeBytes (size : Nat) : Nat := 2 ^ size

/-- A load of `n` bytes at `va`; `k` takes its pieces and the number read. `i` is the instruction itself, run again after a wait. -/
def loadOp (i : Instr) (c : OctCtx) (acc : Access) (va : Word) (n : Nat) (k : List (Nat × Nat) → Nat → State → Eff) (core : OctCore)
    (s : State) : Eff :=
  match checkAccess s core { need := .read, access := acc, writes := false } va n with
  | .error (e, a) => .exc e acc a s
  | .ok l =>
    match loadPieces c.pod core.buf l s with
    | .data d s => k l (leNat d) s
    | .poison s => .exc 8 acc va (s.bump .MEM_POISON_READS_COUNT)
    | .wait s => .stall i s

/-- Puts the pieces of an ST into the store buffer; the two halves of a 16-byte-aligned block of DRAM stored by adjacent instructions
with the same O bit are one store (R371). -/
def bufferStore (rel : Bool) (l : List (Nat × Nat)) (d : List Byte) (c : OctCore) : OctCore :=
  match l, c.buf.getLast? with
  | [(pa, 8)], some e =>
    if pa % 16 = 8 ∧ e.addr + 8 = pa ∧ e.rel = rel ∧ e.half = some c.retire then
      { c with buf := c.buf.dropLast ++ [{ e with data := e.data ++ d, half := none }] }
    else { c with buf := c.buf ++ [{ addr := pa, data := d, rel := rel
                                     half := if pa % 16 = 0 ∧ pa < dramSize then some (c.retire + 1) else none }] }
  | [(pa, 8)], none =>
    { c with buf := [{ addr := pa, data := d, rel := rel
                       half := if pa % 16 = 0 ∧ pa < dramSize then some (c.retire + 1) else none }] }
  | l, _ => bufferPieces rel l d c

/-- A store of `n` bytes at `va` into the store buffer, which `put` makes. -/
def storeOp (acc : Access) (va : Word) (n : Nat) (put : List (Nat × Nat) → OctCore → OctCore) (core : OctCore) (s : State) : Eff :=
  match checkAccess s core { need := .write, access := acc, writes := true } va n with
  | .error (e, a) => .exc e acc a s
  | .ok l => .ok (put l) s

/-- What an LD of 8 bytes returns and leaves for the next instruction (R371): the high half of a block whose low half the instruction
before loaded is returned as it stood then. -/
def loadHalf (pod : Nat) (aq : Bool) (core : OctCore) (l : List (Nat × Nat)) (v : Nat) (s : State) : Nat × Option LoadHalf :=
  match l with
  | [(pa, 8)] =>
    let got := match core.half with
      | some h => if h.pa = pa ∧ h.aq = aq ∧ h.retire = core.retire then h.value else v
      | none => v
    (got, if pa % 16 = 0 ∧ pa < dramSize then (match loadPiece pod core.buf (pa + 8) 8 s with
        | .data d _ => some { pa := pa + 8, aq := aq, retire := core.retire + 1, value := leNat d }
        | _ => none) else none)
  | _ => (v, none)

/-- A loaded number in a register: sign-extended when asked (*Form M*). -/
def loadExt (sx : Bool) (n v : Nat) : Word := if sx then BitVec.ofInt 64 (sext v (8 * n)) else BitVec.ofNat 64 v

/-- LD (R319, R337, R371 to R374). `off` is the byte offset, composed and scaled. -/
def doOpLd (c : OctCtx) (size : Nat) (sx aq : Bool) (d a : Nat) (off : Word) (s : State) :
    State :=
  let put := fun (v : Nat) (x : OctCore) => x.setG d (loadExt sx (sizeBytes size) v)
  octipOn c (fun core => loadOp (.opLd c size sx aq d a off) c .load (core.gr a + off) (sizeBytes size) (fun l v s =>
      let h := loadHalf c.pod aq core l v s
      .ok (fun x => { put h.1 x with half := h.2 }) s) core)
    (fun core => tuberLoad .load (core.gr a + off) (sizeBytes size) (fun v s => .ok (put v) s)) s

/-- ST (R319, R323, R371 to R374, R379): a store with .RL is performed after every earlier one. -/
def doOpSt (c : OctCtx) (size : Nat) (rl : Bool) (d a : Nat) (off : Word) (s : State) :
    State :=
  octipOn c (fun core => storeOp .store (core.gr a + off) (sizeBytes size)
      (fun l => bufferStore rl l (leBytes (sizeBytes size) (core.gr d).toNat)) core)
    (fun core => tuberStore (core.gr a + off) (sizeBytes size) (core.gr d).toNat) s

/-- FLD (R310, R319): 4 bytes load a binary32 with the upper half all ones. -/
def doOpFld (c : OctCtx) (size : Nat) (aq : Bool) (d a : Nat) (off : Word) (s : State) :
    State :=
  (octipNotS c (fun core s =>
    if size < 2 then illegal s
    else
      loadOp (.opFld c size aq d a off) c .load (core.gr a + off) (sizeBytes size)
        (fun _ v s => .ok (fun k => k.setF d (BitVec.ofNat 64 (if size = 2 then 0xFFFFFFFF00000000 + v else v))) s)
        core s) s)

/-- FST (R319). -/
def doOpFst (c : OctCtx) (size : Nat) (rl : Bool) (d a : Nat) (off : Word) (s : State) :
    State :=
  (octipNotS c (fun core s =>
    if size < 2 then illegal s
    else storeOp .store (core.gr a + off) (sizeBytes size)
      (fun l => bufferPieces rl l (leBytes (sizeBytes size) (core.fr d).toNat)) core s) s)

/-- A transfer to `t`: a target with bit 0 set gives a misaligned-access fault (R330). -/
def transfer (f : OctCore → OctCore) (t : Word) (s : State) : Eff :=
  if t.toNat % 2 = 1 then .exc 0x0C .none t s else .jump f t s

/-- The address of the next instruction. -/
def nextPc (c : OctCtx) (core : OctCore) : Word := core.pc + BitVec.ofNat 64 (2 * c.parcels)

/-- A call to `t` (R329, R330): the next address is pushed at sp − 8. A push into a poisoned line is an exception (R407). DEDUCED, log entry 81. -/
def callTo (c : OctCtx) (t : Word) (core : OctCore) (s : State) : Eff :=
  let sp := core.gr 31 - 8
  if t.toNat % 2 = 1 then .exc 0x0C .none t s
  else
    match checkAccess s core { need := .write, access := .push, writes := true } sp 8 with
    | .error (e, a) => .exc e .push a s
    | .ok l =>
      if piecesPoisoned l s then .exc 8 .push sp (s.bump .MEM_POISON_READS_COUNT)
      else .jump (fun k => bufferPieces false l (leBytes 8 (nextPc c core).toNat) (k.setG 31 sp)) t s

/-- A call of Tuber's core. -/
def tuberCall (c : OctCtx) (t : Word) (core : OctCore) (s : State) : Eff :=
  let sp := core.gr 31 - 8
  if t.toNat % 2 = 1 then .exc 0x0C .none t s
  else
    match tuberFault true sp 8 with
    | some a => .exc 7 .push a s
    | none => .jump (fun k => k.setG 31 sp) t (tuberWrite sp (leBytes 8 (nextPc c core).toNat) s)

/-- JUMP: the offset counts parcels from the first parcel (*Long forms*). -/
def doOpJump (c : OctCtx) (off : Word) (s : State) : State :=
  (octip c (fun core s => transfer id (core.pc + 2 * off) s) s)

/-- CALL (R329). DEDUCED, log entry 81. -/
def doOpCall (c : OctCtx) (off : Word) (s : State) : State :=
  octipOn c (fun core => callTo c (core.pc + 2 * off) core) (fun core => tuberCall c (core.pc + 2 * off) core) s

/-- JUMPR (R330). -/
def doOpJumpr (c : OctCtx) (a : Nat) (s : State) : State :=
  (octip c (fun core s => transfer id (core.gr a) s) s)

/-- CALLR (R329, R330). -/
def doOpCallr (c : OctCtx) (a : Nat) (s : State) : State :=
  octipOn c (fun core => callTo c (core.gr a) core) (fun core => tuberCall c (core.gr a) core) s

/-- RET (R329, R330): the pop and the step of sp happen only with the transfer. -/
def doOpRet (c : OctCtx) (s : State) : State :=
  let k := fun (core : OctCore) (v : Nat) (s : State) =>
    transfer (fun x => x.setG 31 (core.gr 31 + 8)) (BitVec.ofNat 64 v) s
  octipOn c (fun core => loadOp (.opRet c) c .pop (core.gr 31) 8 (fun _ => k core) core)
    (fun core => tuberLoad .pop (core.gr 31) 8 (k core)) s

/-- The key of a predictor counter: core and bits [8:1] of the address (R405). DESIGN CHOICE, log entry 39. -/
def predKey (k : Nat) (va : Word) : Nat := k * 256 + wbits va 8 1

/-- Whether an AMO runs far (R405). DESIGN CHOICE, log entry 39. -/
def runsFar (m : AmoOp) (k : Nat) (va : Word) (s : State) : Bool :=
  if m.hint = 1 then false else if m.hint = 2 then true
  else !s.on .COH_CTL_PRED_OFF && decide (2 ≤ kvGet s.coh.pred (predKey k va) 0)

/-- The predictor after an AMO: the counter rises when the line's previous writer was another pod, else falls. DESIGN CHOICE, log entry 39. -/
def trainPred (pod k : Nat) (va : Word) (line : Nat) (s : State) : State :=
  s.withCoh (fun c =>
    let v := kvGet c.pred (predKey k va) 0
    let other := match kvGet? c.writer line with | some p => p != pod | none => false
    { c with pred := kvSet c.pred (predKey k va) (if other then min 3 (v + 1) else v - 1) })

/-- The line is brought to its home for a far AMO; every copy is given up. None while the line is transient. -/
def gatherHome (line : Nat) (s : State) : Option State :=
  if (s.coh.dirAt line).trans.isSome then none
  else
    let s := (s.coh.holders line).foldl (fun s q => evictCopy q line s) s
    let ((d, p), s) := cohLine line s
    some (l3Put line d false p s)

/-- The operation of an AMO on the old value and operand B: the new value, or nothing when no store happens. -/
abbrev AmoFun := Word → Word → Option Word

/-- The operands of an AMO as it compares them: those of 4 bytes as signed numbers of 32 bits (DESIGN CHOICE, log entry 21). -/
def amoVal (eight : Bool) (v : Nat) : Word := if eight then BitVec.ofNat 64 v else BitVec.ofInt 64 (sext v 32)

/-- What a 4-byte AMO leaves in g[D]: the old value below; the spec does not state bits [63:32], so they are a free value
(DESIGN CHOICE, log entry 21). -/
def amoUpper (x : Nat) (old : Word) : Word :=
  BitVec.ofNat 64 (old.toNat % 2 ^ 32 + Config.freeNat x % 2 ^ 32 * 2 ^ 32)

/-- The work of an AMO on a line that is at hand: old value to g[D], the result stored (R405, R406). DESIGN CHOICE, log entry 40. -/
def amoAt (c : OctCtx) (m : AmoOp) (f : AmoFun) (va : Word) (pa : Nat) (core : OctCore) (s : State) :
    Option (Eff) :=
  let k := coreKey c
  let line := lineOf pa
  let n := if m.eight then 8 else 4
  let far := runsFar m k va s
  match (if far then gatherHome line s else acquire c.pod line true s) with
  | none => none
  | some s =>
    let (data, poison) :=
      if far then (cohLine line s).1
      else match s.coh.l2At c.pod line with | some e => (e.data, e.poison) | none => (zeros 128, false)
    if poison then some (.exc 8 .amo va (s.bump .MEM_POISON_READS_COUNT))
    else
      let old := amoVal m.eight (fieldAt data (pa % 128) n)
      let b := if m.eight then core.gr m.b else amoVal false ((core.gr m.b).toNat % 2 ^ 32)
      let s := s.bump (if far then .COH_AMO_FAR_COUNT else .COH_AMO_NEAR_COUNT)
      let s := trainPred c.pod k va line s
      let (x, s) := s.draw
      let out := if m.eight then old else amoUpper x old
      let s := match f old b with
        | none => s
        | some v =>
          let d := leBytes n (v.toNat % 2 ^ (8 * n))
          if far then
            (l3Put line (overlay data (pa % 128) d) true false s).withCoh
              (fun h => { h with writer := kvSet h.writer line c.pod })
          else modifyLine c.pod line (pa % 128) d s
      some (.ok (fun k => k.setG m.d out) s)

/-- An AMO of Tuber's core, on its SRAM. -/
def tuberAmo (m : AmoOp) (f : AmoFun) (core : OctCore) (s : State) : Eff :=
  let va := core.gr m.a
  let n := if m.eight then 8 else 4
  if va.toNat % n ≠ 0 then .exc 0x0C .amo va s
  else if (tuberFault true va n).isSome then .exc 7 .amo va s
  else
    let old := amoVal m.eight (s.tuberRead va n)
    let b := if m.eight then core.gr m.b else amoVal false ((core.gr m.b).toNat % 2 ^ 32)
    let (x, s) := s.draw
    let s := match f old b with
      | none => s
      | some v => tuberWrite va (leBytes n (v.toNat % 2 ^ (8 * n))) s
    .ok (fun k => k.setG m.d (if m.eight then old else amoUpper x old)) s

/-- An AMO (R372, R373, R405, R406): buffered stores of the core drain first. -/
def amoOp (i : Instr) (c : OctCtx) (m : AmoOp) (f : OctCore → AmoFun) (s : State) : State :=
  octipOn c (fun core s =>
    let va := core.gr m.a
    match checkAccess s core { need := .both, access := .amo, writes := true, amo := true } va (if m.eight then 8 else 4) with
    | .error (e, a) => .exc e .amo a s
    | .ok [] => illegal s
    | .ok ((pa, _) :: _) =>
      match drainCore (coreKey c) s with
      | (false, s) => .stall i s
      | (true, s) => (amoAt c m (f core) va pa core s).getD (.stall i s))
    (fun core => tuberAmo m (f core) core) s

/-- AMO ADD. -/
def doAmoAdd (c : OctCtx) (m : AmoOp) (s : State) : State :=
  (amoOp (.amoAdd c m) c m (fun _ o b => some (o + b)) s)

/-- AMO SWAP. -/
def doAmoSwap (c : OctCtx) (m : AmoOp) (s : State) : State :=
  (amoOp (.amoSwap c m) c m (fun _ _ b => some b) s)

/-- AMO CAS: the store happens only when the old value equals g[C]. -/
def doAmoCas (c : OctCtx) (m : AmoOp) (cc : Nat) (s : State) : State :=
  (amoOp (.amoCas c m cc) c m (fun core o b =>
    let e := if m.eight then core.gr cc else amoVal false ((core.gr cc).toNat % 2 ^ 32)
    if o = e then some b else none) s)

/-- AMO AND. -/
def doAmoAnd (c : OctCtx) (m : AmoOp) (s : State) : State :=
  (amoOp (.amoAnd c m) c m (fun _ o b => some (o &&& b)) s)

/-- AMO OR. -/
def doAmoOr (c : OctCtx) (m : AmoOp) (s : State) : State :=
  (amoOp (.amoOr c m) c m (fun _ o b => some (o ||| b)) s)

/-- AMO XOR. -/
def doAmoXor (c : OctCtx) (m : AmoOp) (s : State) : State :=
  (amoOp (.amoXor c m) c m (fun _ o b => some (o ^^^ b)) s)

/-- AMO MAX, of signed values (DESIGN CHOICE, log entry 21). -/
def doAmoMax (c : OctCtx) (m : AmoOp) (s : State) : State :=
  (amoOp (.amoMax c m) c m (fun _ o b => some (if o.slt b then b else o)) s)

/-- AMO MIN, of signed values (DESIGN CHOICE, log entry 21). -/
def doAmoMin (c : OctCtx) (m : AmoOp) (s : State) : State :=
  (amoOp (.amoMin c m) c m (fun _ o b => some (if b.slt o then b else o)) s)

/-- The physical address of an instruction-space access (R322, R323, R332): through the ITLB when IT is 1, only inside a
code region. -/
def checkInstrSpace (s : State) (c : OctCore) (w : Bool) (va : Nat) : Except Nat Nat :=
  match translate (stIt c.status) c.itlb (wbits c.asid 15 0) (stPl c.status) (if w then .write else .read) 3 5 va with
  | .error e => .error e
  | .ok pa =>
    match regionOf s.codeRegions pa with
    | none => .error 7
    | some r =>
      if w && r.monly && stPl c.status != 2 then .error 5
      else if (match s.inEnclave pa with | some x => x != fetchWorld s c | none => false) then .error 0x0E
      else if dramSize ≤ pa then .error 7 else .ok pa

/-- The pieces of an instruction-space access. -/
def instrPieces (s : State) (c : OctCore) (w : Bool) (va : Word) (n : Nat) :
    Except (Nat × Word) (List (Nat × Nat)) :=
  (vaPieces va.toNat n).mapM (fun (o, m) =>
    let a := va + BitVec.ofNat 64 o
    match checkInstrSpace s c w a.toNat with
    | .error e => .error (e, a)
    | .ok pa => .ok (pa, m))

/-- LDI (R319, R322, R337): sizes 2, 4 and 8, zero-extended, not at U. -/
def doOpLdi (c : OctCtx) (size d a : Nat) (off : Word) (s : State) : State :=
  (octipNotS c (fun core s =>
    let va := core.gr a + off
    if size = 0 then illegal s
    else if stPl core.status = 0 then privileged s
    else
      match instrPieces s core false va (sizeBytes size) with
      | .error (e, b) => .exc e .ldi b s
      | .ok l =>
        if piecesPoisoned l s then .exc 8 .ldi va (s.bump .MEM_POISON_READS_COUNT)
        else
          let v := leNat (l.flatMap (fun (pa, n) => ((cohLine (lineOf pa) s).1.1.drop (pa % 128)).take n))
          .ok (fun k => k.setG d (BitVec.ofNat 64 v)) s) s)

/-- Writes the pieces of an STI through their homes (R323). -/
def stiPieces (c : OctCtx) (core : OctCore) : List (Nat × Nat) → List Byte → State → Option State
  | [], _, s => some s
  | (pa, n) :: t, d, s =>
    match performStore c.pod c.core core { addr := pa, data := d.take n } s with
    | none => none
    | some s => stiPieces c core t (d.drop n) s

/-- STI (R319, R323, R337): sizes 2, 4 and 8, not at U, only inside a code region; into a region with MONLY only at M. -/
def doOpSti (c : OctCtx) (size d a : Nat) (off : Word) (s : State) : State :=
  (octipNotS c (fun core s =>
    let va := core.gr a + off
    if size = 0 then illegal s
    else if stPl core.status = 0 then privileged s
    else
      match instrPieces s core true va (sizeBytes size) with
      | .error (e, b) => .exc e .sti b s
      | .ok l =>
        (match stiPieces c core l (leBytes (sizeBytes size) (core.gr d).toNat) s with
         | none => Eff.stall (.opSti c size d a off) s
         | some s => .ok id s)) s)

end Sys2Proof.Machine
end

