-- ==== Sys2Proof/Machine/OctipSys.lean ====
section
/-!
DEFINITION. Octip system instructions: fences, calls into M, return from exception, control registers, TLB, starting a
core, interrupts (R311 to R313, R331 to R339, R374 to R390, R421).
-/

namespace Sys2Proof.Machine

/-- FENCE (R375): every buffered store is performed first. DESIGN CHOICE, log entry 80. -/
def doOpFence (c : OctCtx) (s : State) : State :=
  octipOn c (fun _ s =>
    match drainCore (coreKey c) s with
    | (true, s) => .ok id s
    | (false, s) => .stall (.opFence c) s) (pureOp id) s

/-- FENCE.C (R376): also waits until accepted MRAM writes are in both copies. DESIGN CHOICE, log entry 80. -/
def doOpFenceC (c : OctCtx) (s : State) : State :=
  octipOn c (fun _ s =>
    match drainCore (coreKey c) s with
    | (true, s) => if s.jnl.writes = 0 then .ok id s else .stall (.opFenceC c) s
    | (false, s) => .stall (.opFenceC c) s) (pureOp id) s

/-- What fetch sees from the next ISYNC on (R323, R325, R386). -/
def refetch (s : State) (k : OctCore) : OctCore :=
  { k with seenItlb := k.itlb, seenAsid := k.asid, seenCode := s.codeRegions }

/-- ISYNC (R323, R325, R386). -/
def doOpIsync (c : OctCtx) (s : State) : State := octipOn c (fun _ s => .ok (refetch s) s) (pureOp id) s

/-- MCALL (R331): illegal at M, else it enters the M vector with the service number. -/
def doOpMcall (c : OctCtx) (service : Nat) (s : State) : State :=
  (octip c (fun core s =>
    if stPl core.status = 2 then illegal s else .mcall (BitVec.ofNat 64 service) s) s)

/-- BRK (*Exception causes*): a breakpoint with its service number. -/
def doOpBrk (c : OctCtx) (service : Nat) (s : State) : State :=
  (octip c (fun _ s => .exc 0x0F .none (BitVec.ofNat 64 service) s) s)

/-- Pending interrupt sources of a core as a mask (POD_INT_PEND). DESIGN CHOICE, log entry 43. -/
def State.intPend (s : State) (k : Nat) : Nat := s.getB .POD_INT_PEND_LATCHED k + s.getB .POD_INT_PEND_LEVEL k * 4

/-- WFI (R339): it retires and stalls the core until an interrupt is pending, even a masked one. The spec names no interrupt
source of Tuber's core, so there the wait ends at once (DESIGN CHOICE, log entry 35). DESIGN CHOICE, log entry 43. -/
def doOpWfi (c : OctCtx) (s : State) : State :=
  octipOn c (fun _ s =>
    .ok (fun k => if s.intPend (coreKey c) = 0 then { k with run := .wfi } else k) s) (pureOp id) s

/-- A control register by number, `m` choosing the M copy (*Control registers*). -/
def ctlRead (k : OctCore) (n : Nat) (m : Bool) : Word :=
  match n with
  | 0 => k.status
  | 1 => if m then k.estatusM else k.estatusS
  | 2 => if m then k.epcM else k.epcS
  | 3 => if m then k.causeM else k.causeS
  | 4 => if m then k.badM else k.badS
  | 5 => k.vbase
  | 6 => k.asid
  | 7 => k.tlbhi
  | 8 => k.tlblo
  | 9 => k.astat
  | 10 => k.fctl
  | _ => k.retire

/-- The bits a control register holds (*cr.status*, *cr.cause*, *cr.tlbhi*, *cr.tlblo*): the fields marked 0 stay 0. DESIGN CHOICE, log entry 36. -/
def ctlMask (n : Nat) : Word :=
  match n with
  | 0 | 1 => 0x73F
  | 2 => 0xFFFFFFFFFFFFFFFE
  | 3 => 0x8000000000FF0FFF
  | 5 => 0x3FFFFFFFF000
  | 6 => 0xFFFF
  | 7 => 0xFFFFFFFFFFFFF007
  | 8 => 0x3FFFFFFFF03F
  | 9 => 0x31F
  | 10 => 0x7
  | _ => 0xFFFFFFFFFFFFFFFF

/-- cr.status after a CRW at S: only IE, IT and DT change (R313). -/
def statusAtS (old v : Word) : Word := (old &&& ~~~0x1C) ||| (v &&& 0x1C)

/-- A control register written (R312, R313). A write of the read-only cr.retire is ignored (R8) and cr.fctl keeps its mode for 5 to 7. DESIGN CHOICE, log entry 9. DESIGN CHOICE, log entry 36. -/
def ctlWrite (k : OctCore) (n : Nat) (m : Bool) (v : Word) : OctCore :=
  let w := v &&& ctlMask n
  match n with
  | 0 => { k with status := if stPl k.status = 2 then w else statusAtS k.status w }
  | 1 => if m then { k with estatusM := w } else { k with estatusS := w }
  | 2 => if m then { k with epcM := w } else { k with epcS := w }
  | 3 => if m then { k with causeM := w } else { k with causeS := w }
  | 4 => if m then { k with badM := w } else { k with badS := w }
  | 5 => { k with vbase := w }
  | 6 => { k with asid := w }
  | 7 => { k with tlbhi := w }
  | 8 => { k with tlblo := w }
  | 9 => { k with astat := w }
  | 10 => if 5 ≤ w.toNat then k else { k with fctl := w }
  | _ => k

/-- What an access to control register `kk` (number with its bank bit) comes to before its effect (R312): the exception,
or the register number and whether the M copy is meant. -/
def ctlCheck (k : OctCore) (kk : Nat) : Except Nat (Nat × Bool) :=
  let n := kk % 32
  let bank := kk / 32 % 2 == 1
  let pl := stPl k.status
  if 12 ≤ n ∨ 64 ≤ kk then .error 1
  else if pl = 0 then (if n < 9 then .error 2 else .ok (n, false))
  else if pl = 1 then (if bank then .error 1 else .ok (n, false))
  else .ok (n, decide (1 ≤ n ∧ n ≤ 4) && !bank)

/-- CRR (R312). -/
def doOpCrr (c : OctCtx) (d k : Nat) (s : State) : State :=
  octipOn c (fun core s =>
    match ctlCheck core k with
    | .error e => .exc e .none 0 s
    | .ok (n, m) => .ok (fun x => x.setG d (ctlRead core n m)) s)
    (fun core s =>
    match tuberCtl core k with
    | .error e => .exc e .none 0 s
    | .ok n => .ok (fun x => x.setG d (ctlRead core n true)) s) s

/-- CRW (R312, R313): a write of PL 3 to cr.status at M is illegal. -/
def doOpCrw (c : OctCtx) (k a : Nat) (s : State) : State :=
  octipOn c (fun core s =>
    match ctlCheck core k with
    | .error e => .exc e .none 0 s
    | .ok (n, m) =>
      let v := core.gr a
      if n = 0 ∧ stPl core.status = 2 ∧ wbits v 1 0 = 3 then illegal s
      else .ok (fun x => ctlWrite x n m v) s)
    (fun core s =>
    match tuberCtl core k with
    | .error e => .exc e .none 0 s
    | .ok n =>
      let v := core.gr a
      if n = 0 ∧ !tuberLevel v then illegal s
      else .ok (fun x => ctlWrite x n true (v &&& tuberMask n)) s) s

/-- Whether an ERET at M to a world other than 0 is allowed in the mode (R333). -/
def State.worldMode (s : State) : Bool :=
  s.mode == Mode.fiddlehead || s.mode == Mode.maintenance || s.mode == Mode.crust

/-- The status a return at S restores: only M can raise the level to M or enter a world (R331, R333; DESIGN CHOICE, log entry 22). -/
def eretStatusS (v : Word) : Word := v &&& 0x3F

/-- ERET (R333, R336): restores cr.status from the level's cr.estatus and goes to its cr.epc. DESIGN CHOICE, log entry 22. DESIGN CHOICE, log entry 36. -/
def doOpEret (c : OctCtx) (s : State) : State :=
  octipOn c (fun core s =>
    let pl := stPl core.status
    if pl = 0 then privileged s
    else if pl = 1 then
      if 2 ≤ stPl core.estatusS then illegal s
      else .eret (fun k => { k with status := eretStatusS k.estatusS, pc := k.epcS }) s
    else if stPl core.estatusM = 3 then illegal s
    else if stWorld core.estatusM ≠ 0 ∧ !s.worldMode then .exc 0x0E .none core.epcM s
    else .eret (fun k => { k with status := k.estatusM &&& 0x73F, pc := k.epcM }) s)
    (fun core s =>
    if stPl core.status = 0 then privileged s
    else if !tuberLevel core.estatusM then illegal s
    else .eret (fun k => { k with status := k.estatusM &&& 0x7, pc := k.epcM }) s) s

/-- The TLB a command names. -/
def tlbOf (k : OctCore) (itlb : Bool) : KV TlbEnt := if itlb then k.itlb else k.dtlb

/-- The core with a TLB replaced. -/
def setTlb (k : OctCore) (itlb : Bool) (t : KV TlbEnt) : OctCore :=
  if itlb then { k with itlb := t } else { k with dtlb := t }

/-- Entries of a TLB: 48 in the ITLB, 64 in the DTLB. -/
def tlbSize (itlb : Bool) : Nat := if itlb then 48 else 64

/-- Whether an entry is locked and valid. -/
def tlbLocked (e : TlbEnt) : Bool := e.lo.toNat.testBit 0 && e.lo.toNat.testBit 5

/-- Whether an entry is valid. -/
def tlbValid (e : TlbEnt) : Bool := e.lo.toNat.testBit 0

/-- Whether two entries have the same TAG, VA and SIZE. -/
def tlbSame (a b : TlbEnt) : Bool := tlbValid a && (a.hi &&& ~~~0x4) == (b.hi &&& ~~~0x4)

/-- An entry as TLBW writes it: VA and PA bits below the page size are not kept (R382). -/
def tlbMake (hi lo : Word) (stamp : Nat) : TlbEnt :=
  let sh := pageShift (wbits hi 1 0)
  let low : Word := BitVec.ofNat 64 (2 ^ sh - 2 ^ 12)
  { hi := hi &&& ctlMask 7 &&& ~~~low, lo := lo &&& ctlMask 8 &&& ~~~low, stamp := stamp }

/-- The entry TLBW writes (R383): a match, else an invalid one, else the oldest unlocked one. -/
def tlbSlot (t : KV TlbEnt) (size : Nat) (e : TlbEnt) : Option Nat :=
  match t.find? (fun p => tlbSame p.2 e) with
  | some p => some p.1
  | none =>
    match (List.range size).find? (fun i => match kvGet? t i with | some x => !tlbValid x | none => true) with
    | some i => some i
    | none =>
      let old := (t.filter (fun p => !tlbLocked p.2)).mergeSort (fun a b => decide (a.2.stamp ≤ b.2.stamp))
      (old.head?).map (·.1)

/-- TLBW (R382 to R385): a ninth locked entry is an illegal instruction. -/
def doOpTlbw (c : OctCtx) (itlb : Bool) (s : State) : State :=
  (octipNotS c (fun core s =>
    if stPl core.status = 0 then privileged s
    else
      let t := tlbOf core itlb
      let e := tlbMake core.tlbhi core.tlblo core.stamp
      match tlbSlot t (tlbSize itlb) e with
      | none => illegal s
      | some i =>
        let locked := (t.filter (fun p => tlbLocked p.2 && p.1 != i)).length
        if e.lo.toNat.testBit 5 ∧ 8 ≤ locked then illegal s
        else .ok (fun k => { setTlb k itlb (kvSet (tlbOf k itlb) i e) with stamp := k.stamp + 1 }) s) s)

/-- TLBR (R383): an index out of range loads zeros. DESIGN CHOICE, log entry 9. -/
def doOpTlbr (c : OctCtx) (itlb : Bool) (a : Nat) (s : State) : State :=
  (octipNotS c (fun core s =>
    if stPl core.status = 0 then privileged s
    else
      let i := (core.gr a).toNat
      let e := if i < tlbSize itlb then kvGet? (tlbOf core itlb) i else none
      .ok (fun k => { k with tlbhi := (e.map (·.hi)).getD 0, tlblo := (e.map (·.lo)).getD 0 }) s) s)

/-- A TLB without the entries `p` names. -/
def tlbDrop (itlb : Bool) (p : TlbEnt → Bool) (k : OctCore) : OctCore :=
  setTlb k itlb ((tlbOf k itlb).filter (fun e => !p e.2))

/-- A TLB invalidation, not at U (R384). -/
def tlbInvalidate (c : OctCtx) (itlb : Bool) (p : OctCore → TlbEnt → Bool) (s : State) : State :=
  octipNotS c (fun core s =>
    if stPl core.status = 0 then privileged s else .ok (tlbDrop itlb (p core)) s) s

/-- TLBI.A: every entry that covers the address with the tag, or with G = 1. DESIGN CHOICE, log entry 9. -/
def doOpTlbiA (c : OctCtx) (itlb : Bool) (a b : Nat) (s : State) : State :=
  (tlbInvalidate c itlb (fun core => tlbMatch (wbits (core.gr b) 15 0) (core.gr a).toNat) s)

/-- TLBI.T: every entry with the tag and G = 0. -/
def doOpTlbiT (c : OctCtx) (itlb : Bool) (a : Nat) (s : State) : State :=
  (tlbInvalidate c itlb (fun core e =>
    wbits e.hi 63 48 == wbits (core.gr a) 15 0 && !e.hi.toNat.testBit 2) s)

/-- TLBI.ALL: every unlocked entry. DESIGN CHOICE, log entry 9. -/
def doOpTlbiAll (c : OctCtx) (itlb : Bool) (s : State) : State :=
  (tlbInvalidate c itlb (fun _ e => !tlbLocked e) s)

/-- TLBI.LK: every locked entry. -/
def doOpTlbiLk (c : OctCtx) (itlb : Bool) (s : State) : State :=
  (tlbInvalidate c itlb (fun _ => tlbLocked) s)

/-- A core with the state of a core start (R311): at M from the start of code region 0 (*Vectors*). Fetch sees the code
regions as they stand. DESIGN CHOICE, log entry 2. -/
def freshCore (s : State) (pc : Word) (pl : Nat) : OctCore :=
  { run := .running, pc := pc, status := BitVec.ofNat 64 pl, seenCode := s.codeRegions }

/-- Starts one core at the M vector. -/
def startCore (k : Nat) (s : State) : State := { s with cores := kvSet s.cores k (freshCore s s.mBase 2) }

/-- CORE_START (R311, *Vectors*): a core whose pod exists, is not offline and whose domain runs starts at the M vector
0x000. In a CHECKED pod only core 0 is a logical core. -/
def doCoreStart (pod core : Nat) (s : State) : State :=
  if s.coreUp && decide (pod < s.get .POD_SPARES_LOGICAL) && s.getB .POD_MODE_MODE pod != 3 &&
      (core == 0 || s.getB .POD_MODE_MODE pod == 1) then
    (startCore (pod * 2 + core) s)
  else s

/-- The lowest source that is pending, enabled and at its agreed boundary (R339, R421). -/
def State.takeable (s : State) (k : Nat) (c : OctCore) : Option Nat :=
  (List.range 7).find? (fun n =>
    (s.intPend k).testBit n && (s.getB .POD_INT_EN_EN k).testBit n &&
    (match kvGet? c.bounds n with | some b => decide (b ≤ c.retire.toNat) | none => true))

/-- Whether the core takes interrupts now (R339): IE at U or S in the normal world; always inside an enclave; never at
M. -/
def intOpen (c : OctCore) : Bool :=
  stPl c.status != 2 && (stWorld c.status != 0 || stIe c.status) && !stTlbm c.status

/-- INTERRUPT_TAKE (R336, R337, R339, R390, R421): a core at an instruction boundary takes its lowest interrupt. -/
def doInterruptTake (pod core : Nat) (s : State) : State :=
  let k := pod * 2 + core
  match kvGet? s.cores k with
  | none => s
  | some c =>
    if c.run != .running || c.wait.isSome || !intOpen c then s
    else
      match s.takeable k c with
      | none => s
      | some n =>
        (s.modCore k (fun c => { takeInterrupt s.mBase n c with bounds := kvDel c.bounds n }))

/-- Raises source 0 of a core (POD_IPI_SET); a core that does not run takes no notice. -/
def raiseIpi (pod core : Nat) (s : State) : State :=
  if kvHas s.cores (pod * 2 + core) then pendInt (pod * 2 + core) 0 s else s

/-- IPI_RAISE (POD_IPI_SET, R339): any core may write it; no other origin reaches the core registers (R439). -/
def doIpiRaise (by_ : Origin) (pod core : Nat) (s : State) : State :=
  if isFw by_ then (raiseIpi pod core s) else s

/-- TIMECMP_MATCH (POD_TIMECMP): source 1 is set when TIM_NOW has reached TIME, once for each write of it. -/
def doTimecmpMatch (pod core : Nat) (s : State) : State :=
  let k := pod * 2 + core
  match kvGet? s.cores k with
  | none => s
  | some c =>
    if c.timed then s
    else pendInt k 1 ((timeTo (s.getB .POD_TIMECMP_TIME k) s).modCore k (fun c => { c with timed := true }))

end Sys2Proof.Machine
end

