-- ==== Sys2Proof/Machine/IoCheck.lean ====
section
/-!
DEFINITION. The checks of IN and OUT before the register is reached, and which blocks are dark (R14, R327, R328).
-/

namespace Sys2Proof.Machine

/-- Whether the power domain of the block at an I/O address is dark: TUBER for TMB, L3 for COH and POD, the memory domain
with the active front ends for MEM, CSS for CSS and ENG, both media domains for MPT, both ring domains for RNG, HOST for
HST (DEDUCED, log entry 23). -/
def State.blockDark (s : State) (a : Nat) : Bool :=
  let off := fun n => !s.pdOn n
  match a / 0x10000 with
  | 0x08 | 0x10 => off 18
  | 0x14 => off (20 + s.get .MEM_STRIPE_STATUS_FE_ACTIVE)
  | 0x20 | 0x28 => off 30
  | 0x30 => off 31 && off 32
  | 0x38 => off 34 && off 35
  | 0x40 => off 33
  | 0x50 => off 1
  | _ => false

/-- Whether block `b` is granted to a level (COH_IOGRANT_S, COH_IOGRANT_U). -/
def State.granted (s : State) (pl b : Nat) : Bool :=
  if pl = 2 then true
  else if 128 ≤ b then false
  else if pl = 1 then s.bitB .COH_IOGRANT_S_BLOCKS (b / 64) (b % 64)
  else s.bitB .COH_IOGRANT_U_BLOCKS (b / 64) (b % 64)

/-- The checks of an IN or OUT of `n` bytes, in order (R327, R328, R337): the cause code of the first that fails. DESIGN CHOICE, log entry 42. -/
def ioCheck (s : State) (c : OctCore) (out : Bool) (a n : Nat) : Option Nat :=
  if a % n ≠ 0 then some 0x0C
  else if !s.granted (stPl c.status) (a / 0x10000) then some 9
  else if out && decide (0x100800 ≤ a ∧ a < 0x100C00) && stPl c.status != 2 then some 9
  else if 0x800000 ≤ a then some 7
  else if s.blockDark a then some 0x0A
  else none

/-- An OUT of a core: after the checks, `k` does the register's part. DESIGN CHOICE, log entry 42. -/
def outOp (a n : Nat) (k : OctCore → State → Eff) (core : OctCore) (s : State) : Eff :=
  match ioCheck s core true a n with
  | some e => .exc e .output (BitVec.ofNat 64 a) s
  | none => k core s

end Sys2Proof.Machine
end

