-- ==== Sys2Proof/Machine/Command.lean ====
section
/-!
DEFINITION. Commands given by a register write: which origin reaches the register, and the order of check, change-log
entry and effect (R13, R14, R493, R601, R602).
-/

namespace Sys2Proof.Machine

/-- The I/O address of a register's first copy. -/
def regBase (r : Reg) : Nat := r.info.base

/-- A read through a BAR0 to a dark block (R493). -/
def darkRead (s : State) : State := (s.set .HST_STATUS_DARK 1).bump .HST_DARK_COUNT

/-- A write through a BAR0 to a dark block: it is discarded at the crossing too (R493, R565). DEDUCED, log entry 23. -/
def darkAccess (s : State) : State := (darkRead s).bump .PWR_DARK_DROPS_COUNT

/-- Any other access discards the latched high half of a 64-bit register (R11). DESIGN CHOICE, log entry 14. -/
def dropLatch (s : State) : State := { s with hst := { s.hst with latch := none } }

/-- The state as an access of an origin to a register finds it: an act of hardware, of Tuber or of management is none. DESIGN CHOICE, log entry 14. -/
def accessed (o : Origin) (s : State) : State :=
  match o with
  | .pf | .vf _ | .fw .. | .debug => dropLatch s
  | _ => s

/-- Whether an origin reaches the DBG_ block: WV_DBGREG or the cores at M, unless DEBUG_KILL was blown before the start
(R4, R556). -/
def State.dbgReach (s : State) (o : Origin) : Bool :=
  !s.dbgKilled && (match o with
    | .debug => true
    | .fw _ _ _ l => l == 2
    | _ => false)

/-- Whether an origin has a way to an I/O address: through BAR0 only to the host-visible part and never from a VF (R13,
R494, R495); to the DBG_ block as `dbgReach` says; the debug port to any other block with unlock level 2 (*TAP
instructions*, WV_IOACC). -/
def State.wayTo (s : State) (o : Origin) (a : Nat) : Bool :=
  let dbg := a / 0x10000 == 0x60
  match o with
  | .pf => hostSees a
  | .vf _ => false
  | .fw .. => !dbg || s.dbgReach o
  | .debug => s.dbgReach o && (dbg || s.get .DBG_STATUS_GRANTED == 2)
  | _ => true

/-- An access that meets a dark block completes with the domain-off error (R14, R493). -/
def domainOff (o : Origin) (s : State) : State :=
  match o with
  | .pf => darkAccess s
  | .fw .. | .debug => s.emit (.domainOff (originCode o))
  | _ => s

/-- Does `act` when an access of an origin reaches a register: it has a way to it and the register's block has power. -/
def reach (o : Origin) (r : Reg) (act : State → State) (s : State) : State :=
  if s.mode = Mode.off then s
  else
    let s := accessed o s
    if !s.wayTo o (regBase r) then s
    else if s.blockDark (regBase r) then domainOff o s
    else act s

/-- A command of R601: its own checks, the first that fails giving RESULT; then the change-log entry, `refused` being the
RESULT where the log refuses it; then the effect. The entry has kind 1, the register as target, old 0 and the value
written as new. DESIGN CHOICE, log entry 17. -/
def command (o : Origin) (r : Reg) (v : Nat) (res : Fld) (refused : Nat) (checks : List (Bool × Nat))
    (act : State → State) (s : State) : State :=
  reach o r (fun s =>
    match checks.find? (·.1) with
    | some (_, code) => s.set res code
    | none => logged o 1 (regBase r) 0 v (fun s => s.set res refused) (fun s => act (s.set res 0)) s) s

/-- A command that has a BUSY bit: ignored while it reads 1 (R602). DESIGN CHOICE, log entry 17. -/
def busyCommand (o : Origin) (r : Reg) (busy : Fld) (v : Nat) (res : Fld) (refused : Nat) (checks : List (Bool × Nat))
    (act : State → State) (s : State) : State :=
  if s.on busy then accessed o s else command o r v res refused checks act s

end Sys2Proof.Machine
end

