-- ==== Sys2Proof/Machine/Keccak.lean ====
section
/-!
DEFINITION. SHA3-256 (FIPS 202) and CRC-64/XZ, two of the object digests of *Result area*. Log entry 8.
-/

namespace Sys2Proof.Machine

/-- A lane rotated left. -/
def rol64 (x n : Nat) : Nat := (x * 2 ^ n) % 2 ^ 64 ||| (x / 2 ^ (64 - n))

/-- The bit register that gives the round constants, after `t` steps (polynomial x^8 + x^6 + x^5 + x^4 + 1). -/
def keccakLfsr (t : Nat) : Nat :=
  t.repeat (fun r => if r < 128 then 2 * r else (2 * r) ^^^ 0x171) 1

/-- The constant of round `i`: bit 2^j - 1 is the register's low bit after j + 7 i steps. -/
def keccakConst (i : Nat) : Nat :=
  (List.range 7).foldl (fun c j => c + keccakLfsr (j + 7 * i) % 2 * 2 ^ (2 ^ j - 1)) 0

/-- The round constants of Keccak-f[1600]. -/
def keccakRC : List Nat := (List.range 24).map keccakConst

/-- The rotation of lane x + 5 y: the triangular numbers along the walk (x, y) → (y, 2 x + 3 y) from (1, 0). -/
def keccakRot : List Nat :=
  ((List.range 24).foldl (fun (w : (Nat × Nat) × List Nat) t =>
    ((w.1.2, (2 * w.1.1 + 3 * w.1.2) % 5), w.2.set (w.1.1 + 5 * w.1.2) ((t + 1) * (t + 2) / 2 % 64)))
    ((1, 0), List.replicate 25 0)).2

/-- One round on 25 lanes, lane x + 5 y. -/
def keccakRound (a : List Nat) (rc : Nat) : List Nat :=
  let g := fun (l : List Nat) x y => l.getD (x % 5 + 5 * (y % 5)) 0
  let c := (List.range 5).map (fun x => xorAll5 (g a x 0) (g a x 1) (g a x 2) (g a x 3) (g a x 4))
  let d := (List.range 5).map (fun x => c.getD ((x + 4) % 5) 0 ^^^ rol64 (c.getD ((x + 1) % 5) 0) 1)
  let a := (List.range 25).map (fun i => a.getD i 0 ^^^ d.getD (i % 5) 0)
  let b := (List.range 25).map (fun i =>
    let x := i % 5
    let y := i / 5
    let sx := (x + 3 * y) % 5
    let sy := x
    rol64 (g a sx sy) (keccakRot.getD (sx + 5 * sy) 0))
  (List.range 25).map (fun i =>
    let x := i % 5
    let y := i / 5
    let v := g b x y ^^^ ((2 ^ 64 - 1 - g b (x + 1) y) &&& g b (x + 2) y)
    if i = 0 then v ^^^ rc else v)
where
  xorAll5 (a b c d e : Nat) : Nat := a ^^^ b ^^^ c ^^^ d ^^^ e

/-- The permutation. -/
def keccakF (a : List Nat) : List Nat := keccakRC.foldl keccakRound a

/-- SHA3-256 of a message: 32 bytes. PRESUMED, log entry 8. -/
def sha3 (m : List Byte) : List Byte :=
  let fill := 136 - m.length % 136
  let pad : List Byte := if fill = 1 then [0x86] else [0x06] ++ zeros (fill - 2) ++ [0x80]
  let a := (pieces 136 (m ++ pad)).foldl (fun a blk =>
    keccakF ((List.range 25).map (fun i => a.getD i 0 ^^^ (if i < 17 then fieldAt blk (8 * i) 8 else 0))))
    (List.replicate 25 0)
  ((a.take 4).flatMap (leBytes 8))

/-- CRC-64/XZ of a message. PRESUMED, log entry 8. -/
def crc64 (m : List Byte) : Nat :=
  (m.foldl (crcByte 0xC96C5795D7870F42) 0xFFFFFFFFFFFFFFFF) ^^^ 0xFFFFFFFFFFFFFFFF

end Sys2Proof.Machine
end

