-- ==== Sys2Proof/Machine/Maint.lean ====
section
/-!
DEFINITION. Cache maintenance by address and locked lines (R401 to R404).
-/

namespace Sys2Proof.Machine

/-- COH_MAINT_ADDR written by core `k`: it sets COH_MAINT_PROG too (R403). -/
def setMaintAddr (k v : Nat) (s : State) : State :=
  (s.setB .COH_MAINT_ADDR_ADDR k (bits v 45 7)).setB .COH_MAINT_PROG_NEXT k (bits v 45 7)

/-- Locked lines of a pod in the L2 set of a line. DESIGN CHOICE, log entry 37. -/
def lockedInSet (pod line : Nat) (c : CohState) : List (Nat × L2Line) :=
  c.l2.filter (fun p => p.1 / 2 ^ 31 == pod && l2Set (p.1 % 2 ^ 31) == l2Set line && p.2.locked)

/-- Ways a pod reserves for locked lines (COH_L2LOCK): values above 4 act as 4. -/
def State.lockWays (s : State) (pod : Nat) : Nat := 16 - s.l2Ways pod

/-- Marks a pod's copy of a line locked or not. -/
def setLocked (pod line : Nat) (b : Bool) (s : State) : State :=
  s.withCoh (fun c => { c with l2 := kvMod c.l2 (l2Key pod line) (fun e => { e with locked := b }) })

/-- LOCK of one line (R404): none while the line is transient; the flag says that it was skipped. -/
def lockLine (pod line : Nat) (s : State) : Option (Bool × State) :=
  let has := match s.coh.l2At pod line with | some e => e.locked | none => false
  if has then some (false, s)
  else if s.lockWays pod ≤ (lockedInSet pod line s.coh).length then some (true, s)
  else
    match acquire pod line false s with
    | none => none
    | some s => some (false, setLocked pod line true s)

/-- What one line of a maintenance operation comes to. -/
inductive MtLine where
  | ok (s : State)
  | skipped (s : State)
  | wait (s : State)

/-- A fill in flight that an invalidation meets (R401): the fill is not to be installed and the operation waits for the
pod's acknowledgement. -/
def noInstallFill (line : Nat) (t : DirTrans) (s : State) : State :=
  s.withCoh (fun c =>
    let e := c.dirAt line
    let sn : List Snoop := if t.maint then c.snoops else c.snoops ++ [{ pod := t.pod, line := line, inval := true }]
    { c with dir := kvSet c.dir line { e with trans := some { t with maint := true } }, snoops := sn })

/-- One line of a maintenance operation (*Maintenance operations*, R401, R404). DESIGN CHOICE, log entry 79. -/
def mtLine (op pod line : Nat) (s : State) : MtLine :=
  match (s.coh.dirAt line).trans with
  | some t => if 2 ≤ op ∧ op ≤ 4 ∧ t.filling then .wait (noInstallFill line t s) else .wait s
  | none =>
    match op with
    | 1 => .ok (cleanLine line s)
    | 2 => .ok (purgeLine true line s)
    | 3 => .ok (purgeLine false line s)
    | 4 => .ok (putLine line (zeros 128) (purgeLine false line s))
    | 5 =>
      match lockLine pod line s with
      | none => .wait s
      | some (true, s) => .skipped s
      | some (false, s) => .ok s
    | _ => .ok (setLocked pod line false s)

/-- Runs an operation over `n` lines from `line`: whether it had to wait, the next line and the state. -/
def mtLines (op pod k : Nat) : Nat → Nat → State → Bool × Nat × State
  | 0, line, s => (false, line, s)
  | n + 1, line, s =>
    match mtLine op pod line s with
    | .wait s => (true, line, s)
    | .ok s => mtLines op pod k n (line + 1) s
    | .skipped s => mtLines op pod k n (line + 1) (s.setB .COH_MAINT_CMD_RESULT k 4)

/-- Whether the range of a maintenance command is refused: its RESULT (R402). -/
def mtCheck (op a len : Nat) (s : State) : Option Nat :=
  if len = 0 ∨ len % 128 ≠ 0 ∨ 2 ^ 30 < len then some 1
  else if dramSize < a + len then some 2
  else if op = 4 ∧ s.codeRegions.any (fun r => decide (a < r.limit) && decide (r.base < a + len)) then some 3
  else none

/-- The work of an OUT to COH_MAINT_CMD (R402 to R404): up to the end of the range, or one line when an interrupt is
pending and enabled. `i` is the instruction, run again after a wait. DESIGN CHOICE, log entry 79. -/
def mtRun (i : Instr) (op : Nat) (c : OctCtx) (core : OctCore) (s : State) : Eff :=
  let k := coreKey c
  let a := s.getB .COH_MAINT_ADDR_ADDR k * 128
  let len := s.getB .COH_MAINT_LEN_LEN k
  let s := s.setB .COH_MAINT_CMD_DONE k 0
  match mtCheck op a len s with
  | some r => .ok id (s.setB .COH_MAINT_CMD_RESULT k r)
  | none =>
    let first := s.getB .COH_MAINT_PROG_NEXT k
    let last := (a + len) / 128
    let s := if first * 128 = a then s.setB .COH_MAINT_CMD_RESULT k 0 else s
    let n := if intOpen core && (s.takeable k core).isSome then min 1 (last - first) else last - first
    let (waits, next, s) := mtLines op c.pod k n first s
    let s := s.setB .COH_MAINT_PROG_NEXT k next
    if waits then .stall i s
    else .ok id (if last ≤ next then s.setB .COH_MAINT_CMD_DONE k 1 else s)

/-- An OUT of an operation to COH_MAINT_CMD. -/
def mtOut (i : Instr) (op : Nat) (c : OctCtx) (s : State) : State :=
  octipOn c (outOp 0x100410 4 (mtRun i op c)) (fun _ => tuberIo .output 0x100410 4 (fun _ => .ok id)) s

/-- COH_MAINT_ADDR_WRITE: an OUT of 8 bytes to COH_MAINT_ADDR (R403). -/
def doCohMaintAddrWrite (c : OctCtx) (v : Nat) (s : State) : State :=
  octipOn c (outOp 0x100400 8 (fun _ s => .ok id (setMaintAddr (coreKey c) v s)))
    (fun _ => tuberIo .output 0x100400 8 (fun _ => .ok id)) s

/-- CLEAN. -/
def doMtClean (c : OctCtx) (s : State) : State := mtOut (.mtClean c) 1 c s

/-- CLEAN_INV. -/
def doMtCleanInv (c : OctCtx) (s : State) : State := mtOut (.mtCleanInv c) 2 c s

/-- INV. -/
def doMtInv (c : OctCtx) (s : State) : State := mtOut (.mtInv c) 3 c s

/-- ZERO. -/
def doMtZero (c : OctCtx) (s : State) : State := mtOut (.mtZero c) 4 c s

/-- LOCK. -/
def doMtLock (c : OctCtx) (s : State) : State := mtOut (.mtLock c) 5 c s

/-- UNLOCK. -/
def doMtUnlock (c : OctCtx) (s : State) : State := mtOut (.mtUnlock c) 6 c s

/-- The instruction a core waits with, run again. DESIGN CHOICE, log entry 79. -/
def runAgain (i : Instr) (s : State) : State :=
  match i with
  | .opLd c size sx aq d a off => doOpLd c size sx aq d a off s
  | .opFld c size aq d a off => doOpFld c size aq d a off s
  | .opRet c => doOpRet c s
  | .opFence c => doOpFence c s
  | .opFenceC c => doOpFenceC c s
  | .opSti c size d a off => doOpSti c size d a off s
  | .amoAdd c m => doAmoAdd c m s
  | .amoSwap c m => doAmoSwap c m s
  | .amoCas c m cc => doAmoCas c m cc s
  | .amoAnd c m => doAmoAnd c m s
  | .amoOr c m => doAmoOr c m s
  | .amoXor c m => doAmoXor c m s
  | .amoMax c m => doAmoMax c m s
  | .amoMin c m => doAmoMin c m s
  | .mtClean c => doMtClean c s
  | .mtCleanInv c => doMtCleanInv c s
  | .mtInv c => doMtInv c s
  | .mtZero c => doMtZero c s
  | .mtLock c => doMtLock c s
  | _ => s

/-- Runs the waiting instruction of one core again. DESIGN CHOICE, log entry 79. -/
def rerunCore (s : State) (k : Nat) : State :=
  match kvGet? s.cores k with
  | none => s
  | some c =>
    match c.wait with
    | none => s
    | some i => runAgain i (s.modCore k (fun c => { c with wait := none }))

/-- Runs the waiting instructions of all cores again. -/
def rerunAll (s : State) : State := (kvKeys s.cores).foldl rerunCore s

/-- Runs the waiting instructions of a pod's cores again. -/
def rerunPod (pod : Nat) (s : State) : State := [pod * 2, pod * 2 + 1].foldl rerunCore s

/-- MRAM_WRITE_COMPLETE (R297, R304): one accepted write is in both copies. -/
def doMramWriteComplete (s : State) : State :=
  rerunAll (s.withJnl (fun j => { j with writes := j.writes - 1 }))

/-- Whether two buffered stores meet in an 8-byte block. -/
def BufStore.meets (x b : BufStore) : Bool :=
  decide (x.addr / 8 ≤ (b.addr + b.data.length - 1) / 8) && decide (b.addr / 8 ≤ (x.addr + x.data.length - 1) / 8)

/-- The buffered stores that may be performed next: those with no earlier store to the same 8-byte block; a release
only after every earlier one (R373, R374); none that the next instruction may still make half of a pair (R371). DESIGN CHOICE,
log entry 80. -/
def drainable (retire : Word) (buf : List BufStore) : List Nat :=
  (List.range buf.length).filter (fun i =>
    match buf[i]? with
    | none => false
    | some b => b.half != some retire && (if b.rel then i == 0 else (buf.take i).all (fun x => !x.meets b)))

/-- Performs one buffered store of some core, which one being free (R373: stores to different addresses may be
reordered; DESIGN CHOICE, log entry 4). DESIGN CHOICE, log entry 85. -/
def drainOne (s : State) : State :=
  let ks := (s.cores.filter (fun p => !p.2.buf.isEmpty)).map (·.1)
  if ks.isEmpty then s
  else
    let (x, s) := s.draw
    let k := ks.getD (Config.freeNat x % ks.length) 0
    match kvGet? s.cores k with
    | none => s
    | some c =>
      let l := drainable c.retire c.buf
      let (y, s) := s.draw
      match (l[Config.freeNat y % max 1 l.length]?).bind (fun i => (c.buf[i]?).map (fun b => (i, b))) with
      | none => s
      | some (i, b) =>
        match performStore (k / 2) (k % 2) c b s with
        | none => s
        | some s => s.modCore k (fun c => { c with buf := c.buf.eraseIdx i })

end Sys2Proof.Machine
end

