-- ==== Sys2Proof/Machine/Coherence.lean ====
section
/-!
DEFINITION. The directory protocol message by message: requests, snoops, write-backs, fills and their answers (R397 to
R401), dead agents and cache scrub (R391, R408).
-/

namespace Sys2Proof.Machine

/-- Whether an agent's request can exist: the domain runs, the pod exists and the line lies in DRAM. -/
def State.cohLive (s : State) (pod line : Nat) : Bool :=
  s.coreUp && decide (pod < 16) && decide (line * 128 < dramSize)

/-- The request of a pod for a line that has been answered NACK. -/
def CohState.reqOf (c : CohState) (pod line : Nat) : Option CohReq :=
  c.reqs.find? (fun r => r.pod == pod && r.line == line)

/-- The requests without one. -/
def CohState.dropReq (c : CohState) (pod line : Nat) : CohState :=
  { c with reqs := c.reqs.filter (fun r => !(r.pod == pod && r.line == line)) }

/-- The request that holds its home's priority token: the oldest of the token queue (R398). -/
def CohState.tokenOf (c : CohState) (line : Nat) : Option CohReq :=
  c.reqs.find? (fun r => r.queued && homeSlice (r.line * 128) == homeSlice (line * 128))

/-- A NACK (R397, R398): at the sixteenth the request joins the token queue of its home when that holds fewer than 32. -/
def nack (pod line : Nat) (excl : Bool) (s : State) : State :=
  let s := s.bump .COH_NACKS_COUNT
  s.withCoh (fun c =>
    let r := (c.reqOf pod line).getD { pod := pod, line := line, excl := excl, nacks := 0 }
    let n := r.nacks + 1
    let room := (c.reqs.filter (fun x => x.queued && homeSlice (x.line * 128) == homeSlice (line * 128))).length
    let r := { r with nacks := n, excl := excl, queued := r.queued || (decide (16 ≤ n) && decide (room < 32)) }
    let c := c.dropReq pod line
    if r.queued then { c with reqs := c.reqs ++ [r] } else { c with reqs := r :: c.reqs })

/-- The pods a request has to snoop: for an exclusive request every other holder, for a shared one the owner. -/
def snoopTargets (pod line : Nat) (excl : Bool) (c : CohState) : List Nat :=
  if excl then (c.holders line).filter (· != pod)
  else
    match (c.dirAt line).owner with
    | some q => if q = pod then [] else [q]
    | none => []

/-- Serves a request at its home: the line enters a transient state and the snoops leave (R397). DESIGN CHOICE, log entry 38. -/
def serve (pod line : Nat) (excl token : Bool) (s : State) : State :=
  let l := snoopTargets pod line excl s.coh
  let s := if token then s.bump .COH_TOKENS_COUNT else s
  s.withCoh (fun c =>
    let c := c.dropReq pod line
    { c with
      dir := kvSet c.dir line
        { c.dirAt line with trans := some { pod := pod, excl := excl, left := l, filling := l.isEmpty, token := token } }
      snoops := c.snoops ++ l.map (fun q => { pod := q, line := line, inval := excl }) })

/-- A request reaches its home (R397 to R399): NACK while the line is transient, while another request holds the token
for it, or while no directory entry is free; else it is served. -/
def request (pod line : Nat) (excl : Bool) (s : State) : State :=
  if !s.cohLive pod line then s
  else
    let t := s.coh.tokenOf line
    let mine := match t with | some r => r.pod == pod && r.line == line | none => false
    let other := match t with | some r => r.line == line && r.pod != pod | none => false
    let busy := (s.coh.dirAt line).trans.isSome
    let own := match (s.coh.dirAt line).trans with | some x => x.pod == pod | none => false
    let hit := match s.coh.l2At pod line with | some e => !e.evicting && (!excl || e.st != .shared) | none => false
    if own || hit then s
    else if busy || other then nack pod line excl s
    else
      match dirRoom line s with
      | none => nack pod line excl s
      | some s => serve pod line excl mine s

/-- GET_SHARED. DESIGN CHOICE, log entry 38. -/
def doGetShared (pod line : Nat) (s : State) : State := request pod line false s

/-- GET_EXCLUSIVE. -/
def doGetExclusive (pod line : Nat) (s : State) : State := request pod line true s

/-- COH_NACK_RETRY: a request that was answered NACK is sent again (R397, R398). -/
def doCohNackRetry (pod line : Nat) (s : State) : State :=
  match s.coh.reqOf pod line with
  | none => s
  | some r => request pod line r.excl s

/-- Whether a pod's snoop answer is missing at the home of a line. -/
def CohState.snooped (c : CohState) (pod line : Nat) : Bool :=
  match (c.dirAt line).trans with
  | some t => t.left.contains pod
  | none => false

/-- The home has what pod `pod` owed it: when nothing is missing the data goes to the requester. -/
def answered (pod line : Nat) (c : CohState) : CohState :=
  let e := c.dirAt line
  match e.trans with
  | none => c
  | some t =>
    let l := t.left.filter (· != pod)
    { c with dir := kvSet c.dir line { e with trans := some { t with left := l, filling := t.filling || l.isEmpty } } }

/-- A write-back reaches the home: its data is taken as the owner's and the pod loses its mark (R399, R400). -/
def putArrives (pod line : Nat) (s : State) : State :=
  match s.coh.l2At pod line with
  | none => s
  | some e =>
    let waited := s.coh.snooped pod line
    let s := if e.st = .modified then l3Put line e.data true e.poison s else s
    s.withCoh (fun c =>
      let d := c.dirAt line
      let d := { d with sharers := clearBit d.sharers pod, owner := if d.owner = some pod then none else d.owner }
      let dir := if d.owner.isNone && d.sharers == 0 && d.trans.isNone then kvDel c.dir line else kvSet c.dir line d
      let c := { c with dir := dir, acks := c.acks ++ [l2Key pod line] }
      if waited then answered pod line c else c)

/-- Marks a pod's copy as being evicted. -/
def markEvicting (pod line : Nat) (s : State) : State :=
  s.withCoh (fun c => { c with l2 := kvMod c.l2 (l2Key pod line) (fun e => { e with evicting := true }) })

/-- PUT (R399, R400): a pod's unlocked copy enters EVICTING and its write-back reaches the home. A second PUT of the
same copy does not exist. -/
def doPutLine (pod line : Nat) (s : State) : State :=
  match s.coh.l2At pod line with
  | none => s
  | some e =>
    if e.locked || s.coh.acks.contains (l2Key pod line) then s
    else if e.evicting then rerunAll (putArrives pod line s)
    else if s.coh.snooped pod line then markEvicting pod line s
    else rerunAll (putArrives pod line (markEvicting pod line s))

/-- PUT_ACK (R400): the line leaves EVICTING. -/
def doPutAck (pod line : Nat) (s : State) : State :=
  if s.coh.acks.contains (l2Key pod line) then
    s.withCoh (fun c =>
      let gone := match c.l2At pod line with | some e => e.evicting | none => false
      { c with
        acks := c.acks.erase (l2Key pod line)
        l2 := if gone then kvDel c.l2 (l2Key pod line) else c.l2 })
  else s

/-- The snoop on its way to a pod. -/
def CohState.snoopOf (c : CohState) (pod line : Nat) (ans : Bool) : Option Snoop :=
  c.snoops.find? (fun x => x.pod == pod && x.line == line && x.ans == ans)

/-- A snoop replaced by its answer. -/
def answerSnoop (sn : Snoop) (ev : Bool) (c : CohState) : CohState :=
  { c with snoops := c.snoops.map (fun x => if x = sn then { sn with ans := true, evicting := ev } else x) }

/-- SNOOP (R399 to R401): a line in EVICTING answers so, with no data; a fill in flight is marked NOINSTALL, and
acknowledges when it has arrived; any other copy is given up or shared. -/
def doSnoop (pod line : Nat) (s : State) : State :=
  match s.coh.snoopOf pod line false with
  | none => s
  | some sn =>
    let e := s.coh.dirAt line
    let crossing := match s.coh.l2At pod line with | some x => x.evicting | none => false
    match e.trans with
    | some t =>
      if t.maint && t.pod == pod && t.filling then
        s.withCoh (fun c => { c with dir := kvSet c.dir line { e with trans := some { t with noInstall := true } } })
      else if crossing then (s.bump .COH_CROSSED_COUNT).withCoh (answerSnoop sn true)
      else
        let s := if sn.inval then evictCopy pod line s else downgrade pod line s
        s.withCoh (answerSnoop sn false)
    | none => s.withCoh (answerSnoop sn false)

/-- SNOOP_ANSWER (R400, R401): the home goes on with the request or the maintenance operation that waited. After
EVICTING it still waits for the write-back. -/
def doSnoopAnswer (pod line : Nat) (s : State) : State :=
  match s.coh.snoopOf pod line true with
  | none => s
  | some sn =>
    let s := s.withCoh (fun c => { c with snoops := c.snoops.erase sn })
    match (s.coh.dirAt line).trans with
    | none => s
    | some t =>
      if t.maint && t.pod == pod && !t.filling then
        rerunAll (s.withCoh (fun c => { c with dir := kvSet c.dir line { c.dirAt line with trans := none } }))
      else if sn.evicting && s.coh.snooped pod line && !s.coh.acks.contains (l2Key pod line) then s
      else s.withCoh (answered pod line)

/-- The line that has to leave an L2 set for a fill enters EVICTING. -/
def victimLeaves (pod line : Nat) (s : State) : State :=
  match l2Victim pod line s with
  | none => s
  | some v => markEvicting pod v s

/-- The state of a line that arrives at a pod (MESI). -/
def fillState (pod line : Nat) (excl : Bool) (c : CohState) : LineSt :=
  if excl || ((c.holders line).filter (· != pod)).isEmpty then .exclusive else .shared

/-- FILL_DATA (R397, R400, R401, R407): the data arrives, the line is installed and the waiting access completes. A fill
marked NOINSTALL leaves no copy. -/
def doFillData (pod line : Nat) (s : State) : State :=
  match (s.coh.dirAt line).trans with
  | none => s
  | some t =>
    if t.pod != pod || !t.filling then s
    else
      let ((d, p), s) := cohLine line s
      let s := if kvHas s.coh.l3 line then s else l3Put line d false p s
      let s := victimLeaves pod line s
      let s := installLine pod line (fillState pod line t.excl s.coh) d p s
      let s := rerunPod pod s
      let s := if t.noInstall then evictCopy pod line s else s
      let next : Option DirTrans := if t.maint then some { t with filling := false, left := [] } else none
      let s := s.withCoh (fun c =>
        let c := { c with dir := kvSet c.dir line { c.dirAt line with trans := next } }
        match c.snoopOf pod line false with
        | some sn => if t.noInstall then answerSnoop sn false c else c
        | none => c)
      rerunAll s

/-- A dead agent is captured and raises source 24 at level 2 (R408). -/
def doCohAgentTimeout (agent : Nat) (s : State) : State :=
  if s.coreUp && decide (agent ≤ 24) then
    let s := if s.on .COH_DEAD_VALID then s else (s.set .COH_DEAD_AGENT agent).set .COH_DEAD_VALID 1
    raiseUe 24 2 0 0 0 0 s
  else s

/-- COH_READY (R410, COH_CTL.READY): firmware services run; the interrupt the collector held is delivered (R444). -/
def cohReadyBit (s : State) : State :=
  let s := s.set .COH_CTL_READY 1
  let s := if s.get .COH_STATUS_DOMAIN = 2 then s.set .COH_STATUS_DOMAIN 3 else s
  if s.flt.irqHeld then
    fwFaultIrq { s with flt := { s.flt with irqHeld := false } }
  else s

end Sys2Proof.Machine
end

