-- ==== Sys2Proof/Machine/Pods.lean ====
section
/-!
DEFINITION. Pods: logical and physical numbers, lockstep, retry, sparing, SPLIT pods and warm restarts (R412 to R439).
-/

namespace Sys2Proof.Machine

/-- The fused spare list (R5, R412): two pods of the sixteen, which two being the part's; pods 14 and 15 are only its
default. DESIGN CHOICE, log entry 24. -/
def spareList : List Nat :=
  let a := Config.fusedBits 10 4
  let b := Config.fusedBits 11 4
  [a, if b = a then (a + 1) % 16 else b]

/-- The state of a physical pod (POD_PHYS): 0 ACTIVE, 1 SPARE, 2 FAILED, 3 unassigned. -/
def State.physState (s : State) (n : Nat) : Nat := bits (s.get .POD_PHYS_STATE) (2 * n + 1) (2 * n)

/-- Sets the state of a physical pod. -/
def setPhys (n v : Nat) (s : State) : State :=
  s.set .POD_PHYS_STATE (putBits (s.get .POD_PHYS_STATE) (2 * n + 1) (2 * n) v)

/-- The logical pod a physical pod runs. -/
def State.logicalOf (s : State) (n : Nat) : Option Nat :=
  (List.range (s.get .POD_SPARES_LOGICAL)).find? (fun p => s.physPod p == n)

/-- The map of logical pods, lowest first (POD_MAP). -/
def podMap : List Nat → Nat
  | [] => 0
  | n :: t => n + 16 * podMap t

/-- Assigns logical pods at a start of the core domain at level 3 (R412, R433): usable pods off the spare list first,
then those on it; the rest are spares. Every pod starts CHECKED but service pods with SPLIT_SERVICE. -/
def assignPods (s : State) : State :=
  let usable := (List.range 16).filter (fun n => s.physState n != 2)
  let order := usable.filter (fun n => !spareList.contains n) ++ usable.filter (fun n => spareList.contains n)
  let count := min (16 - spareList.length) order.length
  let used := order.take count
  let spares := order.drop count
  let s := used.foldl (fun s n => setPhys n 0 s) s
  let s := spares.foldl (fun s n => setPhys n 1 s) s
  let s := ((s.set .POD_MAP_MAP (podMap used)).set .POD_SPARES_LOGICAL count).set .POD_SPARES_LEFT spares.length
  (List.range 16).foldl (fun s p =>
    let service := s.bitB .POD_CFG_SERVICE 0 p
    let split := service && s.on .POD_CFG_SPLIT_SERVICE
    let s := s.setB .POD_MODE_MODE p (if count ≤ p then 3 else b2n split)
    let s := s.setB .POD_MODE_SERVICE p (b2n (service && decide (p < count)))
    (s.setB .POD_MODE_PARKED p 0).setB .POD_MODE_PHYS p (used.getD p 0)) s

/-- Starts every logical core at the M vector (R311, R409). -/
def startCores (s : State) : State :=
  (List.range (s.get .POD_SPARES_LOGICAL)).foldl (fun s p =>
    let s := startCore (2 * p) s
    if s.getB .POD_MODE_MODE p = 1 then startCore (2 * p + 1) s else s) s

/-- A pod beside its registers. -/
def State.podAt (s : State) (p : Nat) : PodSt := kvGet s.pods p {}

/-- The state with a pod changed. -/
def State.modPod (s : State) (p : Nat) (f : PodSt → PodSt) : State := { s with pods := kvSet s.pods p (f (s.podAt p)) }

/-- Both cores of a pod stop or go on. -/
def setRun (p : Nat) (r : CoreRun) (s : State) : State :=
  (s.modCore (2 * p) (fun c => { c with run := r })).modCore (2 * p + 1)
    (fun c => if c.run = .parked then c else { c with run := r })

/-- A physical pod is marked FAILED for the life of the module and its domain goes off (R413). -/
def failPhys (n : Nat) (s : State) : State := (setPhys n 2 s).setBitB .PWR_STATE_ON 0 (2 + n) false

/-- The lowest spare. -/
def State.spare (s : State) : Option Nat := (List.range 16).find? (fun n => s.physState n == 1)

/-- The change-log entry of a hardware record (kind 12). `block` is the block's I/O base. DESIGN CHOICE, log entry 19. -/
def logRecord (block old new : Nat) (s : State) : State := logHw 12 block old new s

/-- A hard fault (R418, R424 to R427, R430): with a spare the pod freezes and sparing begins; with none, or during the
pod's own sparing, a core-domain restart follows. `cause` 1 mismatch, 2 comparator, 3 array. DEDUCED, log entry 25. -/
def hardFault (p cause : Nat) (s : State) : State :=
  let n := s.physPod p
  match (s.podAt p).sparing with
  | some (old, _) =>
    let s := failPhys old s
    let s := match s.spare with | some m => failPhys m s | none => s
    podError p 2 0 0 0 0 (s.modPod p (fun x => { x with sparing := none }))
  | none =>
    match s.spare with
    | some _ => (setRun p .frozen s).modPod p (fun x => { x with sparing := some (n, cause), retry := 0 })
    | none => podError p 2 0 0 0 0 (failPhys n s)

/-- Whether a logical pod runs in lockstep. -/
def State.checkedPod (s : State) (p : Nat) : Bool :=
  decide (p < s.get .POD_SPARES_LOGICAL) && s.getB .POD_MODE_MODE p == 0 && kvHas s.cores (2 * p)

/-- LOCKSTEP_MISMATCH (R417, R419, R422 to R426): a first or second retry from the checkpoint, which is the core as it
has retired; then a hard fault. An uncorrectable checkpoint fails the pod. DESIGN CHOICE, log entry 41. -/
def doLockstepMismatch (pod lanes retire : Nat) (checkpointBad : Bool) (s : State) : State :=
  if !s.checkedPod pod then s
  else
    let s := (s.setB .POD_STATUS_LANES pod lanes).setB .POD_STATUS_RETIRE pod retire
    let x := s.podAt pod
    let limit := max 1 (s.get .POD_RETRY_CTL_LIMIT)
    if x.sparing.isSome then hardFault pod 1 s
    else if checkpointBad then podError pod 2 0 0 0 0 (failPhys (s.physPod pod) s)
    else if x.retry = 2 ∨ (x.retry = 0 ∧ limit < x.recent.length) then
      hardFault pod 1 (s.setB .POD_STATUS_COMPFAULT pod 0)
    else s.modPod pod (fun x => { x with retry := x.retry + 1 })

/-- COMPARATOR_FAULT (R418): a hard fault with no retry. -/
def doComparatorFault (pod : Nat) (s : State) : State :=
  if s.checkedPod pod then hardFault pod 2 (s.setB .POD_STATUS_COMPFAULT pod 1) else s

/-- RETRY_SUCCESS (R424, R426): counted, a CE of the pod's source. DESIGN CHOICE, log entry 41. -/
def doRetrySuccess (pod : Nat) (s : State) : State :=
  if s.checkedPod pod && decide ((s.podAt pod).retry ≠ 0) then
    let s := s.bumpB .POD_RETRIES_COUNT pod 1
    let s := s.modPod pod (fun x =>
      { x with retry := 0, recent := (x.recent.filter (fun t => decide (s.now < t + 1000000000))) ++ [s.now] })
    raiseCe (s.physPod pod) 0 0 0 0 s
  else s

/-- A pod's L2 is written back; its locked lines are refilled in the spare (R427). -/
def emptyL2 (pod : Nat) (s : State) : State :=
  let ls := (s.coh.l2.filter (fun p => p.1 / 2 ^ 31 == pod && !p.2.locked)).map (fun p => p.1 % 2 ^ 31)
  ls.foldl (fun s l => evictCopy pod l s) s

/-- The spare's core: unlocked TLB entries are not copied (R428). -/
def sparedCore (c : OctCore) : OctCore :=
  { c with
    run := .running
    itlb := c.itlb.filter (fun e => tlbLocked e.2), dtlb := c.dtlb.filter (fun e => tlbLocked e.2)
    seenItlb := c.seenItlb.filter (fun e => tlbLocked e.2) }

/-- The spare takes the number, slot and mode of a logical pod (R427, R428, R432). -/
def bringSpare (pod old new cause : Nat) (s : State) : State :=
  let s := failPhys old (setPhys new 0 s)
  let s := s.set .POD_MAP_MAP (putBits (s.get .POD_MAP_MAP) (4 * pod + 3) (4 * pod) new)
  let s := (s.setB .POD_MODE_PHYS pod new).set .POD_SPARES_LEFT (s.get .POD_SPARES_LEFT - 1)
  let s := s.bump .POD_SPARINGS_COUNT
  let s := logRecord 0x80000 (pod + old * 256) (new + cause * 256) s
  s.modPod pod (fun x => { x with sparing := none, retry := 0 })

/-- SPARING_COMPLETE (R427, R428): the spare runs from the checkpoint; the failing pod is FAILED; a level-1 notice. -/
def doSparingComplete (pod : Nat) (s : State) : State :=
  match (s.podAt pod).sparing, s.spare with
  | some (old, cause), some new =>
    let (_, s) := drainCore (2 * pod) s
    let s := bringSpare pod old new cause (emptyL2 pod s)
    let s := s.modCore (2 * pod) sparedCore
    noteFault
      { source := old, ue := true, base := 1, detail := detailOf old 1 true } (s.setB .POD_STATUS_ERR pod 1)
  | _, _ => s

/-- SPARING_TIMEOUT (R429): the failing pod's L2 is a dead agent and the pod is FAILED. -/
def doSparingTimeout (pod : Nat) (s : State) : State :=
  match (s.podAt pod).sparing with
  | none => s
  | some (old, _) => doCohAgentTimeout pod ((failPhys old s).modPod pod (fun x => { x with sparing := none }))

/-- Sets POD_CMD.RESULT. -/
def podResult (pod r : Nat) (s : State) : State := s.setB .POD_CMD_RESULT pod r

/-- Whether an origin is core `core` of a pod, the only source of POD_CMD (R436). -/
def ownCore (by_ : Origin) (pod : Nat) (core : Option Nat) : Bool :=
  match by_ with
  | .fw p c _ _ => p == pod && (match core with | some k => c == k | none => true)
  | _ => false

/-- Whether an address lies in a valid code region. -/
def State.inCode (s : State) (a : Nat) : Bool := (regionOf s.codeRegions a).isSome

/-- The entry addresses; bit 0 is reserved. -/
def State.splitEntry (s : State) (p : Nat) : Nat := s.getB .POD_SPLIT_ENTRY_ADDR p * 2
def State.restartEntry (s : State) (p : Nat) : Nat := s.getB .POD_RESTART_ENTRY_ADDR p * 2

/-- POD_CMD SPLIT (R434, R436). -/
def doPodSplit (by_ : Origin) (pod : Nat) (s : State) : State :=
  if !ownCore by_ pod none || s.getB .POD_MODE_MODE pod == 3 then s
  else if s.onB .POD_CMD_BUSY pod then podResult pod 4 s
  else if s.onB .POD_MODE_SERVICE pod then podResult pod 1 s
  else if !s.inCode (s.splitEntry pod) then podResult pod 5 s
  else if s.getB .POD_MODE_MODE pod ≠ 0 then podResult pod 0 s
  else
    let vb := ((kvGet? s.cores (2 * pod)).map (·.vbase)).getD 0
    let c := { freshCore s (BitVec.ofNat 64 (s.splitEntry pod)) 1 with vbase := vb }
    podResult pod 0 { s.setB .POD_MODE_MODE pod 1 with cores := kvSet s.cores (2 * pod + 1) c }

/-- POD_CMD PARK (R435, R436): by core 1, whose pending interrupts are discarded. -/
def doPodPark (by_ : Origin) (pod : Nat) (s : State) : State :=
  if !ownCore by_ pod (some 1) || s.getB .POD_MODE_MODE pod != 1 then s
  else if s.onB .POD_CMD_BUSY pod then podResult pod 4 s
  else
    let k := 2 * pod + 1
    let (_, s) := drainCore k s
    let s := s.modCore k (fun c => { c with run := .parked, bounds := [] })
    podResult pod 0 ((s.setB .POD_INT_PEND_LATCHED k 0).setB .POD_MODE_PARKED pod 1)

/-- POD_CMD CHECK (R435, R436): by core 0. -/
def doPodCheck (by_ : Origin) (pod : Nat) (parityOk : Bool) (s : State) : State :=
  if !ownCore by_ pod (some 0) || s.getB .POD_MODE_MODE pod == 3 then s
  else if s.onB .POD_CMD_BUSY pod then podResult pod 4 s
  else if s.onB .POD_MODE_SERVICE pod then podResult pod 1 s
  else if !s.onB .POD_MODE_PARKED pod then podResult pod 2 s
  else if !parityOk then podResult pod 3 s
  else
    podResult pod 0
      { (s.setB .POD_MODE_MODE pod 0).setB .POD_MODE_PARKED pod 0 with cores := kvDel s.cores (2 * pod + 1) }

/-- Cores of a pod start at POD_RESTART_ENTRY at S (R431). -/
def restartCores (pod : Nat) (s : State) : State :=
  let c := freshCore s (BitVec.ofNat 64 (s.restartEntry pod)) 1
  let s := { s with cores := kvSet s.cores (2 * pod) c }
  let s := if s.getB .POD_MODE_MODE pod = 1 then { s with cores := kvSet s.cores (2 * pod + 1) c } else s
  (s.setB .POD_MODE_PARKED pod 0).bumpB .POD_WARM_RESTARTS_COUNT pod 1

/-- The stores a core has buffered are lost, with a change-log entry of its own origin (*Fate of buffered stores*). -/
def loseStores (k : Nat) (s : State) : State :=
  match kvGet? s.cores k with
  | none => s
  | some c =>
    if c.buf.isEmpty then s
    else checkLogFull (logRaw (coreOrigin (k / 2) (k % 2) c) 12 0x80000 c.buf.length 0 s)

/-- A warm restart (R431): a healthy pod drains first, another loses its buffered stores. -/
def warmRestart (pod : Nat) (s : State) : State :=
  let ks := [2 * pod, 2 * pod + 1]
  let s := if s.onB .POD_STATUS_ERR pod then ks.foldl (fun s k => loseStores k s) s
    else ks.foldl (fun s k => (drainCore k s).2) s
  restartCores pod s

/-- POD_CMD WARM_RESTART (R431, R436). -/
def doWarmRestart (by_ : Origin) (pod : Nat) (s : State) : State :=
  if !ownCore by_ pod none || s.getB .POD_MODE_MODE pod == 3 then s
  else if s.onB .POD_CMD_BUSY pod then podResult pod 4 s
  else if !s.inCode (s.restartEntry pod) then podResult pod 5 s
  else podResult pod 0 (warmRestart pod s)

/-- A warm restart begun by the collector for an error in a SPLIT pod; the third within one hour fails the pod and a
spare starts both cores (R431, R432). -/
def collectorRestart (pod : Nat) (s : State) : State :=
  let x := s.podAt pod
  let warm := x.warm.filter (fun t => decide (s.now < t + 3600000000000)) ++ [s.now]
  let s := s.modPod pod (fun x => { x with warm := warm })
  if 3 ≤ warm.length then
    let old := s.physPod pod
    match s.spare with
    | some new =>
      let s := [2 * pod, 2 * pod + 1].foldl (fun s k => loseStores k s) s
      restartCores pod (bringSpare pod old new 4 (s.modPod pod (fun x => { x with warm := [] })))
    | none => podError pod 2 0 0 0 0 (failPhys old s)
  else warmRestart pod s

/-- An error found in a SPLIT pod: level 1, then the warm restart (*Error sources*, R431). DEDUCED, log entry 25. -/
def splitError (pod : Nat) (s : State) : State := collectorRestart pod (podError pod 1 0 0 0 0 s)

/-- Raises a CE of a physical pod's source for a logical pod. -/
def podCe (pod : Nat) (s : State) : State := raiseCe (s.physPod pod) 13 0 0 0 s

/-- An uncorrectable error in an array of a pod: the mode of the pod decides (R431; DEDUCED, log entry 25). -/
def podArrayUe (pod : Nat) (s : State) : State :=
  if s.getB .POD_MODE_MODE pod = 1 then splitError pod s else hardFault pod 3 s

/-- CACHE_SCRUB (R391, *Error sources*): corrected errors are CEs; an uncorrectable clean L3 line is fetched again, a
dirty one is written back poisoned; an uncorrectable directory restarts the core domain. -/
def doCacheScrub (array : CacheArray) (outcome : ScrubOutcome) (s : State) : State :=
  if !s.coreUp then s
  else
    match outcome, array with
    | .clean, _ => s
    | .corrected, .l1d pod _ _ | .corrected, .l2 pod _ => podCe pod s
    | .corrected, .l3 slice _ | .corrected, .directory slice _ => raiseCe (16 + slice % 8) 13 0 0 0 s
    | .uncorrectable, .l1d pod _ _ | .uncorrectable, .l2 pod _ => podArrayUe pod s
    | .uncorrectable, .directory slice line => raiseUe (16 + slice % 8) 2 13 1 (line * 128) 0 s
    | .uncorrectable, .l3 slice line =>
      match kvGet? s.coh.l3 line with
      | none => s
      | some e =>
        let s' := s.withCoh (fun c => { c with l3 := kvDel c.l3 line })
        if e.dirty then raiseUe (16 + slice % 8) 1 13 1 (line * 128) 0 (writeBack line e.data true s')
        else raiseCe (16 + slice % 8) 13 1 (line * 128) 0 s'

/-- The arrays of the coherent domain are cleared without write-back (R409 step 2): modified lines are counted lost,
every TLB is cleared. -/
def clearCaches (s : State) : State :=
  let lost := (s.coh.l2.filter (fun p => p.2.st == .modified)).length + (s.coh.l3.filter (fun p => p.2.dirty && !((s.coh.dirAt p.1).owner.bind (fun q => s.coh.l2At q p.1)).any (fun e => e.st == .modified))).length
  let s := s.bumpN .COH_LOST_LINES_COUNT lost
  let s := s.withCoh (fun c =>
    { c with l2 := [], l3 := [], dir := [], reqs := [], snoops := [], acks := [], writer := [], pred := [] })
  { s with cores := s.cores.map (fun p => (p.1, { p.2 with run := .frozen, itlb := [], dtlb := [], seenItlb := [],
                                                            buf := [], wait := none })) }

/-- A core-domain restart begins (R409 steps 1 and 2, R430): sparing under way is abandoned with its pod FAILED. DESIGN CHOICE, log entry 74. DEDUCED, log entry 83. -/
def freezeCoreDomain (s : State) : State :=
  let s := s.pods.foldl (fun s p =>
    match p.2.sparing with
    | some (old, _) => (failPhys old s).modPod p.1 (fun x => { x with sparing := none })
    | none => s) s
  let s := (s.set .COH_STATUS_DOMAIN 1).set .COH_CTL_READY 0
  let s := s.bump .COH_STATUS_RESTARTS
  (clearCaches s).withCoh (fun c => { c with restarting := true })

/-- The cores start again with COH_CTL.READY 0 (R409 step 4); pods found FAILED leave (R427, R429). DESIGN CHOICE, log entry 74. -/
def thawCoreDomain (s : State) : State :=
  let failed := (List.range 16).any (fun n => s.physState n == 2 && (s.logicalOf n).isSome)
  let s := if failed then assignPods s else s
  let s := { s with cores := [], pods := [] }
  let s := (s.set .COH_STATUS_DOMAIN 2).withCoh (fun c => { c with restarting := false })
  startCores s

end Sys2Proof.Machine
end

