-- ==== Sys2Proof/Machine/RingTx.lean ====
section
/-!
DEFINITION. The sending side of the ring: routes, flows and frames (R460, R461, R472, R475, R476). The LINK and PAIR kind
codes and their payload layouts are the model's own where the spec gives none (DESIGN CHOICE, log entry 26).
-/

namespace Sys2Proof.Machine

/-- Classes of frames (R472). -/
def clsLink : Nat := 0
def clsControl : Nat := 1
def clsPair : Nat := 2
def clsRemote : Nat := 3

/-- LINK kinds (DESIGN CHOICE, log entry 26). -/
def linkAnnounce : Nat := 1
def linkLeave : Nat := 2
def linkAck : Nat := 3
def linkClaimNack : Nat := 4

/-- The state with the ring ports changed. -/
def State.withRing (s : State) (f : RingState → RingState) : State := { s with ring := f s.ring }

/-- The node's address (R459). -/
def State.node (s : State) : Nat := s.get .RNG_STATUS_NODE

/-- Whether a node is in the node list (R471). -/
def State.present (s : State) (n : Nat) : Bool := s.bitB .RNG_NODES_PRESENT 0 n

/-- Regenerating hops to a node going up (CW) or down the addresses: the nodes of the list in between and the target. -/
def State.hops (s : State) (up : Bool) (dst : Nat) : Nat :=
  let own := s.node
  let d := if up then (dst + 32 - own) % 32 else (own + 32 - dst) % 32
  ((List.range d).filter (fun i =>
    i == 0 || s.present ((if up then own + i else own + 32 - i) % 32))).length

/-- Whether the node is wrapped at a port. DESIGN CHOICE, log entry 30. -/
def State.wrapped (s : State) (port : Nat) : Bool :=
  if port = 0 then s.on .RNG_STATUS_WRAP_W else s.on .RNG_STATUS_WRAP_E

/-- The port toward a node when no span is lost (R460): fewer hops, CW (east) on a tie. -/
def State.shortWay (s : State) (dst : Nat) : Nat := if s.hops true dst ≤ s.hops false dst then 1 else 0

/-- The port a message leaves by (R460): the shorter way, or the other port when that one is wrapped. -/
def State.route (s : State) (dst : Nat) : Nat :=
  let p := s.shortWay dst
  if s.wrapped p then 1 - p else p

/-- A frame with the header fields every frame of the node carries. -/
def State.newFrame (s : State) (cls kind dst : Nat) (payload : List Byte) : Frame :=
  { dst := dst, src := s.node, cls := cls, claim := s.get .CLM_CLAIM_CLAIM, pairId := s.get .CLM_PAIR_PAIR_ID
    session := s.get .RNG_SESSION_SESSION, kind := kind, payload := payload }

/-- Puts an own frame into the queue of a port; one for a wrapped port is turned onto the other ring, with WRAPPED set
(R469). -/
def queueOwn (port : Nat) (f : Frame) (s : State) : State :=
  let (port, f) := if s.wrapped port then (1 - port, { f with wrapped := true }) else (port, f)
  s.withRing (fun r => { r with own := kvSet r.own port (kvGet r.own port [] ++ [f]) })

/-- Sends a LINK frame both ways. -/
def sendBoth (f : Frame) (s : State) : State := queueOwn 1 f (queueOwn 0 f s)

/-- The key of a flow: class and node. -/
def flowKey (cls node : Nat) : Nat := node * 4 + cls

/-- Sends the waiting messages of a flow while fewer than 64 are unacknowledged (R476); a node with a duplicate address
originates none (R461). -/
def pumpFlow (key : Nat) : Nat → State → State
  | 0, s => s
  | n + 1, s =>
    let f := kvGet s.ring.tx key {}
    match f.waiting with
    | [] => s
    | m :: t =>
      if 64 ≤ f.unacked.length ∨ s.on .RNG_STATUS_DUPLICATE then s
      else
        let f := { f with waiting := t, unacked := f.unacked ++ [{ m with tries := 1 }] }
        let s := s.withRing (fun r => { r with tx := kvSet r.tx key f })
        pumpFlow key n (queueOwn (s.shortWay m.frame.dst) m.frame s)

/-- Originates a reliable message: it takes the flow's next sequence (R476). `token` is the program a REMOTE message
belongs to. -/
def sendMsg (cls kind dst gen token origin : Nat) (payload : List Byte) (s : State) : State :=
  let key := flowKey cls dst
  let f := kvGet s.ring.tx key {}
  let fr := { s.newFrame cls kind dst payload with seq := f.next, gen := gen, origin := origin }
  let f := { f with next := (f.next + 1) % 2 ^ 32, waiting := f.waiting ++ [{ frame := fr, gen := gen, tries := 0, token := token }] }
  let s := (s.withRing (fun r => { r with tx := kvSet r.tx key f })).bump .RNG_TX_MSGS_COUNT
  pumpFlow key 64 s

/-- The sequence the next message of a flow will get. -/
def State.nextSeq (s : State) (cls dst : Nat) : Nat := (kvGet s.ring.tx (flowKey cls dst) {}).next

/-- The 64-byte header of a REMOTE message (*REMOTE message header*); `extra` are its bytes 32 to 63. -/
def remoteHeader (token addr len sch fn req : Nat) (extra : List Byte) : List Byte :=
  leBytes 8 token ++ leBytes 8 addr ++ leBytes 4 len ++ leBytes 2 sch ++ leBytes 2 fn ++ leBytes 8 req ++ padTo 32 extra

/-- Sends a REMOTE message. DESIGN CHOICE, log entry 76. -/
def sendRemote (kind dst gen token addr sch fn req : Nat) (extra data : List Byte) (s : State) : State :=
  sendMsg clsRemote kind dst gen token (fnOrigin fn) (remoteHeader token addr data.length sch fn req extra ++ data) s

end Sys2Proof.Machine
end

