-- ==== Sys2Proof/Machine/Css.lean ====
section
/-!
DEFINITION. Subchannels, status words and completion queues, the context cache, stripe buffers and the end of a program
(R45, R49, R50, R104 to R128, R141 to R149, R498 to R501). A program that runs here for another node stands in the same
table, above the own 4096 subchannels (DESIGN CHOICE, log entry 27).
-/

namespace Sys2Proof.Machine

/-- Status bits (*Status bits*). -/
def stDone : Nat := 1
def stSettled : Nat := 2
def stFail : Nat := 4
def stLen : Nat := 8
def stRej : Nat := 16
def stHostf : Nat := 32
def stRingf : Nat := 64
def stStop : Nat := 128
def stInd : Nat := 256

/-- Flags of a status word. -/
def flFinal : Nat := 1
def flRepost : Nat := 2
def flNote : Nat := 4
def flCtl : Nat := 8

/-- The key of a program that runs here for subchannel `sch` of node `src`. DESIGN CHOICE, log entry 27. -/
def execKey (src sch : Nat) : Nat := 4096 + src * 4096 + sch % 4096

/-- Whether a key is that of a program run for another node. DESIGN CHOICE, log entry 27. -/
def isExec (k : Nat) : Bool := decide (4096 ≤ k)

/-- The attached node of such a program, and its subchannel there. DESIGN CHOICE, log entry 27. -/
def execNode (k : Nat) : Nat := k / 4096 - 1
def execSch (k : Nat) : Nat := k % 4096

/-- The address a BASE-like field holds, its low bits zero. -/
def State.addrB (s : State) (f : Fld) (i : Nat) : Nat := s.getB f i * 2 ^ f.info.lo

/-- The state with the channel subsystem changed. -/
def State.withCss (s : State) (f : CssState → CssState) : State := { s with css := f s.css }

/-- The state with the engines changed. -/
def State.withEng (s : State) (f : EngState → EngState) : State := { s with eng := f s.eng }

/-- A subchannel in the pool. -/
def noSub : Sub := { fn := 0, rel := 0, cq := 0, remote := false, node := 0, st := .unassigned }

/-- Subchannel `k`. -/
def State.subAt (s : State) (k : Nat) : Sub := kvGet s.css.subs k noSub

/-- The program of subchannel `k`. -/
def State.progAt (s : State) (k : Nat) : Option Prog := (s.subAt k).prog

/-- Changes subchannel `k`, which exists. -/
def modSub (k : Nat) (f : Sub → Sub) (s : State) : State :=
  s.withCss (fun c => { c with subs := kvMod c.subs k f })

/-- Changes the program of subchannel `k`. -/
def modProg (k : Nat) (f : Prog → Prog) (s : State) : State := modSub k (fun b => { b with prog := b.prog.map f }) s

/-- Whether a program is over: it has its end, or ends with the reset of its function (R146, R148). -/
def State.over (s : State) (k : Nat) (p : Prog) : Bool := p.ending.isSome || (s.subAt k).st == .resetting

/-- Sets the state of subchannel `k`. -/
def setSt (k : Nat) (st : SubState) (s : State) : State := modSub k (fun b => { b with st := st }) s

/-- The state codes of *Subchannel states*. -/
def SubState.code : SubState → Nat
  | .unassigned => 0
  | .idle => 1
  | .startPending => 2
  | .active => 3
  | .waiting => 4
  | .waitCore => 5
  | .haltPending => 6
  | .clearPending => 7
  | .statusPending => 8
  | .redrive => 9
  | .resetting => 10

/-- The subchannel that a function knows by number `rel`. -/
def State.findSub (s : State) (fn rel : Nat) : Option (Nat × Sub) :=
  s.css.subs.find? (fun p => !isExec p.1 && p.2.fn == fn && p.2.rel == rel)

/-- The subchannels of a function, own ones and programs run for other nodes. -/
def State.subsOf (s : State) (fn : Nat) : List (Nat × Sub) := s.css.subs.filter (fun p => !isExec p.1 && p.2.fn == fn)

/-- The generation of a function (R505). -/
def State.gen (s : State) (fn : Nat) : Nat := s.getB .VFM_FSTAT_GEN fn

/-- The next generation: never 0 (R18). -/
def nextGen (g : Nat) : Nat := if g = 0xFFFF then 1 else g + 1

/-- A token (R17). -/
def tokenOf (seq gen : Nat) : Nat := seq * 65536 + gen % 65536

/-- Programs on order engines (CSS_STATUS.ACTIVE). -/
def State.onEngines (s : State) : List (Nat × Sub) :=
  s.css.subs.filter (fun p => match p.2.prog with | some q => q.engine.isSome | none => false)

/-- Programs on order engine `e`. -/
def State.engineLoad (s : State) (e : Nat) : Nat :=
  (s.onEngines.filter (fun p => (p.2.prog.bind (·.engine)) == some e)).length

/-- Brings CSS_STATUS.ACTIVE and CSS_OE_LOAD up to date. -/
def countEngines (s : State) : State :=
  (List.range 8).foldl (fun t e => t.setB .CSS_OE_LOAD_ACTIVE e (s.engineLoad e))
    (s.set .CSS_STATUS_ACTIVE s.onEngines.length)

/-- The key of a queue. -/
def cqKey (fn cq : Nat) : Nat := fn * 32 + cq

/-- Entries of a queue. -/
def State.cqSize (s : State) (q : Nat) : Nat := 2 ^ s.getB .FN_CQ_CFG_LOG2 q

/-- Whether a queue can take a word now (R122, R498). -/
def State.cqRoom (s : State) (q : Nat) : Bool :=
  s.onB .FN_CQ_CFG_ENABLE q &&
    (s.getB .FN_CQ_HEAD_TAIL q + 1) % s.cqSize q != s.getB .FN_CQ_HEAD_HEAD q

/-- Lets a word wait for its queue (R124). -/
def queuePost (fn cq : Nat) (p : Post) (s : State) : State :=
  let q := cqKey fn cq
  s.withCss (fun c => { c with posts := kvSet c.posts q (kvGet c.posts q [] ++ [p]) })

/-- Counts a posted word for the queue's interrupt and raises it when it is due (R500). -/
def coalesce (fn cq : Nat) (s : State) : State :=
  let q := cqKey fn cq
  let (n, t) := kvGet s.css.coal q (0, s.now)
  let limit := max 1 (s.getB .FN_CQ_CFG_COAL_COUNT q)
  if limit ≤ n + 1 ∨ s.getB .FN_CQ_CFG_COAL_US q = 0 then
    raiseVec fn (s.getB .FN_CQ_CFG_VECTOR q) (s.withCss (fun c => { c with coal := kvDel c.coal q }))
  else s.withCss (fun c => { c with coal := kvSet c.coal q (n + 1, t) })

/-- Writes a word into its queue and then the tail (R122); a word with REPOST is counted. -/
def writeWord (fn cq : Nat) (p : Post) (s : State) : State :=
  let q := cqKey fn cq
  let w := p.w
  let t := s.getB .FN_CQ_HEAD_TAIL q
  let t' := (t + 1) % s.cqSize q
  let s := hostWrite fn (s.addrB .FN_CQ_BASE_BASE q + 32 * t) false w.bytes s
  let s := (s.setB .FN_CQ_HEAD_TAIL q t').withCss (fun c =>
    { c with sent := kvSet c.sent q (kvGet c.sent q [] ++ [p.cover.map (fun n => (n, p.sch, w.token))]) })
  let s := hostWrite fn (s.addrB .FN_CQ_TAILADDR_ADDR q) false (leBytes 4 t') s
  let s := if w.flags.testBit 1 then s.bump .CSS_REPOSTED_COUNT else s
  coalesce fn cq s

/-- Whether a media command was issued for the program of subchannel `k`. -/
def State.cmdOf (s : State) (k token : Nat) (c : MediaCmd) : Bool :=
  let st := fun id => match kvGet? s.css.stripes id with
    | some x => x.sch == k && x.token == token
    | none => false
  match c.use with
  | .shardWrite id _ => st id
  | .shardRead sch t _ _ => sch == k && t == token
  | .order sch t => sch == k && t == token
  | .sync l | .filemark l => l.any (fun p => st p.1)
  | _ => false

/-- Stripes of a program whose shard writes still run. -/
def State.writing (s : State) (k token : Nat) : Bool :=
  s.css.stripes.any (fun p => p.2.sch == k && p.2.token == token && p.2.issued.any (fun i => !p.2.ended.contains i))

/-- The owner code of a program's buffers and held writes. -/
def ownerOf (k : Nat) (p : Prog) : Nat := k * 2 ^ 64 + p.token

/-- Whether a media command, an engine block or a DMA write issued for a program is outstanding (R121). -/
def State.outstanding (s : State) (k : Nat) (p : Prog) : Bool :=
  s.mpt.cmds.any (fun c => s.cmdOf k p.token c.2) || s.writing k p.token ||
  p.chunks.any (fun c => match c.place with | .packing _ => true | _ => false) ||
  s.hst.heldWrites.any (fun h => h.owner == ownerOf k p)

/-- Whether a media command issued for a program runs, or one of its stripe buffers is in use. -/
def State.draining (s : State) (k : Nat) (p : Prog) : Bool :=
  s.mpt.cmds.any (fun c => s.cmdOf k p.token c.2) ||
  s.css.stripes.any (fun q => q.2.sch == k && q.2.token == p.token && q.2.granules != 0 && q.2.discarded)

/-- SETTLED, as a status bit (R121). -/
def State.settledBit (s : State) (k : Nat) (p : Prog) : Nat := if s.outstanding k p then 0 else stSettled

/-- A status word of the program of subchannel `k`; a re-driven program's words carry REPOST (R140). -/
def State.word (s : State) (k : Nat) (p : Prog) (flags bits residual addr reason : Nat) : StatusWord :=
  { sch := (s.subAt k).rel, flags := flags + (if p.redriven then flRepost else 0), token := p.token, bits := bits
    residual := residual % 2 ^ 32, addr := addr, reason := reason
    node := if (s.subAt k).remote && !isExec k then (s.subAt k).node else s.node }

/-- A journal record of the program of subchannel `k` (R129). -/
def State.jrec (s : State) (k token : Nat) (body : JBody) : JRec :=
  let b := s.subAt k
  { sch := k, token := token, seq := 0, fn := b.fn, node := if b.remote && !isExec k then b.node else s.node
    body := body }

/-- Sends the status word of a program run for another node (R101, R103). -/
def sendStatus (k : Nat) (w : StatusWord) (s : State) : State :=
  sendRemote 6 (execNode k) (w.token % 65536) w.token 0 (execSch k) (s.subAt k).fn 0 [] w.bytes s

/-- Frees the granules of a buffer. -/
def freeBuf (first : Nat) (s : State) : State :=
  let n := (s.css.bufs.filter (fun b => b.1 == first)).foldl (fun a b => a + b.2.1) 0
  (s.withCss (fun c => { c with bufs := c.bufs.filter (fun b => b.1 != first) })).bumpN .ENG_POOL_CTL_FREE n

/-- Whether a running program still lists a stripe as its open object's. -/
def State.stripeListed (s : State) (x : Stripe) : Bool :=
  match s.progAt x.sch with
  | some p => p.token == x.token && p.stripes.contains x.id
  | none => false

/-- Frees a stripe's buffer once R45 allows it, and forgets the stripe when nothing needs it any more. -/
def freeStripe (id : Nat) (s : State) : State :=
  match kvGet? s.css.stripes id with
  | none => s
  | some x =>
    let all := (List.range (x.set.k + x.set.m)).all (fun i => x.ended.contains i)
    if (x.recorded && all) || (x.discarded && x.issued.all (fun i => x.ended.contains i)) then
      let s := if x.granules = 0 then s else freeBuf x.buf s
      let x := { x with granules := 0 }
      let keep := !x.discarded && s.stripeListed x
      s.withCss (fun c => { c with stripes := if keep then kvSet c.stripes id x else kvDel c.stripes id })
    else s

/-- Discards a stripe (R50, R201): it is never recorded, its buffer goes once its writes have ended. -/
def discardStripe (id : Nat) (s : State) : State :=
  freeStripe id (s.withCss (fun c => { c with stripes := kvMod c.stripes id (fun x => { x with discarded := true }) }))

/-- Stripes of the open object that have no STRIPE record (R118). -/
def State.unjournaled (s : State) (p : Prog) : Nat :=
  (p.stripes.filter (fun id => match kvGet? s.css.stripes id with
    | some x => !x.recorded
    | none => false)).length

/-- Whether a program holds data that no COMMIT has committed (R50): stripes, or data on its way to one. DESIGN CHOICE, log entry 50. -/
def Prog.uncommitted (p : Prog) : Bool :=
  !p.stripes.isEmpty || !p.open_.isEmpty || !p.todo.isEmpty || !p.reads.isEmpty || !p.fifo.isEmpty ||
  p.chunks.any (fun c => c.place != .hit)

/-- Asks for the ABANDON record of the open object when there is one: stripes, or data on its way to one (R50, R118, R129).
One without a stripe names stripe id 0 and none. DESIGN CHOICE, log entry 50. -/
def askAbandon (k : Nat) (p : Prog) (reason : Nat) (s : State) : State :=
  if p.uncommitted then
    (jnlAsk (s.jrec k p.token (.abandon p.obj reason ((p.stripes.head?).getD 0) p.stripes.length)) [] s).bump
      .CSS_ABANDONED_COUNT
  else s

/-! ## The mirror stream's sender -/

/-- The node of the pair partner, as the ring has heard it. -/
def State.peerNode (s : State) : Option Nat :=
  (s.ring.heard.find? (fun h => h.2.pairId == s.get .CLM_PAIR_PAIR_ID && h.1 != s.node)).map (·.1)

/-- Whether the module is the active member and mirrors to its standby: copying or in step (R521, R524). -/
def State.mirroring (s : State) : Bool :=
  s.get .CLM_STATUS_ROLE == 1 && (s.get .CLM_STATUS_SYNC == 1 || s.get .CLM_STATUS_SYNC == 2)

/-- Whether actions wait for the mirror acknowledgement (R521, R525). -/
def State.inStep (s : State) : Bool := s.get .CLM_STATUS_ROLE == 1 && s.get .CLM_STATUS_SYNC == 2

/-- PAIR message kinds of the mirror stream (DESIGN CHOICE, log entry 26). -/
def pairJournal : Nat := 1
def pairDlog : Nat := 2
def pairCustody : Nat := 3
def pairReserve : Nat := 4
def pairHandle : Nat := 5
def pairGen : Nat := 6

/-- Sends one item of the mirror stream; its sequence, when it was sent (R521). -/
def mirror (kind : Nat) (payload : List Byte) (s : State) : Option Nat × State :=
  if s.mirroring then
    match s.peerNode with
    | none => (none, s)
    | some n =>
      let q := s.nextSeq clsPair n
      let s := (sendMsg clsPair kind n 0 0 0 payload s).bump .CLM_MIRROR_MSGS_COUNT
      (some q, { s with pair := { s.pair with unacked := s.pair.unacked ++ [q] } })
  else (none, s)

/-! ## The descriptor log's end of an object -/

/-- Entries the descriptor log holds (R213). -/
def dlogSize : Nat := 2097152

/-- The first descriptor-log entry not yet settled (R225). -/
def dlogMark : Nat → State → State
  | 0, s => s
  | n + 1, s =>
    let m := s.get .ENG_DLOG_MARK_MARK
    if m = s.get .ENG_DLOG_CTL_TAIL then s
    else match kvGet? s.eng.dlog m with
      | some e => if e.settled then dlogMark n (s.set .ENG_DLOG_MARK_MARK ((m + 1) % dlogSize)) else s
      | none => dlogMark n (s.set .ENG_DLOG_MARK_MARK ((m + 1) % dlogSize))

/-- Whether entries of an object stand in the descriptor log and it is not settled (R225). -/
def State.dlogOpen (s : State) (token obj : Nat) : Bool :=
  s.eng.dlog.any (fun e => e.2.token == token && e.2.obj == obj && !e.2.settled)

/-- Marks an object's descriptor-log entries settled and moves the mark (R225). -/
def settleObject (token obj : Nat) (s : State) : State :=
  let n := s.eng.dlog.length
  dlogMark (n + 1) (s.withEng (fun e =>
    { e with dlog := e.dlog.map (fun q =>
        if q.2.token == token && q.2.obj == obj then (q.1, { q.2 with settled := true }) else q) }))

/-- Writes one entry at the tail of the descriptor log, and mirrors it (R213, R226). -/
def dlogPut (d : List Byte) (token obj : Nat) (settled : Bool) (s : State) : State :=
  let t := s.get .ENG_DLOG_CTL_TAIL
  let data := padTo 60 d ++ leBytes 4 (crc32c (padTo 60 d))
  let s := s.withEng (fun e => { e with dlog := kvSet e.dlog t { data := data, token := token, obj := obj, settled := settled } })
  (mirror pairDlog data (s.set .ENG_DLOG_CTL_TAIL ((t + 1) % dlogSize))).2

/-- Writes one DROP entry when entries of the open object were written; all of them are settled then (R213, R225). -/
def dlogDrop (k : Nat) (p : Prog) (reason : Nat) (s : State) : State :=
  if s.dlogOpen p.token p.obj then
    let first := (p.stripes.head?).getD 0
    settleObject p.token p.obj (dlogPut (leBytes 1 0x15 ++ zeros 3 ++ leBytes 4 p.obj ++ leBytes 8 first ++ leBytes 8 p.token ++
      leBytes 4 p.stripes.length ++ leBytes 2 (k % 4096) ++ leBytes 2 reason) p.token p.obj true s)
  else s

/-- Writes the bytes of a slot of the pending table (R166). -/
def putPend (slot : Nat) (d : List Byte) (s : State) : State :=
  (devWrite (s.addrB .ENG_PEND_BASE_BASE 0 + slot * 64) (padTo 64 d) s).2

/-- Changes the entries of the pending table, and with them the slots in DRAM that held or hold one that changes (R166). -/
def setPend (f : List PendEnt → List PendEnt) (s : State) : State :=
  let old := s.eng.pend
  let new := f old
  let gone := old.filter (fun e => !new.any (fun x => x.slot == e.slot))
  let put := new.filter (fun e => !old.contains e)
  let s := s.withEng (fun e => { e with pend := new })
  let s := gone.foldl (fun s e => putPend e.slot Config.pendFree s) s
  put.foldl (fun s e => putPend e.slot (Config.pendEntry e.fp e.loc (e.sch * 2 ^ 32 + e.dom)) s) s

/-- Discards what a program holds of its open object: stripes, chunks, source data, pending index entries (R50, R132). The
open chunk is cut first (R79, R152) and goes with the others. -/
def dropObject (k : Nat) (p : Prog) (s : State) : State :=
  let s := if p.open_.isEmpty then s else s.bump .ENG_CHUNKS_COUNT
  let s := p.stripes.foldl (fun s id => discardStripe id s) s
  let s := setPend (fun l => l.filter (fun q => q.sch != k)) s
  modProg k (fun p =>
    { p with
      chunks := [], open_ := [], todo := [], fifo := [], pieces := [], stripe := none, stripes := [], reads := []
      waitBuf := false, openSrc := none }) s

/-- Withdraws the requests a program has made: stripe buffers, CHUNK place, calls, restore buffers. -/
def dropRequests (k : Nat) (p : Prog) (s : State) : State :=
  let restores : List Nat := match p.run with
    | some { place := .restore r, .. } => (match r.buf with
      | some b => [b.1]
      | none => [])
    | _ => []
  let s := restores.foldl (fun s b => freeBuf b s) s
  let repairs := (s.css.stripes.filter (fun q => q.2.sch == k && q.2.asked && !q.2.recorded && !p.stripes.contains q.1)).map (·.1)
  let s := repairs.foldl (fun s id => discardStripe id s) s
  let open_ := (s.css.calls.filter (fun (c : Call) => c.sch == k && c.slot.isSome)).length
  let s := s.withCss (fun c =>
    { c with
      bufWait := c.bufWait.filter (fun b => b.1 != k)
      laneWait := c.laneWait.filter (· != k)
      calls := c.calls.filter (fun q => q.sch != k) })
  s.set .CSS_CALL_STAT_OPEN (s.get .CSS_CALL_STAT_OPEN - open_)

/-- Ends the zone bindings a program holds (R90). -/
def unbindZones (k : Nat) (s : State) : State :=
  { s with mpt := { s.mpt with devs := s.mpt.devs.map (fun d =>
      (d.1, { d.2 with binds := d.2.binds.filter (fun z => z.sch != k) })) } }

/-- Moves revoking handles whose last program has its final status to revoked, their key slot zeroised (R193, R545). -/
def zeroiseKeys (keys : List Nat) (s : State) : State :=
  keys.foldl (fun s h =>
    match kvGet? s.tub.handles h with
    | some x =>
      let used := s.css.subs.any (fun q => match q.2.prog with | some p => p.keys.contains h | none => false)
      if x.st = 2 && !used then
        { s with
          tub := { s.tub with handles := kvSet s.tub.handles h { x with st := 3 } }
          eng := { s.eng with slots := s.eng.slots.filter (· != h) } }
      else s
    | none => s) s

/-- Sets the DONE bits of purge slots whose scan is complete and whose programs have their finals (R170). -/
def purgeDone (s : State) : State :=
  s.eng.purges.foldl (fun s q =>
    if q.2.scanned && q.2.waits.isEmpty then s.setBitB .ENG_IDX_PURGE_DONE 0 q.1 true else s) s

/-- The index is empty (R170, R173): there is nothing left to scan for a purge slot. -/
def emptyIndex (s : State) : State :=
  let s := s.withEng (fun e => { e with purges := e.purges.map (fun q => (q.1, { q.2 with scanned := true })) })
  purgeDone (s.set .ENG_IDX_CTL_STATE 0)

/-- Whether an action that waits for the partner moves the program of a subchannel on. -/
def JAct.movesOn (k : Nat) : JAct → Bool
  | .started j | .stageEnd j | .stripe j _ | .object j | .halted j _ => j == k
  | .post .. | .retired .. | .final .. => false

/-- Takes the actions that would move the program of a subchannel on off the records that wait. -/
def dropActs (k : Nat) (s : State) : State :=
  let keep := fun (l : List JAct) => l.filter (fun a => !a.movesOn k)
  (s.withCss (fun c => { c with mirrorWait := c.mirrorWait.map (fun q => (q.1, keep q.2)) })).withJnl (fun j =>
    { j with pending := j.pending.map (fun q => { q with acts := keep q.acts }) })

/-- The end of a program at its final status: its engine, its CHUNK place and the waits on it are freed, and the
subchannel becomes IDLE. Its context leaves the cache unwritten, and the entries after it move up. DESIGN CHOICE, log entry
46. -/
def finishProg (k : Nat) (s : State) : State :=
  match s.progAt k with
  | none => s
  | some p =>
    let s := if isExec k then s.withCss (fun c => { c with subs := kvDel c.subs k })
      else modSub k (fun b => { b with prog := none, st := .idle }) s
    let s := (dropActs k s).withCss (fun c => { c with ctx := c.ctx.filter (fun e => e.sch != k || e.filling) })
    let s := s.withEng (fun e =>
      { e with purges := e.purges.map (fun q => (q.1, { q.2 with waits := q.2.waits.filter (· != (k, p.token)) })) })
    countEngines (purgeDone (zeroiseKeys p.keys s))

/-- Ends the program of subchannel `k` (R49, R50, R119): what it has not committed is discarded, a normal end with
uncommitted stripes becomes REJ 0x0017, and the FINAL record is asked for. A program whose function is being reset ends with
the reset alone (R147, R148). DESIGN CHOICE, log entry 50. -/
def endProg (k bits reason residual addr : Nat) (s : State) : State :=
  match s.progAt k with
  | none => s
  | some p =>
    if s.over k p then s
    else
      let bad := decide (bits = stDone) && p.uncommitted
      let bits := if bad then stRej else bits
      let reason := if bad then 0x0017 else reason
      let s := dropRequests k p (dropObject k p (dlogDrop k p reason (askAbandon k p reason s)))
      let s := unbindZones k s
      let w := s.word k p flFinal (bits + s.settledBit k p) residual addr reason
      let s := modProg k (fun p => { p with ending := some w, run := none, fetched := [], fetchAt := none }) s
      jnlAsk (s.jrec k p.token (.final w)) [.final k w true] s

/-- Whether a program is free to act: on an engine, not ending, its subchannel ACTIVE or HALT PENDING. -/
def State.live (s : State) (k : Nat) : Option Prog :=
  let b := s.subAt k
  match b.prog with
  | some p => if p.engine.isSome && p.ending.isNone && (b.st == .active || b.st == .haltPending) then some p else none
  | none => none

/-- The victim of the context cache: highest age, lowest index, not being filled (R125). DESIGN CHOICE, log entry 46. -/
def ctxVictim (l : List CtxEnt) : Option Nat :=
  let free := (l.zipIdx).filter (fun e => !e.1.filling)
  let top := free.foldl (fun a e => max a e.1.age) 0
  (free.find? (fun e => e.1.age == top)).map (·.2)

/-- An access by an order engine to the context of subchannel `k`: whether it is served, and the state after it. A miss
starts a fill and blocks the engine until it is done; the access that missed then finds the entry as the fill left it, and is
no hit (R125 to R127). DESIGN CHOICE, log entry 46. -/
def ctxTouch (k engine : Nat) (s : State) : Bool × State :=
  let blocked := s.css.ctx.any (fun e => e.filling && ((s.progAt e.sch).bind (·.engine)) == some engine)
  if blocked then (false, s)
  else if s.css.ctx.any (fun e => e.sch == k && e.missed) then
    (true, s.withCss (fun c =>
      { c with ctx := c.ctx.map (fun e => if e.sch = k then { e with dirty := true, missed := false } else e) }))
  else if s.css.ctx.any (fun e => e.sch == k) then
    (true, (s.withCss (fun c =>
      { c with ctx := c.ctx.map (fun e => if e.sch = k then { e with ref := true, age := 0, dirty := true } else e) })).bump
        .CSS_CC_HIT_COUNT)
  else
    let fresh : CtxEnt := { sch := k, ref := true, age := 0, dirty := false, filling := true, missed := true }
    if s.css.ctx.length < 48 then
      (false, (s.withCss (fun c => { c with ctx := c.ctx ++ [fresh] })).bump .CSS_CC_MISS_COUNT)
    else match ctxVictim s.css.ctx with
      | none => (false, s)
      | some i =>
        let wb := ((s.css.ctx[i]?).map (·.dirty)).getD false
        let s := if wb then s.bump .CSS_CC_WB_COUNT else s
        (false, (s.withCss (fun c => { c with ctx := c.ctx.set i fresh })).bump .CSS_CC_MISS_COUNT)

/-- Does `act` with the program of subchannel `k` when it may act and its context is in the cache. -/
def withProg (k : Nat) (act : Prog → State → State) (s : State) : State :=
  match s.live k with
  | none => s
  | some p =>
    match ctxTouch k (p.engine.getD 0) s with
    | (true, s) => act p s
    | (false, s) => s

/-- CONTEXT_AGE_TICK (R125). -/
def doContextAgeTick (s : State) : State :=
  s.withCss (fun c => { c with ctx := c.ctx.map (fun e =>
    if e.ref then { e with ref := false } else { e with age := min 3 (e.age + 1) }) })

/-- The STR flag of the order a program runs or is about to run. -/
def Prog.streaming (p : Prog) : Bool :=
  match p.run with
  | some r => (fieldAt r.raw 1 2).testBit 7
  | none => match p.fetched with
    | f :: _ => (fieldAt f.raw 1 2).testBit 7
    | [] => false

/-- CONTEXT_FILL (R126, R127). DESIGN CHOICE, log entry 46. -/
def doContextFill (k : Nat) (s : State) : State :=
  let str := match s.progAt k with | some p => p.streaming | none => false
  s.withCss (fun c => { c with ctx := c.ctx.map (fun e =>
    if e.sch = k ∧ e.filling then { e with filling := false, ref := !str, age := if str then 3 else 0 } else e) })

/-- CQ_COALESCE_TIMEOUT (R500). -/
def doCqCoalesceTimeout (fn cq : Nat) (s : State) : State :=
  let q := cqKey fn cq
  match kvGet? s.css.coal q with
  | none => s
  | some (_, t) =>
    let s := timeTo (t + 1000 * s.getB .FN_CQ_CFG_COAL_US q) s
    raiseVec fn (s.getB .FN_CQ_CFG_VECTOR q) (s.withCss (fun c => { c with coal := kvDel c.coal q }))

/-! ## Host memory and the other node -/

/-- Requests host memory for the program of subchannel `k`: its own function's DMA, or READs of the attached node of at most
9152 bytes each (R101). `req` says what for: 1 orders, 2 a parameter block or list, 3 source data. -/
def askHost (k req addr len : Nat) (s : State) : State :=
  let b := s.subAt k
  if isExec k then
    match b.prog with
    | some p =>
      let s := if req = 2 then modProg k (fun p => { p with blockAsks := p.blockAsks ++ [len] }) s else s
      (List.range (max 1 (divUp len 9152))).foldl (fun s i =>
        sendMsg clsRemote 3 (execNode k) (p.token % 65536) p.token (fnOrigin b.fn)
          (remoteHeader p.token (addr + i * 9152) (min 9152 (len - i * 9152)) (execSch k) b.fn req []) s) s
    | none => s
  else hostReadReq b.fn addr len s

/-- Bytes written to host memory for a program: its own function's DMA, or WRITE messages to the attached node of at
most 9152 bytes each (R101), byte 32 of which says whether they are data in the sense of R489 (DESIGN CHOICE, log entry
76). While its function is reset they are dropped and counted (R146). -/
def tellHost (k addr : Nat) (bulk : Bool) (data : List Byte) (s : State) : State :=
  let b := s.subAt k
  match b.prog with
  | none => s
  | some p =>
    if isExec k then
      ((pieces 9152 data).zipIdx).foldl (fun s q =>
        sendRemote 5 (execNode k) (p.token % 65536) p.token (addr + q.2 * 9152) (execSch k) b.fn 0 (leBytes 1 (b2n bulk)) q.1 s) s
    else if b.st = .resetting then s.bump .CSS_GEN_DROPPED_COUNT
    else hostWriteFor (ownerOf k p) b.fn addr bulk data s

/-- Tells the attached node the state of a program run for it, as R112 shows it there: a STATUS message whose word has no
flag, the state code as its residual and the kind of a pending WAIT as its condition. DESIGN CHOICE, log entry 76. -/
def tellState (k : Nat) (s : State) : State :=
  if isExec k then
    match s.progAt k with
    | some p =>
      let kind := match p.run with
        | some { place := .wait n _, .. } => n
        | _ => 0
      sendStatus k { s.word k { p with redriven := false } 0 0 (s.subAt k).st.code 0 0 with cond := kind } s
    | none => s
  else s

/-- Sets the state of a subchannel whose program moves on, for the attached node too. -/
def enterSt (k : Nat) (st : SubState) (s : State) : State := tellState k (setSt k st s)

/-! ## Order engines -/

/-- The order engine with the fewest programs, while one runs fewer than 64 (R120). -/
def State.freeEngine (s : State) : Option Nat :=
  let loads := (List.range 8).map s.engineLoad
  let least := loads.foldl min 64
  if least < 64 then loads.idxOf? least else none

/-- Whether the function of a program may have one more on the order engines (R503). -/
def State.fnHasSlot (s : State) (k : Nat) : Bool :=
  let fn := (s.subAt k).fn
  let cap := s.getB .VFM_CFG_MAX_ACTIVE fn
  isExec k || cap == 0 || decide ((s.onEngines.filter (fun q => !isExec q.1 && q.2.fn == fn)).length < cap)

/-- Gives a program to the order engine `e`: it becomes ACTIVE and its first order is fetched. -/
def seat (k e : Nat) (s : State) : State :=
  match s.progAt k with
  | none => s
  | some p =>
    askHost k 1 p.next 32 (countEngines (enterSt k .active (modProg k (fun p =>
      { p with engine := some e, fetchAt := some p.next }) s)))

/-- ENGINE_SLOT_GRANT (R120, R503). DESIGN CHOICE, log entry 47. -/
def doEngineSlotGrant (k : Nat) (s : State) : State :=
  match s.progAt k, s.freeEngine with
  | some p, some e =>
    if (s.subAt k).st = .startPending ∧ p.journaled ∧ p.ending.isNone ∧ s.fnHasSlot k then seat k e s else s
  | _, _ => s

end Sys2Proof.Machine
end

