-- ==== Sys2Proof/Machine/Orders.lean ====
section
/-!
DEFINITION. Orders: their fields, every check of *Rejection reasons* made when an order comes to the front, fetching, the
end of an order, and posting status words (R47 to R75, R81, R100, R122, R124, R158, R193, R200, R238).
-/

namespace Sys2Proof.Machine

/-- An order (*Order layout*). -/
structure Ord where
  op : Nat
  flags : Nat
  sel : Nat
  count : Nat
  addr : Nat
  pa : Nat
  pb : Nat
  crcOk : Bool
  deriving DecidableEq, Repr

/-- Reads the 32 bytes of an order. -/
def parseOrd (raw : List Byte) : Ord :=
  { op := fieldAt raw 0 1, flags := fieldAt raw 1 2, sel := fieldAt raw 3 1, count := fieldAt raw 4 4
    addr := fieldAt raw 8 8, pa := fieldAt raw 16 8, pb := fieldAt raw 24 4
    crcOk := crc32c (padTo 28 raw) == fieldAt raw 28 4 }

/-- The flags (*Order flags*). -/
def Ord.join (o : Ord) : Bool := o.flags.testBit 0
def Ord.chained (o : Ord) : Bool := o.flags.testBit 1
def Ord.short (o : Ord) : Bool := o.flags.testBit 2
def Ord.sink (o : Ord) : Bool := o.flags.testBit 3
def Ord.mark (o : Ord) : Bool := o.flags.testBit 4
def Ord.list (o : Ord) : Bool := o.flags.testBit 5
def Ord.dev (o : Ord) : Bool := o.flags.testBit 6

/-- The opcodes of *Opcodes*. -/
def opIngest : Nat := 0x01
def opChunk : Nat := 0x02
def opProbe : Nat := 0x03
def opPack : Nat := 0x04
def opSeal : Nat := 0x05
def opSpread : Nat := 0x06
def opDigest : Nat := 0x07
def opCommit : Nat := 0x08
def opGather : Nat := 0x11
def opUnseal : Nat := 0x12
def opUnpack : Nat := 0x13
def opEmit : Nat := 0x14
def opVerify : Nat := 0x18
def opMedia : Nat := 0x20
def opZone : Nat := 0x21
def opJump : Nat := 0x30
def opBranch : Nat := 0x31
def opWait : Nat := 0x32
def opNote : Nat := 0x33
def opCall : Nat := 0x34
def opEnd : Nat := 0x3F

/-- All opcodes. -/
def opcodes : List Nat :=
  [opIngest, opChunk, opProbe, opPack, opSeal, opSpread, opDigest, opCommit, opGather, opUnseal, opUnpack, opEmit,
   opVerify, opMedia, opZone, opJump, opBranch, opWait, opNote, opCall, opEnd]

/-- The flags an order may set (*Flag validity*); MARK and NEXT always. -/
def flagMask (op : Nat) : Nat :=
  if op = opIngest then 0xF7
  else if op = opEmit ∨ op = opMedia then 0xFF
  else if op = opZone then 0x56
  else if op = opSpread ∨ op = opGather ∨ op = opDigest ∨ op = opCommit ∨ op = opVerify ∨ op = opCall then 0x52
  else 0x12

/-- Which of selector, Count, Address, Parameter A and Parameter B an order's table names: 1 for each field named, and
the mask of the bits of A and B in use (R59). -/
structure FieldUse where
  sel : Bool := false
  count : Bool := false
  addr : Bool := false
  pa : Nat := 0
  pb : Nat := 0

/-- All 64 bits. -/
def all64 : Nat := 0xFFFFFFFFFFFFFFFF

/-- The fields an order uses (*Order reference*). -/
def fieldUse (op : Nat) (list : Bool) : FieldUse :=
  if op = opIngest then { sel := true, count := true, addr := true, pb := 0xFFFF }
  else if op = opChunk then { pa := all64, pb := 0x1F }
  else if op = opProbe then { pa := 0xFFFF, pb := 0x3 }
  else if op = opPack then { pa := 0xFFFFFFFF, pb := 0xFF }
  else if op = opSeal ∨ op = opUnseal then { pa := all64 }
  else if op = opSpread then { count := true, addr := true, pb := 0x1FFFFF }
  else if op = opDigest then { count := true, addr := true, pb := 0x1F }
  else if op = opCommit then { count := true, addr := true, pa := all64, pb := 0xFF }
  else if op = opGather then { count := true, addr := true }
  else if op = opUnpack then { pb := 1 }
  else if op = opEmit then { sel := true, count := true, addr := true, pa := all64, pb := 0xFFFF }
  else if op = opVerify then { pa := 1 }
  else if op = opMedia then { count := true, addr := true, pa := all64, pb := if list then 0x3FFFFFF else 0xFFFF }
  else if op = opZone then { count := true, addr := true, pa := all64, pb := 0xFFFFF }
  else if op = opJump then { addr := true }
  else if op = opBranch then { addr := true, pb := 0x1FF }
  else if op = opWait then { pa := all64, pb := 3 }
  else if op = opNote then { count := true }
  else if op = opCall then { count := true, addr := true, pa := all64, pb := 0xFFFFFFFF }
  else {}

/-- Whether an address range of a function lies in its device-DRAM window (R60, R502). -/
def State.inFnWindow (s : State) (fn a n : Nat) : Bool :=
  let f := s.fnOf fn
  decide (0 < f.winUnits) && decide (f.winBase ≤ a) && decide (a + n ≤ f.winBase + f.winUnits * 2 ^ 21)

/-- Whether a device is in a function's device set (R238). -/
def State.devAllowed (s : State) (fn d : Nat) : Bool :=
  decide (d < 1024) && decide (s.getB .MPT_DEV_INFO_STATE d ≠ 0) &&
  (if fn = 0 then s.onB .MPT_DEV_CTL_PF_GRANT d else s.bitB .MPT_DEV_GRANT_VF d (fn - 1))

/-- Whether a function may use a live domain (R158). -/
def Dom.grants (d : Dom) (fn : Nat) : Bool :=
  d.owner == fn || (if fn = 0 then d.pfGrant else d.vfGrant.testBit (fn - 1))

/-- The domain that a PROBE setting names for a function: its own for 0 (R158). -/
def State.domFor (s : State) (fn n : Nat) : Option Nat :=
  if n = 0 then ((s.eng.doms.find? (fun d => d.2.own && d.2.owner == fn)).map (·.1))
  else match kvGet? s.eng.doms n with
    | some d => if d.grants fn then some n else none
    | none => none

/-- Whether a handle may be named by a SEAL or UNSEAL order of a function (R191, R193, R545). -/
def State.keyUsable (s : State) (fn h : Nat) (sealing : Bool) : Bool :=
  match kvGet? s.tub.handles h with
  | some x => x.st == 1 && x.fn == fn && (!sealing || decide (x.seq ≤ 0xFFFF))
  | none => false

/-- Whether a number is a power of two. -/
def isPow2 (v : Nat) : Bool := (log2Exact v).isSome

/-- The code area a SPREAD setting gives chunks (R197). -/
def SpreadSet.area (x : SpreadSet) : Nat := x.k * (2 ^ x.shift - 64)

/-- The buffer granules a code shape needs (R203). -/
def granulesOf (k m shift : Nat) : Nat := divUp ((k + m) * 2 ^ shift) 65536

/-- Granules of the whole pool. -/
def State.poolGranules (s : State) : Nat := min 32768 (s.get .ENG_POOL_SIZE_UNITS) * 32

/-- Whether a code shape can never be granted (R203). -/
def State.shapeTooBig (s : State) (k m shift : Nat) : Bool :=
  !s.on .ENG_POOL_CTL_ENABLE || decide (s.poolGranules < 8 * granulesOf k m shift)

/-- The MEDIA run a joined order continues. -/
def Prog.mediaJoin (p : Prog) : Option MediaRun :=
  match p.join with
  | some (_, r) => (match r.place with
    | .media m => some m
    | _ => none)
  | none => none

/-- Bytes an order reaches with DEV at its Address (R60). -/
def Ord.devSpan (o : Ord) : Nat :=
  if o.list then 16 * (o.pb % 65536) else if o.op = opDigest then 128 else o.count

/-- Checks of reserved fields and values: reason 0x0003 (R55, R59). -/
def badReserved (o : Ord) (joined : Bool) : Bool :=
  let u := fieldUse o.op o.list
  let pb := if joined then o.pb % 65536 else o.pb
  decide (256 ≤ o.flags) ||
  (!u.sel && !joined && o.sel != 0) || (!u.count && o.count != 0) || (!u.addr && o.addr != 0) ||
  (!joined && andNot o.pa u.pa != 0) || andNot pb u.pb != 0 ||
  (o.op == opProbe && o.pb % 4 == 3) ||
  (o.op == opPack && (decide (3 < o.pb % 16) || decide (2 < bits o.pb 7 4))) ||
  (o.op == opDigest && decide (o.count < 128)) ||
  (o.op == opZone && bits o.pb 19 16 != 4 && (o.addr != 0 || o.count != 0))

/-- Checks of the erasure code and of the quorum: reason 0x0010 (R74, R84, R200). -/
def badCode (o : Ord) (p : Prog) : Bool :=
  (o.op == opSpread && (o.pb % 256 == 0 || decide (56 < o.pb % 256) || decide (8 < bits o.pb 15 8))) ||
  (o.op == opCommit && o.pb % 256 != 0 && (match p.stages.spread with
    | none => true
    | some x => x.m == 0 || decide (o.pb % 256 < x.k + 1) || decide (x.k + x.m < o.pb % 256)))

/-- Checks of chunk sizes: reason 0x0011 (R74, R197). -/
def badChunk (o : Ord) (p : Prog) : Bool :=
  let lo := o.pa % 2 ^ 32
  let hi := o.pa / 2 ^ 32
  let n := o.pb % 32
  o.op == opChunk && !(decide (2048 ≤ lo) && decide (lo ≤ 65536) && decide (13 ≤ n) && decide (n ≤ 18) &&
    decide (lo < 2 ^ n) && decide (2 ^ n < hi) && decide (hi ≤ 1048576) &&
    (match p.stages.spread with | none => true | some x => decide (hi + 48 ≤ x.area)))

/-- Checks of the PACK window: reason 0x0012 (R74). DESIGN CHOICE, log entry 57. -/
def badWindow (o : Ord) : Bool :=
  let w := o.pa % 2 ^ 32
  o.op == opPack && w != 0 &&
    !(isPow2 w && decide (1024 ≤ w) && decide (w ≤ (if o.pb % 16 = 0 then 8388608 else 32768)))

/-- Checks of the shard unit: reason 0x0014 (R74, R197). -/
def badUnit (o : Ord) (p : Prog) : Bool :=
  let sh := bits o.pb 20 16
  o.op == opSpread && (decide (sh < 12) || decide (20 < sh) ||
    decide ((o.pb % 256) * (2 ^ sh - 64) < p.stages.chunkMax + 48))

/-- Whether a selector names a stage that no order has set: reason 0x0015 (R77). -/
def unsetStage (o : Ord) (p : Prog) : Bool :=
  (o.op == opIngest && ((o.sel.testBit 3 && p.stages.sealKey.isNone) || (o.sel.testBit 4 && p.stages.spread.isNone))) ||
  (o.op == opEmit && ((o.sel.testBit 3 && p.stages.unsealKey.isNone) || (o.sel.testBit 4 && p.stages.gather.isNone)))

/-- Whether a selector is invalid: reason 0x0016 (R77). -/
def badSelector (o : Ord) : Bool :=
  (o.op == opIngest && (decide (64 ≤ o.sel) || !o.sel.testBit 4)) ||
  (o.op == opEmit && (decide (64 ≤ o.sel) || o.sel % 4 != 0 || !o.sel.testBit 4))

/-- Whether a key handle or a domain is not usable: reason 0x0019 (R158, R193). -/
def badGrant (o : Ord) (p : Prog) (fn : Nat) (s : State) : Bool :=
  (o.op == opSeal && !s.keyUsable fn o.pa true) || (o.op == opUnseal && !s.keyUsable fn o.pa false) ||
  (o.op == opProbe && (decide (4095 < o.pa % 65536) || (s.domFor fn (o.pa % 65536)).isNone)) ||
  (o.op == opIngest && o.sel.testBit 1 && !p.stages.probeRun && (s.domFor fn 0).isNone)

/-- The device number a MEDIA or ZONE order names. -/
def Ord.device (o : Ord) : Nat :=
  if o.op = opMedia && o.list then bits o.pb 25 16 else o.pb % 65536

/-- Whether a zone action meets a zone that another running program holds (R253). -/
def zoneTaken (k dev start : Nat) (s : State) : Bool :=
  match kvGet? s.mpt.devs dev with
  | some d => d.binds.any (fun z => z.sch != k && z.start == start)
  | none => false

/-- Whether a device or a placement is not allowed, as far as the order itself shows: reason 0x001A. DEDUCED, log entry 28. -/
def badDevice (k : Nat) (o : Ord) (fn : Nat) (s : State) : Bool :=
  (o.op == opSpread && o.count != 16 * (o.pb % 256 + bits o.pb 15 8)) ||
  ((o.op == opMedia || o.op == opZone) && !s.devAllowed fn o.device) ||
  (o.op == opZone && [2, 3, 5].contains (bits o.pb 19 16) && zoneTaken k o.device o.pa s)

/-- Whether the engine reads the indirect list a MEDIA order names: one of entries, aligned, inside the window (R60, R62). -/
def Ord.listReadable (o : Ord) (fn : Nat) (s : State) : Bool :=
  o.list && o.pb % 65536 != 0 && o.addr % 16 == 0 && (!o.dev || s.inFnWindow fn o.addr o.devSpan)

/-- Whether an order reaches device DRAM outside its function's window (R60). A range of no bytes reaches nothing. DESIGN
CHOICE, log entry 49. -/
def badWindowed (o : Ord) (joined : Bool) (fn : Nat) (s : State) : Bool :=
  o.dev && ((o.op != opVerify && o.devSpan != 0 && !s.inFnWindow fn o.addr o.devSpan) ||
    (o.op == opMedia && !joined && !s.inFnWindow fn o.pa 128))

/-- The reasons under which the fields of an order reject it, lowest first (R48, R100). `joined`: it continues a join of
opcode `op`; a joined MEDIA order without LIST has its own device number judged, and uses the first order's (DESIGN CHOICE,
log entry 49). DEDUCED, log entry 100. -/
def orderReasons (k : Nat) (p : Prog) (o : Ord) (joined : Option Nat) (s : State) : List Nat :=
  let fn := (s.subAt k).fn
  let j := joined.isSome
  let data := o.op == opIngest || o.op == opEmit || o.op == opMedia || o.op == opZone
  let known := opcodes.contains o.op
  let mask := flagMask o.op
  let t : List (Bool × Nat) :=
    [(!o.crcOk, 0x0001), (!known, 0x0002), (known && badReserved o j, 0x0003),
     ((o.op == opJump || o.op == opBranch) && o.addr % 32 != 0, 0x0004),
     (known && (andNot (o.flags % 256) mask != 0 || (o.op == opUnpack && o.pb.testBit 0 && fn != 0) ||
       (o.op == opMedia && o.sink && p.mediaJoin.any (fun m => m.dir != 1))), 0x0005),
     (o.list && o.pb % 65536 == 0, 0x0006),
     ((o.op == opIngest || o.op == opEmit) && !o.list && o.pb % 65536 != 0, 0x0007),
     (o.list && o.addr % 16 != 0, 0x0008),
     (data && !o.list && decide (2 ^ 64 < o.addr + o.count), 0x0009),
     (j && joined != some o.op, 0x000A),
     (badCode o p, 0x0010), (badChunk o p, 0x0011), (badWindow o, 0x0012),
     (o.op == opCall && decide (9152 < o.count), 0x0013),
     (badUnit o p, 0x0014), (!j && unsetStage o p, 0x0015), (!j && badSelector o, 0x0016),
     (!j && badGrant o p fn s, 0x0019), (!(j && o.list) && badDevice k o fn s, 0x001A),
     (o.op == opZone && decide (5 < bits o.pb 19 16), 0x001C),
     (badWindowed o j fn s, 0x001D),
     (o.op == opBranch && decide (6 < o.pb % 256), 0x001E), (o.op == opWait && o.pb % 4 == 3, 0x001F)]
  (t.filter (·.1)).map (·.2)

/-- The residual of a transfer: Count over the join less the bytes moved (R66). DEDUCED, log entry 48. -/
def Xfer.residual (x : Xfer) : Nat := x.total - x.moved

/-- Whether an order needs one block from host memory before it can run: its address and length. `joined`: it continues a
join. -/
def Ord.blockAt (o : Ord) (joined : Bool) : Option (Nat × Nat) :=
  if (o.op = opIngest ∨ o.op = opEmit ∨ (o.op = opMedia ∧ joined)) ∧ o.list ∧ !o.dev then some (o.addr, 16 * (o.pb % 65536))
  else if (o.op = opSpread ∨ o.op = opGather ∨ o.op = opCall) ∧ !o.dev ∧ o.count ≠ 0 then some (o.addr, o.count)
  else if o.op = opMedia ∧ !o.dev ∧ !joined then some (o.pa, 128)
  else none

/-- Requests the block the order at the front needs from host memory. -/
def askBlock (k : Nat) (o : Ord) (joined : Bool) (s : State) : State :=
  match o.blockAt joined with
  | some (a, n) => askHost k 2 a n s
  | none => s

/-- Looks at the order at the front of a program that runs none: a failed fetch ends the program with HOSTF (R48), a
failed check with REJ and the lowest reason (R100); else the block it needs is requested. A MEDIA order whose fields fail
only checks above 0x0005 is judged with its command block and its list, which may fail a lower one (R603). DEDUCED, log
entry 100. -/
def checkFront (k : Nat) (s : State) : State :=
  match s.progAt k with
  | none => s
  | some p =>
    match p.run, p.fetched with
    | none, f :: _ =>
      let res := match p.join with | some (_, r) => r.x.residual | none => 0
      if f.failed then endProg k stHostf 0x0300 res f.addr s
      else
        let o := parseOrd f.raw
        match orderReasons k p o (p.join.map (·.1)) s with
        | r :: _ => if o.op = opMedia ∧ 5 < r then askBlock k o p.join.isSome s else endProg k stRej r res f.addr s
        | [] => askBlock k o p.join.isSome s
    | _, _ => s

/-- Requests the next order while fewer than 8 are fetched ahead (R52). -/
def fetchMore (k : Nat) (s : State) : State :=
  match s.progAt k with
  | none => s
  | some p =>
    match p.fetchAt with
    | some a => if p.fetched.length < 8 then askHost k 1 a 32 s else s
    | none => s

/-- Moves a program on to the order at `a`: the next one fetched, or one still to be fetched (R52). -/
def goTo (k a : Nat) (s : State) : State :=
  match s.progAt k with
  | none => s
  | some p =>
    match p.fetched with
    | f :: _ =>
      if f.addr = a then checkFront k (modProg k (fun p => { p with next := a, run := none }) s)
      else fetchMore k (modProg k (fun p => { p with next := a, run := none, fetched := [], fetchAt := some a }) s)
    | [] =>
      if p.fetchAt = some a then modProg k (fun p => { p with next := a, run := none }) s
      else fetchMore k (modProg k (fun p => { p with next := a, run := none, fetchAt := some a }) s)

/-- Stops a halted program at an order boundary; `a` is the first order that did not complete, the residual the stripes
of its open object that were not journaled (R115, R118). -/
def haltAt (k a : Nat) (s : State) : State :=
  endProg k stStop 0x0500 (match s.progAt k with | some p => s.unjournaled p | none => 0) a s

/-- After an order has ended normally and any word of it is posted: the program stops if it is halted, ends if NEXT is
clear, else goes on (R49, R67, R115). A join in progress is no boundary. A halted program whose last order completes stops
too, at the address after it (DESIGN CHOICE, log entry 50). Nothing goes on while the function is reset (R145). -/
def nextOrder (k : Nat) (s : State) : State :=
  match s.progAt k with
  | none => s
  | some p =>
    match p.run with
    | none => s
    | some r =>
      let o := parseOrd r.raw
      let a := r.addr + 32
      if (s.subAt k).st = .resetting then s
      else if p.join.isSome then goTo k a s
      else if p.halt.isSome then haltAt k a s
      else if o.chained && o.op != opEnd then goTo k a s
      else endProg k stDone 0 r.x.residual r.addr s

/-- Posts the word of the order a program runs; the program stands at the order until it is posted (R124), `place` saying how
it goes on. A program run for another node waits for the attached node's ANSWER. DESIGN CHOICE, log entry 76. -/
def postNote (k : Nat) (w : StatusWord) (r : Run) (place : RunAt) (s : State) : State :=
  let s := modProg k (fun p => { p with run := some { r with place := place } }) s
  let b := s.subAt k
  if isExec k then sendStatus k w s else queuePost b.fn b.cq { w := w, sch := k, kind := .note } s

/-- The current order ends normally (R66, R68, R124): with JOIN its transfer goes on in the next order, and no word is posted
before the join ends, then that of its last order; with MARK the word is posted first. DESIGN CHOICE, log entry 49. -/
def finishOrder (k : Nat) (s : State) : State :=
  match s.progAt k with
  | none => s
  | some p =>
    match p.run with
    | none => s
    | some r =>
      let o := parseOrd r.raw
      let joins := o.join && (o.op == opIngest || o.op == opEmit || o.op == opMedia)
      let s := modProg k (fun p => { p with join := if joins then some (o.op, r) else none }) s
      if (s.subAt k).st = .resetting then s
      else if o.mark && !joins then postNote k (s.word k p flNote (stDone + s.settledBit k p) r.x.residual r.addr 0) r .word s
      else nextOrder k s

/-- A control transfer to `a` (R91, R115): the 65_536th in a row is rejected, a halted program stops instead. -/
def jumpTo (k a : Nat) (r : Run) (s : State) : State :=
  match s.progAt k with
  | none => s
  | some p =>
    if 65536 ≤ p.transfers + 1 then endProg k stRej 0x0018 0 r.addr s
    else
      let s := modProg k (fun p => { p with transfers := p.transfers + 1, fetched := [], fetchAt := none }) s
      if p.halt.isSome then haltAt k a s else goTo k a s

/-- Sets BRANCH conditions: `mask` names those that are set anew (*Branch conditions*). -/
def setConds (k : Nat) (l : List (Nat × Bool)) (s : State) : State :=
  modProg k (fun p => { p with conds := l.foldl (fun c q => putBit c q.1 q.2) p.conds }) s

/-- Whether nothing is fetched past an order before it has run: a JUMP, a BRANCH, an END or one with NEXT clear (R52). -/
def Ord.stopsFetch (o : Ord) : Bool := o.op == opJump || o.op == opBranch || o.op == opEnd || !o.chained

/-- ORDER_FETCH (R48, R52, R54): the order that host memory held at the fetch address; the next one is requested while
fewer than 8 are fetched ahead. -/
def doOrderFetch (k : Nat) (data : HostRead) (s : State) : State :=
  match s.progAt k with
  | none => s
  | some p =>
    match p.fetchAt, (s.live k).isSome || (s.subAt k).st == .waiting || (s.subAt k).st == .waitCore with
    | some a, true =>
      if 8 ≤ p.fetched.length then s
      else
        let f : Fetched := match data with
          | .failed => { addr := a, raw := zeros 32, failed := true }
          | .ok d => { addr := a, raw := padTo 32 d }
        let next := if f.failed || (parseOrd f.raw).stopsFetch then none else some (a + 32)
        let first := p.fetched.isEmpty && p.run.isNone
        let s := fetchMore k (modProg k (fun p => { p with fetched := p.fetched ++ [f], fetchAt := next }) s)
        if first then checkFront k s else s
    | _, _ => s

/-- Data, completion and CALL-CORE orders, which end a row of control transfers (R91). -/
def clearsTransfers (op : Nat) : Bool := [opIngest, opEmit, opMedia, opZone, opCommit, opVerify, opCall].contains op

/-- The orders whose Count is bytes to move: it counts for the residual (R66). -/
def countsBytes (op : Nat) : Bool := [opIngest, opEmit, opMedia, opZone].contains op

/-- Takes the order at the front of the program when it is one of opcode `op`, and does `act` with it. Its run begins
with the transfer of the join it continues, or a fresh one. -/
def takeOrder (k op : Nat) (place : RunAt) (act : Prog → Run → Ord → State → State) (s : State) : State :=
  withProg k (fun p s =>
    match p.run, p.fetched with
    | none, f :: t =>
      let o := parseOrd f.raw
      if f.failed ∨ o.op ≠ op then s
      else
        let n := if countsBytes op then o.count else 0
        let x : Xfer := match p.join with
          | some (_, r) => { r.x with total := r.x.total + n, short := o.short, sink := o.sink, mark := o.mark, dev := o.dev }
          | none => { addr := f.addr, sel := o.sel, total := n, short := o.short, sink := o.sink, mark := o.mark, dev := o.dev }
        let r : Run := { addr := f.addr, raw := f.raw, x := x, place := place }
        let p := { p with run := some r, fetched := t, transfers := if clearsTransfers op then 0 else p.transfers }
        let s := modProg k (fun _ => p) s
        act p r o (if t.length = 7 then fetchMore k s else s)
    | _, _ => s) s

/-- A word of kind note has been posted: its program goes on. -/
def noteposted (k token : Nat) (s : State) : State :=
  match s.progAt k with
  | some p =>
    match p.run with
    | some r =>
      if p.token ≠ token ∨ s.over k p then s
      else match r.place with
        | .word => nextOrder k s
        | .wordTo a => jumpTo k a r s
        | _ => s
    | none => s
  | none => s

/-- STATUS_WORD_POST (R122 to R124, R498, R501): the word at the head of the queue's waiting words is written, then the
tail index. The word of a NOTE or MARK that is posted lets its program go on, by an ANSWER to the node that runs it. DESIGN
CHOICE, log entry 76. -/
def doStatusWordPost (fn cq : Nat) (s : State) : State :=
  let q := cqKey fn cq
  match kvGet s.css.posts q [] with
  | [] => s
  | p :: t =>
    if s.cqRoom q && !s.inD3 fn then
      let s := s.withCss (fun c => { c with posts := if t.isEmpty then kvDel c.posts q else kvSet c.posts q t })
      let s := writeWord fn cq p s
      match p.kind with
      | .final => if (s.progAt p.sch).map (·.token) = some p.w.token then finishProg p.sch s else s
      | .note =>
        if (s.subAt p.sch).remote && !isExec p.sch then
          sendRemote 8 (s.subAt p.sch).node (p.w.token % 65536) p.w.token 0 p.sch fn 6 (leBytes 1 0) [] s
        else noteposted p.sch p.w.token s
      | _ => s
    else s

end Sys2Proof.Machine
end

