-- ==== Sys2Proof/Machine/Inflate.lean ====
section
/-!
DEFINITION. The DEFLATE formats that UNPACK decodes (R177): raw streams, the zlib and the gzip wrapper, and the checks of
their trailers. The bit layout is that of the standards the spec names (RFC 1951, RFC 1950, RFC 1952). PRESUMED, log entry 99.
-/

namespace Sys2Proof.Machine

/-- The bits of bytes, least significant first. -/
def lsbBits (l : List Byte) : List Bool := l.flatMap (fun b => (List.range 8).map (fun i => b.toNat.testBit i))

/-- Takes `n` bits, the first of them the least significant. -/
def takeLsb : Nat → List Bool → Option (Nat × List Bool)
  | 0, b => some (0, b)
  | _ + 1, [] => none
  | n + 1, x :: t => (takeLsb n t).map (fun q => (b2n x + 2 * q.1, q.2))

/-- A canonical prefix code: how many codes have 1, 2, … 15 bits, and the symbols in code order. -/
structure PrefixCode where
  counts : List Nat
  symbols : List Nat
  deriving DecidableEq, Repr

/-- The canonical code of a list of code lengths. -/
def prefixCode (lens : List Nat) : PrefixCode :=
  let all := List.range' 1 15
  { counts := all.map (fun l => lens.count l)
    symbols := all.flatMap (fun l => (List.range lens.length).filter (fun i => lens.getD i 0 == l)) }

/-- Codes of 15 bits that a code leaves unused; none where it gives more codes than there are. -/
def PrefixCode.unused (c : PrefixCode) : Option Nat :=
  c.counts.foldl (fun a n => a.bind (fun left => if n ≤ 2 * left then some (2 * left - n) else none)) (some 1)

/-- Whether a code is complete, or holds at most one code, of one bit. -/
def PrefixCode.usable (c : PrefixCode) : Bool :=
  match c.unused with
  | some 0 => true
  | some _ => c.symbols.length == c.counts.getD 0 0 && decide (c.symbols.length ≤ 1)
  | none => false

/-- Reads one symbol, a bit at a time: `code` is what has been read, `first` the first code of this length, `index` the place
of its symbol. -/
def symbolFrom (syms : List Nat) : List Nat → Nat → Nat → Nat → List Bool → Option (Nat × List Bool)
  | [], _, _, _, _ => none
  | _ :: _, _, _, _, [] => none
  | n :: t, code, first, index, x :: bs =>
    let code := 2 * code + b2n x
    if code < first + n then (syms[index + (code - first)]?).map (fun v => (v, bs))
    else symbolFrom syms t code (2 * (first + n)) (index + n) bs

/-- Reads one symbol of a code. -/
def PrefixCode.next (c : PrefixCode) (b : List Bool) : Option (Nat × List Bool) := symbolFrom c.symbols c.counts 0 0 0 b

/-- `n` bytes copied from `dist` bytes back onto the output, which stands latest byte first. -/
def copyBack (dist : Nat) : Nat → List Byte → List Byte
  | 0, out => out
  | n + 1, out => copyBack dist n (out.getD (dist - 1) 0 :: out)

/-- Base and extra bits of a length symbol 257 + `n`. -/
def lengthBase (n : Nat) : Nat × Nat :=
  if n < 8 then (3 + n, 0) else if n = 28 then (258, 0) else (3 + (4 + n % 4) * 2 ^ (n / 4 - 1), n / 4 - 1)

/-- Base and extra bits of a distance symbol. -/
def distBase (n : Nat) : Nat × Nat :=
  if n < 4 then (1 + n, 0) else (1 + (2 + n % 2) * 2 ^ (n / 2 - 1), n / 2 - 1)

/-- The symbols of one compressed block, up to its end. The first argument bounds them. -/
def inflateCodes (lit dst : PrefixCode) : Nat → List Byte → List Bool → Option (List Byte × List Bool)
  | 0, _, _ => none
  | fuel + 1, out, b =>
    match lit.next b with
    | none => none
    | some (v, b) =>
      if v < 256 then inflateCodes lit dst fuel (BitVec.ofNat 8 v :: out) b
      else if v = 256 then some (out, b)
      else if 286 ≤ v then none
      else
        match takeLsb (lengthBase (v - 257)).2 b with
        | none => none
        | some (e, b) =>
          match dst.next b with
          | none => none
          | some (d, b) =>
            if 30 ≤ d then none
            else
              match takeLsb (distBase d).2 b with
              | none => none
              | some (g, b) =>
                let dist := (distBase d).1 + g
                if out.length < dist then none
                else inflateCodes lit dst fuel (copyBack dist ((lengthBase (v - 257)).1 + e) out) b

/-- The codes of a block with fixed codes. -/
def fixedCodes : PrefixCode × PrefixCode :=
  (prefixCode (List.replicate 144 8 ++ List.replicate 112 9 ++ List.replicate 24 7 ++ List.replicate 8 8),
   prefixCode (List.replicate 30 5))

/-- The code lengths of a dynamic block: `n` more of them, `seen` those read, latest first. -/
def codeLengths (c : PrefixCode) : Nat → Nat → List Nat → List Bool → Option (List Nat × List Bool)
  | 0, _, _, _ => none
  | fuel + 1, n, seen, b =>
    if n = 0 then some (seen.reverse, b)
    else
      match c.next b with
      | none => none
      | some (v, b) =>
        let rep := fun (bits base what : Nat) =>
          match takeLsb bits b with
          | some (e, b) => if n < base + e then none else codeLengths c fuel (n - (base + e)) (List.replicate (base + e) what ++ seen) b
          | none => none
        if v < 16 then codeLengths c fuel (n - 1) (v :: seen) b
        else if v = 16 then (match seen with
          | l :: _ => rep 2 3 l
          | [] => none)
        else if v = 17 then rep 3 3 0
        else rep 7 11 0

/-- The order in which the lengths of the code-length code stand. -/
def lengthOrder : List Nat := [16, 17, 18, 0, 8, 7, 9, 6, 10, 5, 11, 4, 12, 3, 13, 2, 14, 1, 15]

/-- `n` numbers of three bits. -/
def threeBits : Nat → List Bool → Option (List Nat × List Bool)
  | 0, b => some ([], b)
  | n + 1, b =>
    match takeLsb 3 b with
    | none => none
    | some (v, b) => (threeBits n b).map (fun q => (v :: q.1, q.2))

/-- The codes of a block with dynamic codes, from its head. -/
def dynamicCodes (b : List Bool) : Option ((PrefixCode × PrefixCode) × List Bool) :=
  match takeLsb 14 b with
  | none => none
  | some (h, b) =>
    let nlit := h % 32 + 257
    let ndst := h / 32 % 32 + 1
    match threeBits (h / 1024 + 4) b with
    | none => none
    | some (l, b) =>
      let lens := (List.range 19).map (fun v => match (lengthOrder.zip l).find? (fun q => q.1 == v) with
        | some q => q.2
        | none => 0)
      let c := prefixCode lens
      if c.unused ≠ some 0 ∨ 286 < nlit ∨ 30 < ndst then none
      else
        match codeLengths c (nlit + ndst + 1) (nlit + ndst) [] b with
        | none => none
        | some (all, b) =>
          let lit := prefixCode (all.take nlit)
          let dst := prefixCode (all.drop nlit)
          if all.getD 256 0 = 0 ∨ !lit.usable ∨ !(dst.usable || dst.symbols.isEmpty) then none else some ((lit, dst), b)

/-- The blocks of a stream up to its last, `len` the bits of the whole stream; the bits that are left begin at a byte. The first
argument bounds the blocks. -/
def inflateBlocks (len : Nat) : Nat → List Byte → List Bool → Option (List Byte × List Bool)
  | 0, _, _ => none
  | fuel + 1, out, b =>
    match takeLsb 3 b with
    | none => none
    | some (h, b) =>
      let align := fun (b : List Bool) => b.drop (b.length % 8)
      let done : Option (List Byte × List Bool) :=
        if h / 2 = 0 then
          match takeLsb 32 (align b) with
          | none => none
          | some (v, b) =>
            let n := v % 65536
            if n + v / 65536 ≠ 65535 ∨ b.length < 8 * n then none
            else
              let bytes := (pieces 8 (b.take (8 * n))).map (fun q => BitVec.ofNat 8 (((takeLsb 8 q).map (·.1)).getD 0))
              some (bytes.reverse ++ out, b.drop (8 * n))
        else if h / 2 = 1 then inflateCodes fixedCodes.1 fixedCodes.2 (len + 1) out b
        else if h / 2 = 2 then
          match dynamicCodes b with
          | some (c, b) => inflateCodes c.1 c.2 (len + 1) out b
          | none => none
        else none
      match done with
      | none => none
      | some (out, b) => if h % 2 = 1 then some (out.reverse, align b) else inflateBlocks len fuel out b

/-- Decodes a DEFLATE stream: its bytes, and how many bytes of the input follow it. -/
def inflate (l : List Byte) : Option (List Byte × Nat) :=
  let b := lsbBits l
  (inflateBlocks b.length (b.length + 1) [] b).map (fun q => (q.1, q.2.length / 8))

/-- Adler-32. -/
def adler32 (m : List Byte) : Nat :=
  let q := m.foldl (fun (a : Nat × Nat) b => ((a.1 + b.toNat) % 65521, (a.2 + a.1 + b.toNat) % 65521)) (1, 0)
  q.2 * 65536 + q.1

/-- CRC-32 of gzip. -/
def crc32 (m : List Byte) : Nat := m.foldl (crcByte 0xEDB88320) 0xFFFFFFFF ^^^ 0xFFFFFFFF

/-- Decodes a raw DEFLATE stream, with nothing behind it. -/
def unpackDeflate (l : List Byte) : Option (List Byte) :=
  match inflate l with
  | some (d, 0) => some d
  | _ => none

/-- Decodes a zlib wrapper: no preset dictionary, and the Adler-32 trailer (R177). -/
def unpackZlib (l : List Byte) : Option (List Byte) :=
  let cmf := fieldAt l 0 1
  let flg := fieldAt l 1 1
  if l.length < 6 ∨ cmf % 16 ≠ 8 ∨ 7 < cmf / 16 ∨ (cmf * 256 + flg) % 31 ≠ 0 ∨ flg.testBit 5 then none
  else
    match inflate (l.drop 2) with
    | some (d, 4) => if beNat (l.drop (l.length - 4)) = adler32 d then some d else none
    | _ => none

/-- What follows a text that a zero byte ends. -/
def afterText (l : List Byte) : Option (List Byte) :=
  match l.dropWhile (· != 0) with
  | _ :: t => some t
  | [] => none

/-- What follows a gzip header; its optional parts, and its own CRC, are those of its flags. -/
def afterGzipHead (l : List Byte) : Option (List Byte) :=
  let flg := fieldAt l 3 1
  if l.length < 18 ∨ bytesAt l 0 3 ≠ [0x1F, 0x8B, 8] ∨ 32 ≤ flg then none
  else
    let extra := fun (b : List Byte) =>
      if !flg.testBit 2 then some b
      else if b.length < 2 + fieldAt b 0 2 then none else some (b.drop (2 + fieldAt b 0 2))
    let text := fun (i : Nat) (b : List Byte) => if flg.testBit i then afterText b else some b
    match ((extra (l.drop 10)).bind (text 3)).bind (text 4) with
    | none => none
    | some b =>
      if !flg.testBit 1 then some b
      else if b.length < 2 ∨ fieldAt b 0 2 ≠ crc32 (l.take (l.length - b.length)) % 65536 then none
      else some (b.drop 2)

/-- Decodes a gzip member, alone, with the CRC-32 and ISIZE trailer (R177). -/
def unpackGzip (l : List Byte) : Option (List Byte) :=
  match (afterGzipHead l).bind inflate with
  | some (d, 8) =>
    let t := l.drop (l.length - 8)
    if fieldAt t 0 4 = crc32 d ∧ fieldAt t 4 4 = d.length % 2 ^ 32 then some d else none
  | _ => none

end Sys2Proof.Machine
end

