-- ==== Sys2Proof/Machine/Zstd.lean ====
section
/-!
DEFINITION. The Zstandard frames that UNPACK decodes (R177), within its limits: one frame, a window of at most 8 MiB, no
dictionary. The layout of blocks, entropy tables and sequences is that of the standard the spec names (RFC 8878). PRESUMED,
log entry 99.
-/

namespace Sys2Proof.Machine

/-- The largest power of two, as an exponent, not above `n`; 0 for 0. -/
def topBit (n : Nat) : Nat := Nat.log2 n

/-- The bits of a stream read from its end: its last byte holds the mark, the highest set bit. -/
def backBits (l : List Byte) : Option (List Bool) :=
  match l.reverse.flatMap (fun b => (List.range 8).map (fun i => b.toNat.testBit (7 - i))) with
  | [] => none
  | b => if (b.take 8).contains true then some ((b.dropWhile (!·)).drop 1) else none

/-- The number that bits spell, most significant first. -/
def msbNat (b : List Bool) : Nat := b.foldl (fun a x => 2 * a + b2n x) 0

/-- Takes `n` bits, the first of them the most significant. -/
def takeMsb (n : Nat) (b : List Bool) : Option (Nat × List Bool) :=
  if b.length < n then none else some (msbNat (b.take n), b.drop n)

/-- The next `n` bits, zeros after the last. -/
def peekMsb (n : Nat) (b : List Bool) : Nat := msbNat (b.take n) * 2 ^ (n - (b.take n).length)

/-! ## Entropy tables -/

/-- A state of an FSE table: its symbol, the bits to read and the base of the next state. -/
structure FseCell where
  sym : Nat
  nbits : Nat
  base : Nat
  deriving DecidableEq, Repr

/-- An FSE table: its accuracy and its states. -/
structure FseTable where
  log : Nat
  cells : List FseCell
  deriving DecidableEq, Repr

/-- The next place for a symbol below `high`; the first argument bounds the search. -/
def fsePlace (size high : Nat) : Nat → Nat → Nat
  | 0, p => p
  | n + 1, p =>
    let p := (p + size / 2 + size / 8 + 3) % size
    if high ≤ p then fsePlace size high n p else p

/-- Spreads symbols over the places of a table. -/
def fseSpread (size high : Nat) : List Nat → Nat → List Nat → List Nat
  | [], _, t => t
  | s :: l, p, t => fseSpread size high l (fsePlace size high size p) (t.set p s)

/-- The states of a table from the symbols of its places: `next` holds each symbol's next number. -/
def fseCells (log : Nat) : List Nat → List Nat → List FseCell
  | [], _ => []
  | s :: l, next =>
    let n := next.getD s 1
    let b := log - topBit n
    { sym := s, nbits := b, base := n * 2 ^ b - 2 ^ log } :: fseCells log l (next.set s (n + 1))

/-- The table of a distribution: shares of 2^log per symbol; 0 stands for less than one, n + 1 for n. -/
def fseTable (log : Nat) (freqs : List Int) : FseTable :=
  let size := 2 ^ log
  let idx := List.range freqs.length
  let low := idx.filter (fun s => freqs.getD s 0 == -1)
  let high := size - low.length
  let tops := (List.replicate high 0) ++ low.reverse
  let list := idx.flatMap (fun s => List.replicate (freqs.getD s 0).toNat s)
  { log := log
    cells := fseCells log (fseSpread size high list 0 tops) (freqs.map (fun f => f.natAbs)) }

/-- A table of one symbol that takes no bits. -/
def oneSymbol (s : Nat) : FseTable := { log := 0, cells := [{ sym := s, nbits := 0, base := 0 }] }

/-- Zero shares behind a zero share, two bits at a time. -/
def fseZeros : Nat → List Bool → Option (Nat × List Bool)
  | 0, _ => none
  | n + 1, b =>
    match takeLsb 2 b with
    | none => none
    | some (3, b) => (fseZeros n b).map (fun q => (q.1 + 3, q.2))
    | some (r, b) => some (r, b)

/-- The shares of a distribution: `left` of them still to give, `seen` those read, latest first. -/
def fseShares : Nat → Nat → List Int → List Bool → Option (List Int × List Bool)
  | 0, _, _, _ => none
  | fuel + 1, left, seen, b =>
    if left = 0 then some (seen.reverse, b)
    else
      let n := topBit (left + 1) + 1
      let short := 2 ^ n - 1 - (left + 1)
      match takeLsb (n - 1) b with
      | none => none
      | some (v, b') =>
        let got : Option (Nat × List Bool) :=
          if v < short then some (v, b')
          else match takeLsb 1 b' with
            | none => none
            | some (h, b) => some (if h = 1 then v + 2 ^ (n - 1) - short else v, b)
        match got with
        | none => none
        | some (v, b) =>
          let share : Int := (v : Int) - 1
          if left < share.natAbs then none
          else if share = 0 then
            match fseZeros 86 b with
            | none => none
            | some (z, b) => fseShares fuel left (List.replicate z 0 ++ (0 :: seen)) b
          else fseShares fuel (left - share.natAbs) (share :: seen) b

/-- Reads the description of a table with accuracy at most `maxLog` over `syms` symbols: the table and its bytes. -/
def fseRead (maxLog syms : Nat) (l : List Byte) : Option (FseTable × Nat) :=
  match takeLsb 4 (lsbBits l) with
  | none => none
  | some (a, b) =>
    let log := a + 5
    if maxLog < log then none
    else
      match fseShares (syms + 1) (2 ^ log) [] b with
      | none => none
      | some (f, b) => if syms < f.length then none else some (fseTable log f, l.length - b.length / 8)

/-- The cell of a state. -/
def FseTable.at (t : FseTable) (st : Nat) : FseCell := t.cells.getD st { sym := 0, nbits := 0, base := 0 }

/-- The symbols of two states that take turns until the bits are used up (Huffman weights). -/
def fseTurns (t : FseTable) : Nat → Nat → Nat → List Bool → List Nat
  | 0, _, _, _ => []
  | n + 1, a, c, b =>
    let q := t.at a
    if b.length < q.nbits then [q.sym, (t.at c).sym]
    else q.sym :: fseTurns t n c (q.base + msbNat (b.take q.nbits)) (b.drop q.nbits)

/-! ## Literals -/

/-- A Huffman table: its width, and for every number of that many bits the symbol and its length. -/
structure HufTable where
  width : Nat
  cells : List (Nat × Nat)
  deriving DecidableEq, Repr

/-- The Huffman table of the weights of all symbols but the last, whose weight makes the sum a power of two. -/
def hufTable (w : List Nat) : Option HufTable :=
  let sum := w.foldl (fun a x => a + (if x = 0 then 0 else 2 ^ (x - 1))) 0
  let width := topBit sum + 1
  let left := 2 ^ width - sum
  if sum = 0 ∨ 11 < width ∨ left ≠ 2 ^ topBit left ∨ 255 < w.length then none
  else
    let all := w ++ [topBit left + 1]
    some
      { width := width
        cells := (List.range' 1 width).flatMap (fun x =>
          ((List.range all.length).filter (fun s => all.getD s 0 == x)).flatMap (fun s =>
            List.replicate (2 ^ (x - 1)) (s, width + 1 - x))) }

/-- Reads a Huffman tree description: the table and its bytes. -/
def hufRead (l : List Byte) : Option (HufTable × Nat) :=
  match l with
  | [] => none
  | h :: t =>
    let n := h.toNat
    if 128 ≤ n then
      let k := n - 127
      if t.length < (k + 1) / 2 then none
      else
        let w := (t.take ((k + 1) / 2)).flatMap (fun b => [b.toNat / 16, b.toNat % 16])
        (hufTable (w.take k)).map (fun q => (q, 1 + (k + 1) / 2))
    else if t.length < n then none
    else
      match fseRead 6 256 (t.take n) with
      | none => none
      | some (tab, used) =>
        match backBits ((t.take n).drop used) with
        | none => none
        | some b =>
          match takeMsb tab.log b with
          | none => none
          | some (s1, b) =>
            match takeMsb tab.log b with
            | none => none
            | some (s2, b) => (hufTable (fseTurns tab 256 s1 s2 b)).map (fun q => (q, 1 + n))

/-- `n` symbols of a Huffman stream, which must end with them. -/
def hufDecode (t : HufTable) : Nat → List Bool → Option (List Byte)
  | 0, b => if b.isEmpty then some [] else none
  | n + 1, b =>
    let q := t.cells.getD (peekMsb t.width b) (0, 0)
    if b.length < q.2 then none else (hufDecode t n (b.drop q.2)).map (fun l => BitVec.ofNat 8 q.1 :: l)

/-- One Huffman stream of `n` symbols. -/
def hufStream (t : HufTable) (n : Nat) (l : List Byte) : Option (List Byte) := (backBits l).bind (hufDecode t n)

/-- Four Huffman streams of `n` symbols together, behind their jump table. -/
def hufFour (t : HufTable) (n : Nat) (l : List Byte) : Option (List Byte) :=
  let a := fieldAt l 0 2
  let b := fieldAt l 2 2
  let c := fieldAt l 4 2
  let each := (n + 3) / 4
  if l.length < 6 + a + b + c ∨ n < 3 * each then none
  else
    let d := l.drop 6
    match hufStream t each (d.take a), hufStream t each ((d.drop a).take b), hufStream t each ((d.drop (a + b)).take c),
        hufStream t (n - 3 * each) (d.drop (a + b + c)) with
    | some w, some x, some y, some z => some (w ++ x ++ y ++ z)
    | _, _, _, _ => none

/-- The literals of a block: the bytes, the Huffman table in force after it, and what follows the section. -/
def zLiterals (huf : Option HufTable) (l : List Byte) : Option (List Byte × Option HufTable × List Byte) :=
  let h := fieldAt l 0 5
  let form := h / 4 % 4
  if l.isEmpty then none
  else if h % 4 < 2 then
    let (head, n) := if form % 2 = 0 then (1, h / 8 % 32) else if form = 1 then (2, h / 16 % 4096) else (3, h / 16 % 2 ^ 20)
    let rest := l.drop head
    if l.length < head ∨ 131072 < n then none
    else if h % 4 = 0 then (if rest.length < n then none else some (rest.take n, huf, rest.drop n))
    else match rest with
      | b :: t => some (List.replicate n b, huf, t)
      | [] => none
  else
    let (head, w) := if form < 2 then (3, 10) else if form = 2 then (4, 14) else (5, 18)
    let n := h / 16 % 2 ^ w
    let size := h / 2 ^ (4 + w) % 2 ^ w
    let body := (l.drop head).take size
    if l.length < head + size ∨ 131072 < n then none
    else
      let tab : Option (HufTable × Nat) := if h % 4 = 2 then hufRead body else huf.map (fun t => (t, 0))
      match tab with
      | none => none
      | some (t, used) =>
        ((if form = 0 then hufStream t n (body.drop used) else hufFour t n (body.drop used))).map (fun d =>
          (d, some t, l.drop (head + size)))

/-! ## Sequences -/

/-- The distributions in force when a block gives none. -/
def literalShares : List Int :=
  [4, 3, 2, 2, 2, 2, 2, 2, 2, 2, 2, 2, 2, 1, 1, 1, 2, 2, 2, 2, 2, 2, 2, 2, 2, 3, 2, 1, 1, 1, 1, 1, -1, -1, -1, -1]

/-- Of match lengths. -/
def matchShares : List Int := [1, 4, 3, 2, 2, 2, 2, 2, 2] ++ List.replicate 37 1 ++ List.replicate 7 (-1)

/-- Of offsets. -/
def offsetShares : List Int := List.replicate 6 1 ++ [2, 2, 2] ++ List.replicate 15 1 ++ List.replicate 5 (-1)

/-- Codes whose ranges follow one another: widths in extra bits from a first code's base on. -/
def rangeBase (base : Nat) : List Nat → Nat → Option (Nat × Nat)
  | [], _ => none
  | b :: _, 0 => some (base, b)
  | b :: t, n + 1 => rangeBase (base + 2 ^ b) t n

/-- Base and extra bits of a literal-length code. -/
def literalBase (c : Nat) : Option (Nat × Nat) :=
  rangeBase 0 (List.replicate 16 0 ++ [1, 1, 1, 1, 2, 2, 3, 3, 4] ++ List.range' 6 11) c

/-- Base and extra bits of a match-length code. -/
def matchBase (c : Nat) : Option (Nat × Nat) :=
  rangeBase 3 (List.replicate 32 0 ++ [1, 1, 1, 1, 2, 2, 3, 3, 4, 4, 5] ++ List.range' 7 10) c

/-- What one block leaves for the next: tables and the last three offsets. -/
structure ZState where
  huf : Option HufTable := none
  ll : Option FseTable := none
  off : Option FseTable := none
  ml : Option FseTable := none
  reps : Nat × Nat × Nat := (1, 4, 8)
  deriving DecidableEq, Repr

/-- The table a mode selects, and what follows its description. -/
def zTable (mode log syms : Nat) (fixed : FseTable) (old : Option FseTable) (l : List Byte) : Option (FseTable × List Byte) :=
  if mode = 0 then some (fixed, l)
  else if mode = 1 then (match l with
    | b :: t => if b.toNat < syms then some (oneSymbol b.toNat, t) else none
    | [] => none)
  else if mode = 2 then (fseRead log syms l).map (fun q => (q.1, l.drop q.2))
  else old.map (fun t => (t, l))

/-- The distance a sequence's offset value names, and the offsets after it. -/
def zOffset (v litLen : Nat) (r : Nat × Nat × Nat) : Nat × (Nat × Nat × Nat) :=
  if 3 < v then (v - 3, (v - 3, r.1, r.2.1))
  else
    match (if litLen = 0 then v else v - 1) with
    | 0 => (r.1, r)
    | 1 => (r.2.1, (r.2.1, r.1, r.2.2))
    | 2 => (r.2.2, (r.2.2, r.1, r.2.1))
    | _ => (r.1 - 1, (r.1 - 1, r.1, r.2.1))

/-- Sequences run over the output, which stands latest byte first: `n` are left, `lits` the literals left, `window` the
farthest distance. -/
def zSequences (tl tf tm : FseTable) (window : Nat) :
    Nat → Nat → Nat → Nat → List Bool → List Byte → List Byte → (Nat × Nat × Nat) → Option (List Byte × List Byte × (Nat × Nat × Nat))
  | 0, _, _, _, b, lits, out, reps => if b.isEmpty then some (lits, out, reps) else none
  | n + 1, sl, so, sm, b, lits, out, reps =>
    let cl := tl.at sl
    let co := tf.at so
    let cm := tm.at sm
    match takeMsb co.sym b, matchBase cm.sym, literalBase cl.sym with
    | some (ov, b), some (mb, mx), some (lb, lx) =>
      match takeMsb mx b with
      | none => none
      | some (mv, b) =>
        match takeMsb lx b with
        | none => none
        | some (lv, b) =>
          let ll := lb + lv
          let (dist, reps) := zOffset (2 ^ co.sym + ov) ll reps
          let out := (lits.take ll).reverse ++ out
          if lits.length < ll ∨ dist = 0 ∨ out.length < dist ∨ window < dist then none
          else
            let out := copyBack dist (mb + mv) out
            let lits := lits.drop ll
            if n = 0 then zSequences tl tf tm window 0 0 0 0 b lits out reps
            else
              match takeMsb cl.nbits b with
              | none => none
              | some (x, b) =>
                match takeMsb cm.nbits b with
                | none => none
                | some (y, b) =>
                  match takeMsb co.nbits b with
                  | none => none
                  | some (z, b) => zSequences tl tf tm window n (cl.base + x) (co.base + z) (cm.base + y) b lits out reps
    | _, _, _ => none

/-- The number of sequences of a block and what follows it. -/
def zCount (l : List Byte) : Option (Nat × List Byte) :=
  match l with
  | [] => none
  | h :: t =>
    let n := h.toNat
    if n < 128 then some (n, t)
    else if n < 255 then (if t.isEmpty then none else some ((n - 128) * 256 + fieldAt t 0 1, t.drop 1))
    else if t.length < 2 then none else some (fieldAt t 0 2 + 0x7F00, t.drop 2)

/-- One compressed block: the output after it, and what it leaves for the next. -/
def zBlock (window : Nat) (z : ZState) (out : List Byte) (l : List Byte) : Option (List Byte × ZState) :=
  match zLiterals z.huf l with
  | none => none
  | some (lits, huf, l) =>
    match zCount l with
    | none => none
    | some (0, l) => if l.isEmpty then some (lits.reverse ++ out, { z with huf := huf }) else none
    | some (n, []) => if n = 0 then none else none
    | some (n, h :: l) =>
      let m := h.toNat
      if m % 4 ≠ 0 then none
      else
        match zTable (m / 64) 9 36 (fseTable 6 literalShares) z.ll l with
        | none => none
        | some (tl, l) =>
          match zTable (m / 16 % 4) 8 32 (fseTable 5 offsetShares) z.off l with
          | none => none
          | some (tf, l) =>
            match zTable (m / 4 % 4) 9 53 (fseTable 6 matchShares) z.ml l with
            | none => none
            | some (tm, l) =>
              match backBits l with
              | none => none
              | some b =>
                match takeMsb tl.log b with
                | none => none
                | some (sl, b) =>
                  match takeMsb tf.log b with
                  | none => none
                  | some (so, b) =>
                    match takeMsb tm.log b with
                    | none => none
                    | some (sm, b) =>
                      (zSequences tl tf tm window n sl so sm b lits out z.reps).map (fun q =>
                        (q.1.reverse ++ q.2.1,
                          { huf := huf, ll := some tl, off := some tf, ml := some tm, reps := q.2.2 }))

/-- The blocks of a frame up to its last: the output, latest byte first, and what follows. The first argument bounds the
blocks. -/
def zBlocks (window : Nat) : Nat → ZState → List Byte → List Byte → Option (List Byte × List Byte)
  | 0, _, _, _ => none
  | fuel + 1, z, out, l =>
    let h := fieldAt l 0 3
    let kind := h / 2 % 4
    let size := h / 8
    let rest := l.drop 3
    let most := min window 131072
    if l.length < 3 ∨ most < size then none
    else
      let got : Option (List Byte × ZState × List Byte) :=
        if kind = 0 then (if rest.length < size then none else some ((rest.take size).reverse ++ out, z, rest.drop size))
        else if kind = 1 then (match rest with
          | b :: t => some (List.replicate size b ++ out, z, t)
          | [] => none)
        else if kind = 2 then
          if rest.length < size then none
          else match zBlock window z out (rest.take size) with
            | some (out', z) => if out.length + most < out'.length then none else some (out', z, rest.drop size)
            | none => none
        else none
      match got with
      | none => none
      | some (out, z, l) => if h % 2 = 1 then some (out, l) else zBlocks window fuel z out l

/-! ## The frame -/

/-- The constants of XXH64. -/
def xxPrimes : List (BitVec 64) :=
  [0x9E3779B185EBCA87, 0xC2B2AE3D27D4EB4F, 0x165667B19E3779F9, 0x85EBCA77C2B2AE63, 0x27D4EB2F165667C5]
def xxP (i : Nat) : BitVec 64 := xxPrimes.getD (i - 1) 0

/-- One lane of XXH64 takes eight bytes. -/
def xxRound (a w : BitVec 64) : BitVec 64 := (a + w * xxP 2).rotateLeft 31 * xxP 1

/-- The words of whole pieces of 32 bytes through the four lanes. -/
def xxLanes (a : List (BitVec 64)) (piece : List Byte) : List (BitVec 64) :=
  List.zipWith xxRound a ((pieces 8 piece).map (fun q => BitVec.ofNat 64 (leNat q)))

/-- The last bytes of a text, fewer than 32: eight, then four, then one at a time. The first argument bounds the pieces. -/
def xxTail : Nat → BitVec 64 → List Byte → BitVec 64
  | 0, h, _ => h
  | n + 1, h, l =>
    if 8 ≤ l.length then
      xxTail n ((h ^^^ xxRound 0 (BitVec.ofNat 64 (fieldAt l 0 8))).rotateLeft 27 * xxP 1 + xxP 4) (l.drop 8)
    else if 4 ≤ l.length then
      xxTail n ((h ^^^ (BitVec.ofNat 64 (fieldAt l 0 4) * xxP 1)).rotateLeft 23 * xxP 2 + xxP 3) (l.drop 4)
    else match l with
      | b :: t => xxTail n ((h ^^^ (BitVec.ofNat 64 b.toNat * xxP 5)).rotateLeft 11 * xxP 1) t
      | [] => h

/-- XXH64 with seed 0, the source of Content_Checksum. -/
def xxh64 (m : List Byte) : BitVec 64 :=
  let whole := m.length / 32 * 32
  let h : BitVec 64 :=
    if m.length < 32 then xxP 5
    else
      let v := (pieces 32 (m.take whole)).foldl xxLanes [xxP 1 + xxP 2, xxP 2, 0, 0 - xxP 1]
      let mix := (v.getD 0 0).rotateLeft 1 + (v.getD 1 0).rotateLeft 7 + (v.getD 2 0).rotateLeft 12 + (v.getD 3 0).rotateLeft 18
      v.foldl (fun h a => (h ^^^ xxRound 0 a) * xxP 1 + xxP 4) mix
  let h := xxTail 32 (h + BitVec.ofNat 64 m.length) (m.drop whole)
  let h := (h ^^^ h >>> 33) * xxP 2
  let h := (h ^^^ h >>> 29) * xxP 3
  h ^^^ h >>> 32

/-- Decodes a Zstandard frame, alone: a window of at most 8 MiB, Dictionary_ID absent or 0, the content size and the checksum
right where they are given (R177). -/
def unpackZstd (l : List Byte) : Option (List Byte) :=
  let d := fieldAt l 4 1
  let single := d.testBit 5
  let didSize := [0, 1, 2, 4].getD (d % 4) 0
  let fcsSize := if d / 64 = 0 then b2n single else 2 ^ (d / 64)
  let at1 := 5 + b2n (!single)
  let head := at1 + didSize + fcsSize
  let w := fieldAt l 5 1
  let fcs := fieldAt l (at1 + didSize) fcsSize + (if fcsSize = 2 then 256 else 0)
  let window := if single then fcs else 2 ^ (10 + w / 8) + 2 ^ (10 + w / 8) / 8 * (w % 8)
  if l.length < head ∨ fieldAt l 0 4 ≠ 0xFD2FB528 ∨ d.testBit 3 ∨ 2 ^ 23 < window ∨ fieldAt l at1 didSize ≠ 0 then none
  else
    match zBlocks window l.length {} [] (l.drop head) with
    | none => none
    | some (out, rest) =>
      let data := out.reverse
      let sizeOk := fcsSize == 0 || data.length == fcs
      let sum := if d.testBit 2 then leBytes 4 ((xxh64 data).toNat % 2 ^ 32) else []
      if sizeOk && rest == sum then some data else none

/-- What UNPACK decodes from a chunk's stream in its format; nothing where the stream is not valid (R177). -/
def unpackStream (fmt : Nat) (stream : List Byte) : Option (List Byte) :=
  if fmt = 0 then unpackZstd stream
  else if fmt = 1 then unpackDeflate stream
  else if fmt = 2 then unpackZlib stream
  else unpackGzip stream

end Sys2Proof.Machine
end

