-- ==== Sys2Proof/Machine/Pack.lean ====
section
/-!
DEFINITION. What PACK writes for a chunk: the levels (R178) and the stream structure of each format (*Formats written by PACK*,
R176, R179).
-/

namespace Sys2Proof.Machine

/-- The level of PACK Parameter B [7:4] (*Level parameters*). -/
def packLevelOf (level : Nat) : PackLevel :=
  match level with
  | 0 =>
    { window := 2 ^ 18, hashBits := 16, chainDepth := 1, minMatch := 6, lazySteps := 0, computed := false
      dynamicHuffman := false, deflateDepth := 1, deflateLazy := 0 }
  | 1 =>
    { window := 2 ^ 20, hashBits := 18, chainDepth := 8, minMatch := 5, lazySteps := 1, computed := true
      dynamicHuffman := true, deflateDepth := 8, deflateLazy := 0 }
  | _ =>
    { window := 2 ^ 23, hashBits := 20, chainDepth := 64, minMatch := 4, lazySteps := 2, computed := true
      dynamicHuffman := true, deflateDepth := 64, deflateLazy := 2 }

/-- The window PACK uses: the level's, 32 KiB for the DEFLATE formats, or a smaller one of the order (R178). -/
def packWindow (fmt level win : Nat) : Nat :=
  let top := if fmt ≠ 0 then 32768 else (packLevelOf level).window
  if win = 0 then top else min win top

/-- The parameters for a chunk: the match distance is also limited by its length (R178). -/
def packParams (fmt level win : Nat) (chunk : List Byte) : PackLevel :=
  { packLevelOf level with window := min (packWindow fmt level win) chunk.length }

/-- One Zstandard block: raw, RLE or compressed, whichever is smallest. -/
def zstdBlock (p : PackLevel) (last : Bool) (before block : List Byte) : List Byte :=
  let head := fun (kind size : Nat) => leBytes 3 (b2n last + 2 * kind + 8 * size)
  let packed := Config.zstdBlock p before block
  match block with
  | [] => head 0 0
  | b :: _ =>
    if block.all (· == b) then head 1 block.length ++ [b]
    else if packed.length < block.length then head 2 packed.length ++ packed
    else head 0 block.length ++ block

/-- The blocks of a chunk, of at most 128 KiB each; the first argument bounds them. -/
def zstdBlocks (p : PackLevel) : Nat → List Nat → List Byte → List Byte → List Byte
  | 0, _, _, _ => []
  | fuel + 1, cuts, before, rest =>
    let n := clamp 1 131072 (cuts.headD 131072)
    let last := decide (rest.length ≤ n)
    zstdBlock p last before (rest.take n) ++
      (if last then [] else zstdBlocks p fuel (cuts.drop 1) (before ++ rest.take n) (rest.drop n))

/-- The header of a Zstandard frame: one segment, the content size in the fewest bytes, no dictionary, no checksum. -/
def zstdHead (n : Nat) : List Byte :=
  leBytes 4 0xFD2FB528 ++
    (if n < 256 then leBytes 1 0x20 ++ leBytes 1 n
     else if n < 65792 then leBytes 1 0x60 ++ leBytes 2 (n - 256)
     else leBytes 1 0xA0 ++ leBytes 4 n)

/-- The stream PACK writes for a chunk: a function of the chunk bytes, the format, the level and the window alone (R176,
R179). -/
def packStream (fmt level win : Nat) (chunk : List Byte) : List Byte :=
  let p := packParams fmt level win chunk
  if fmt = 0 then zstdHead chunk.length ++ zstdBlocks p (chunk.length + 1) (Config.zstdCuts p chunk) [] chunk
  else
    let body := Config.deflateBody p chunk
    if fmt = 1 then body
    else if fmt = 2 then [0x78, [0x01, 0x9C].getD level 0xDA] ++ body ++ beBytes 4 (adler32 chunk)
    else [0x1F, 0x8B, 8, 0] ++ zeros 4 ++ [[4, 0].getD level 2, 0xFF] ++ body ++ leBytes 4 (crc32 chunk) ++
      leBytes 4 chunk.length

end Sys2Proof.Machine
end

