-- ==== Sys2Proof/Machine/Stripes.lean ====
section
/-!
DEFINITION. Chunks and stripes: cutting (R79, R151 to R153), dispatch to PACK (R26, R181), the mirror stream's sender,
locator and counter reservations (R162, R190, R521), stripe buffers (R44, R203), the generator and shards (R196 to R201),
and fetching a stripe's data again (R157, R201, R208).
-/

namespace Sys2Proof.Machine

/-- Whether a mirror message still holds back what depends on it. -/
def State.heldBy (s : State) (q : Option Nat) : Bool :=
  match q with
  | some n => s.inStep && s.pair.unacked.contains n
  | none => false

/-- The reservations of the mirror stream: which counter and its new end. -/
def reserveBytes (which upTo : Nat) : List Byte := leBytes 1 which ++ zeros 7 ++ leBytes 8 upTo

/-- Whether a chunk locator can be had; a block of 65_536 is reserved when the last is used up, and none can be had while the
reservation is not acknowledged (R162, R521). DESIGN CHOICE, log entry 53. -/
def locReady (s : State) : Bool × State :=
  let s := if s.eng.nextLoc < s.eng.locLimit then s
    else
      let lim := s.eng.locLimit + 65536
      let (q, s) := mirror pairReserve (reserveBytes 0 lim) s
      s.withEng (fun e => { e with locLimit := lim, locHeld := q })
  (!s.heldBy s.eng.locHeld, s)

/-- Takes the next chunk locator (R162). -/
def takeLoc (s : State) : Option Nat × State :=
  let (ok, s) := locReady s
  if ok then (some s.eng.nextLoc, s.withEng (fun e => { e with nextLoc := e.nextLoc + 1 })) else (none, s)

/-- Takes the next value of the invocation counter (R190). -/
def takeInvoke (s : State) : Option Nat × State :=
  let s := if s.eng.invoke < s.eng.invokeLimit then s
    else
      let lim := s.eng.invokeLimit + 65536
      let (q, s) := mirror pairReserve (reserveBytes 1 lim) s
      (s.withEng (fun e => { e with invokeLimit := lim, invokeHeld := q })).set .ENG_SEAL_CTR_RESERVED lim
  if s.heldBy s.eng.invokeHeld then (none, s)
  else (some s.eng.invoke, s.withEng (fun e => { e with invoke := e.invoke + 1 }))

/-- Whether a request is taking domain `d` off; no new block is dispatched to it meanwhile (R564). -/
def State.going (s : State) (d : Nat) : Bool := s.mod_.pwrRun.any (fun q => q.1 == d && q.2 != 1)

/-- Whether PD29 is on and not restarting. -/
def State.codeUp (s : State) : Bool := s.pdOn 29 && !s.on .ENG_ONLINE_CODE_RST

/-- Whether PACK engine `e` takes chunks (R26, R442). -/
def State.packUp (s : State) (e : Nat) : Bool :=
  s.bitB .ENG_ONLINE_PACK 0 e &&
  (if e < 4 then s.pdOn 26 && !s.on .ENG_ONLINE_PACK0_RST else s.pdOn 27 && !s.on .ENG_ONLINE_PACK1_RST)

/-- Online PACK engines that take new chunks. DESIGN CHOICE, log entry 47. -/
def State.packEngines (s : State) : List Nat :=
  (List.range 8).filter (fun e => s.packUp e && !s.going (if e < 4 then 26 else 27))

/-- Changes chunk `i` of a program's open object. -/
def modChunk (k i : Nat) (f : Chunk → Chunk) (s : State) : State :=
  modProg k (fun p => { p with chunks := p.chunks.modify i f }) s

/-- Gives locators to the chunks that are stored, in their order, as far as PROBE has judged them (R162). -/
def giveLocs (k : Nat) : List Chunk → State → State
  | [], s => s
  | c :: t, s =>
    if c.place = .cut then s
    else if c.place = .hit ∨ c.loc ≠ 0 then giveLocs k t s
    else
      match takeLoc s with
      | (none, s) => s
      | (some l, s) => giveLocs k t (modChunk k c.ordinal (fun c => { c with loc := l }) s)

/-- Whether PACK is done with a chunk: it is stored as it stands, or a hit. -/
def Chunk.finished (c : Chunk) : Bool :=
  match c.place with
  | .packed | .sealed | .gone | .hit => true
  | _ => false

/-- Chunks of a program that await an earlier one in the reorder stage, or will once their engines end (R181). -/
def Prog.reorder (p : Prog) : Nat :=
  (((p.chunks.dropWhile Chunk.finished).drop 1).filter (fun c => match c.place with
    | .packed | .packing _ => true
    | _ => false)).length

/-- Whether a chunk may be dispatched: no earlier one is unfinished, or the reorder stage has room for it (R181). -/
def Prog.mayPack (p : Prog) (i : Nat) : Bool := (p.chunks.take i).all Chunk.finished || decide (p.reorder < 16)

/-- Puts a chunk on PACK engine `e` under the program's current PACK setting (R181). -/
def putOnPack (k i e : Nat) (s : State) : State :=
  match s.progAt k with
  | none => s
  | some p =>
    let s := modChunk k i (fun c =>
      { c with
        place := .packing e
        stages := { c.stages with packFmt := p.stages.packFmt, packLevel := p.stages.packLevel, packWin := p.stages.packWin } }) s
    let n := ((p.chunks[i]?).map (·.len)).getD 0
    let s := s.bumpN .ENG_PACK_IN_BYTES n
    if p.stages.packLevel = 1 then s else epbFlag .ENG_EPB_FLAGS_NONDEFAULT s

/-- Gives chunks that wait for PACK to the engines, in order, while the reorder stage has room (R181); the engine is the
chunk's ordinal modulo those online. A chunk without PACK passes as it is. -/
def dispatchChunks (k : Nat) : List Chunk → State → State
  | [], s => s
  | c :: t, s =>
    if c.place = .toPack then
      if !(s.progAt k).any (fun p => p.mayPack c.ordinal) then s
      else if !c.sel.testBit 2 then
        dispatchChunks k t (modChunk k c.ordinal (fun c => { c with place := .packed, out := c.data }) s)
      else
        match s.packEngines with
        | [] => s
        | es => dispatchChunks k t (putOnPack k c.ordinal (es.getD (c.ordinal % es.length) 0) s)
    else dispatchChunks k t s

/-- Dispatch for subchannel `k`. DESIGN CHOICE, log entry 47. -/
def dispatch (k : Nat) (s : State) : State :=
  match s.progAt k with
  | some p =>
    let s := giveLocs k p.chunks s
    dispatchChunks k p.chunks s
  | none => s

/-- The coefficient A[j][i] of the generator (R199). -/
def rsCoef (j i : Nat) : Nat := gfMul (i + 8) (gfInv (j ^^^ (i + 8)))

/-- The sum of weighted byte lists, `n` bytes long. -/
def gfSum (n : Nat) (l : List (Nat × List Byte)) : List Byte :=
  l.foldl (fun a q => xorBytes a (padTo n (q.2.map (fun b => BitVec.ofNat 8 (gfMul q.1 b.toNat))))) (zeros n)

/-- The payloads of a stripe's data area: data shards, then parity shards (R196, R199). -/
def shardPayloads (k m u : Nat) (area : List Byte) : List (List Byte) :=
  let n := u - 64
  let data := (List.range k).map (fun i => bytesAt area (i * n) n)
  data ++ (List.range m).map (fun j => gfSum n ((data.zipIdx).map (fun d => (rsCoef j d.2, d.1))))

/-- A shard trailer (R196). -/
def shardTrailer (i k m sh id : Nat) (hash : List Byte) : List Byte :=
  leBytes 4 0x48535657 ++ leBytes 1 i ++ leBytes 1 k ++ leBytes 1 m ++ leBytes 1 sh ++ leBytes 8 id ++ padTo 48 hash

/-- The DRAM address of shard `i` in a buffer (R196). -/
def State.shardAddr (s : State) (buf shift i : Nat) : Nat := s.addrB .ENG_POOL_BASE_BASE 0 + buf * 65536 + i * 2 ^ shift

/-- Fetches the data of a program again from host memory from object offset `off` (R157, R201): chunks, open bytes and
FIFO data from there on are discarded, with the pending entries of those chunks; the digests resume from `dig` bytes. -/
def refetchData (k off dig : Nat) (s : State) : State :=
  match s.progAt k with
  | none => s
  | some p =>
    let kept := p.chunks.filter (fun c => decide (c.off + c.len ≤ off))
    let n := kept.length
    let again := p.pieces.filterMap (fun q =>
      if q.off + q.len ≤ off then none
      else
        let d := off - q.off
        some { q with addr := q.addr + d, len := q.len - d, off := q.off + d })
    let s := setPend (fun l => l.filter (fun x => x.sch != k || decide (x.ord < n))) s
    epbFlag .ENG_EPB_FLAGS_RETRY (modProg k (fun p =>
      { p with
        chunks := kept, nextChunk := min p.nextChunk n, open_ := [], openOff := off, hash := 0, openSrc := none
        fifo := [], reads := [], todo := again, digest := p.digest.take dig }) s)

/-- Discards the open stripe of a program and fetches its data again (R157, R201, R208). -/
def redoStripe (k : Nat) (s : State) : State :=
  match s.progAt k with
  | none => s
  | some p =>
    let s := s.withCss (fun c => { c with bufWait := c.bufWait.filter (fun b => b.1 != k || b.2.2) })
    match p.stripe.bind (kvGet? s.css.stripes) with
    | none =>
      let from_ := ((p.chunks[p.nextChunk]?).map (fun c => (c.off, c.digLen))).getD (p.openOff, p.digest.length)
      refetchData k from_.1 from_.2 (modProg k (fun p => { p with waitBuf := false }) s)
    | some x =>
      let s := modProg k (fun p =>
        { p with stripe := none, stripes := p.stripes.filter (· != x.id), waitBuf := false, cursor := p.cursor - 1 }) s
      refetchData k x.firstOff x.firstDig (discardStripe x.id s)

/-- Closes the open stripe (R198 to R201, R207, R208): the rest of its data area is zero, the parity and the trailers are
formed and all shards go into the buffer; where the DIGEST units disagree or a syndrome is not zero it is fetched again. -/
def closeStripe (k : Nat) (s : State) : State :=
  match (s.progAt k).bind (fun p => p.stripe.bind (kvGet? s.css.stripes)) with
  | none => s
  | some x =>
    if x.digBad then redoStripe k (raiseUe 35 1 0 0 0 0 (s.bump .ENG_DIGEST_MISMATCH_COUNT))
    else if x.synBad ∧ x.set.m ≠ 0 then
      redoStripe k (raiseUe 34 1 0 0 0 0 (s.bump .ENG_SPREAD_SYNFAIL_COUNT))
    else
      let u := 2 ^ x.set.shift
      let pays := shardPayloads x.set.k x.set.m u x.area
      let hashes := pays.map sha384
      let shards := ((pays.zip hashes).zipIdx).map (fun q =>
        (q.2, q.1.1 ++ shardTrailer q.2 x.set.k x.set.m x.set.shift x.id q.1.2))
      let s := if x.set.k = 16 ∧ x.set.m = 4 then s else epbFlag .ENG_EPB_FLAGS_NONDEFAULT s
      let s := shards.foldl (fun s q => (devWrite (s.shardAddr x.buf x.set.shift q.1) q.2 s).2) s
      let s := s.withCss (fun c =>
        { c with stripes := kvSet c.stripes x.id { x with closed := true, area := [], hashes := hashes } })
      modProg k (fun p => { p with stripe := none }) s

/-- Passes over hits at the head of the release order; a close due after one of them closes the stripe. -/
def passHits (k : Nat) : Nat → State → State
  | 0, s => s
  | n + 1, s =>
    match s.progAt k with
    | none => s
    | some p =>
      match p.chunks[p.nextChunk]? with
      | some c =>
        if c.place = .hit then
          let s := modProg k (fun p => { p with nextChunk := p.nextChunk + 1 }) s
          passHits k n (if c.close then closeStripe k s else s)
        else s
      | none => s

/-- Passes over hits, as many as the object has chunks. -/
def skipHits (k : Nat) (s : State) : State :=
  match s.progAt k with
  | some p => passHits k (p.chunks.length + 1) s
  | none => s

/-- Ends the open chunk, when it has bytes (R152, R154): it goes to PROBE, or on to PACK. -/
def cutChunk (k : Nat) (close : Bool) (s : State) : State :=
  match s.progAt k with
  | none => s
  | some p =>
    if p.open_.isEmpty then
      if !close then s
      else if p.nextChunk < p.chunks.length then modChunk k (p.chunks.length - 1) (fun c => { c with close := true }) s
      else closeStripe k s
    else
      let src : SrcPiece := p.openSrc.getD { dev := false, addr := 0, len := 0, sel := 0x10, stages := p.stages }
      let c : Chunk := 
        { ordinal := p.chunks.length, off := p.openOff, data := p.open_, len := p.open_.length
          crc := crc32c p.open_, sel := src.sel, stages := src.stages
          digLen := p.digest.length - (if src.sel.testBit 5 then p.open_.length else 0)
          place := if src.sel.testBit 1 then .cut else .toPack, close := close }
      let s := modProg k (fun p =>
        { p with chunks := p.chunks ++ [c], open_ := [], openOff := p.openOff + c.len, hash := 0, openSrc := none }) s
      let s := if src.stages.chunkLog = 18 then s else epbFlag .ENG_EPB_FLAGS_NONDEFAULT s
      dispatch k (s.bump .ENG_CHUNKS_COUNT)

/-- Sets the flags of a forced cut on a piece. DEDUCED, log entry 48. -/
def SrcPiece.cutHere (close : Bool) (q : SrcPiece) : SrcPiece :=
  { q with cutAfter := true, closeAfter := q.closeAfter || close }

/-- Changes the last element of a list. -/
def modLast {α : Type} (f : α → α) (l : List α) : List α := l.modify (l.length - 1) f

/-- A forced cut (R79, R81, R152): after the data already ingested, and with `close` the part-filled stripe closes after
it. -/
def forceCut (k : Nat) (close : Bool) (s : State) : State :=
  match s.progAt k with
  | none => s
  | some p =>
    let c := SrcPiece.cutHere close
    let s := modProg k (fun p => { p with pieces := modLast c p.pieces }) s
    if !p.todo.isEmpty then modProg k (fun p => { p with todo := modLast c p.todo }) s
    else if !p.reads.isEmpty then modProg k (fun p => { p with reads := modLast c p.reads }) s
    else if !p.fifo.isEmpty then
      modProg k (fun p => { p with fifo := modLast (fun q => { q with src := c q.src }) p.fifo }) s
    else skipHits k (cutChunk k close s)

/-- Free runs of the pool: the lowest first granule at which `n` granules are free. DESIGN CHOICE, log entry 47. -/
def State.poolFit (s : State) (n : Nat) : Option Nat :=
  let ends := 0 :: s.css.bufs.map (fun b => b.1 + b.2.1)
  let free := fun a => decide (a + n ≤ s.poolGranules) && s.css.bufs.all (fun b => decide (a + n ≤ b.1) || decide (b.1 + b.2.1 ≤ a))
  (ends.filter free).foldl (fun a e => match a with | none => some e | some x => some (min x e)) none

/-- Granules a program holds. -/
def State.heldGranules (s : State) (owner : Nat) : Nat :=
  (s.css.bufs.filter (fun b => b.2.2 == owner)).foldl (fun a b => a + b.2.1) 0

/-- Whether a request may be granted as far as its program's share goes: it stays within one eighth of the pool (R44). -/
def State.inShare (s : State) (w : Nat × Nat × Bool) : Bool :=
  match s.progAt w.1 with
  | none => false
  | some p => s.on .ENG_POOL_CTL_ENABLE && decide (8 * (s.heldGranules (ownerOf w.1 p) + w.2.1) ≤ s.poolGranules)

/-- Opens a stripe in a buffer just granted (R25, R131): its id is never used again, by the partner neither. DESIGN CHOICE, log
entry 53. -/
def openStripe (k buf n : Nat) (s : State) : State :=
  match s.progAt k with
  | none => s
  | some p =>
    match p.chunks[p.nextChunk]?, p.stages.spread with
    | some c, some now =>
      let set := (c.stages.spread).getD now
      let id := s.css.nextStripe
      let cur := if p.cursorGen = set.gen then p.cursor else 0
      let x : Stripe := 
        { id := id, sch := k, token := p.token, fn := (s.subAt k).fn, obj := p.obj, cursor := cur, set := set
          buf := buf, granules := n, firstOff := c.off, firstDig := c.digLen }
      let s := s.withCss (fun c => { c with nextStripe := id + 1, stripes := kvSet c.stripes id x })
      let s := (mirror pairReserve (reserveBytes 3 (id + 1)) s).2
      modProg k (fun p =>
        { p with stripe := some id, stripes := p.stripes ++ [id], cursor := cur + 1, cursorGen := set.gen, waitBuf := false }) s
    | _, _ => freeBuf buf s

/-- STRIPE_BUFFER_GRANT (R44, R203): requests are served in order; one whose program is at its share is passed over, one that
finds no free run holds up those after it. -/
def doStripeBufferGrant (s : State) : State :=
  match s.css.bufWait.find? (fun w => s.inShare w) with
  | none => s
  | some w =>
    match s.poolFit w.2.1, s.progAt w.1 with
    | some first, some p =>
      let s := s.withCss (fun c =>
        { c with bufWait := c.bufWait.erase w, bufs := c.bufs ++ [(first, w.2.1, ownerOf w.1 p)] })
      let s := s.set .ENG_POOL_CTL_FREE (s.get .ENG_POOL_CTL_FREE - w.2.1)
      if w.2.2 then
        modProg w.1 (fun p => match p.run with
          | some r => match r.place with
            | .restore rs => { p with run := some { r with place := .restore { rs with buf := some (first, w.2.1) } }, waitBuf := false }
            | _ => p
          | none => p) s
      else openStripe w.1 first w.2.1 s
    | _, _ => s

/-- Asks for a buffer unless the program already waits for one. -/
def askBuf (k n : Nat) (restore : Bool) (s : State) : State :=
  match s.progAt k with
  | some p =>
    if p.waitBuf then s
    else modProg k (fun p => { p with waitBuf := true }) (s.withCss (fun c => { c with bufWait := c.bufWait ++ [(k, n, restore)] }))
  | none => s

end Sys2Proof.Machine
end

