-- ==== Sys2Proof/Machine/Commit.lean ====
section
/-!
DEFINITION. COMMIT: its phases, quorum, STRIPE and OBJECT records, the descriptor log, the object map and digests, the
dedup index and the stripe directory, and entering the custody epoch (R83 to R86, R115, R131 to R133, R161, R165, R210 to
R218, R221, R224, R225).
-/

namespace Sys2Proof.Machine

/-- Whether every chunk of the last INGEST was a hit (condition 1): the chunks that hold bytes of it and are cut. -/
def Prog.hitsNow (p : Prog) : Bool :=
  match p.ingestFrom with
  | none => p.conds.testBit 1
  | some a =>
    let l := p.chunks.filter (fun c => decide (a < c.off + c.len))
    !l.isEmpty && l.all (fun c => c.place == .hit)

/-- The stripe cursor: stripes placed since the last SPREAD order (R129). -/
def Prog.cursorNow (p : Prog) : Nat :=
  match p.stages.spread with
  | some x => if x.gen = p.cursorGen then p.cursor else 0
  | none => 0

/-- An object-map entry (*Object-map entry*, R169). -/
def Chunk.mapEntry (c : Chunk) : List Byte :=
  let hit := c.place == .hit
  let flags := if hit then 1 else b2n c.raw * 2 + b2n c.sealed * 4 + b2n c.packed * 8
  leBytes 8 c.loc ++ leBytes 8 c.off ++ leBytes 4 c.len ++ leBytes 4 (if hit then 0 else c.stored) ++
  leBytes 4 flags ++ leBytes 4 c.crc

/-- The object map of a program's open object (*Object map*). -/
def Prog.objectMap (p : Prog) : List Byte :=
  let es := p.chunks.flatMap Chunk.mapEntry
  leBytes 4 0x4D4F5657 ++ leBytes 2 1 ++ zeros 2 ++ leBytes 4 p.chunks.length ++ leBytes 4 (crc32c es) ++
  leBytes 8 p.objLen ++ leBytes 8 p.token ++ es

/-- The digests of a byte string in the result area (*Result area*, R83). -/
def digestArea (mask : Nat) (data : List Byte) : List Byte :=
  let pick := fun i (l : List Byte) => if mask.testBit i then l else zeros l.length
  pick 0 (sha256 data) ++ pick 1 (sha384 data) ++ pick 2 (sha3 data) ++ pick 3 (leBytes 4 (crc32c data)) ++
  pick 4 (leBytes 8 (crc64 data)) ++ leBytes 4 mask

/-- Writes a result area to host memory or, with DEV, to device DRAM. -/
def writeArea (k : Nat) (dev : Bool) (addr : Nat) (d : List Byte) (s : State) : State :=
  if dev then (devWrite addr d s).2 else tellHost k addr false d s

/-- Entries not yet freed. -/
def State.dlogUsed (s : State) : Nat := (s.get .ENG_DLOG_CTL_TAIL + dlogSize - s.get .ENG_DLOG_CTL_HEAD) % dlogSize

/-- Whether the log has room for `n` entries that are not DROP entries (R213, R214). -/
def State.dlogRoom (s : State) (n : Nat) : Bool := decide (s.dlogUsed + n + 4096 < dlogSize)

/-- Writes a REPAIR entry, settled once it is durable (R211, R225). -/
def putRepair (id mask : Nat) (s : State) : State :=
  dlogMark 1 (dlogPut (leBytes 1 0x14 ++ zeros 7 ++ leBytes 8 id ++ leBytes 8 mask) 0 0 true s)

/-- A REPAIR entry (R211); without room it waits, since the log's reserve is for DROP entries alone (R213). DESIGN CHOICE, log
entry 53. -/
def dlogRepair (id mask : Nat) (s : State) : State :=
  if s.eng.repairWait.isEmpty && s.dlogRoom 1 then putRepair id mask s
  else s.withEng (fun e => { e with repairWait := e.repairWait ++ [(id, mask)] })

/-- Writes the REPAIR entries that wait, oldest first, as far as there is room. -/
def pumpRepairs : List (Nat × Nat) → State → State
  | [], s => s
  | q :: t, s =>
    if s.dlogRoom 1 then pumpRepairs t (putRepair q.1 q.2 (s.withEng (fun e => { e with repairWait := e.repairWait.drop 1 })))
    else s

/-- The placement of a shard. -/
def Stripe.placeOf (x : Stripe) (i : Nat) : Place := x.set.places.getD i { dev := 0, kind := 0, start := 0 }

/-- The tape position a STRIPE record gives: the logical object of the first shard on tape, else 0 (R250). -/
def Stripe.tapePos (x : Stripe) : Nat :=
  match (List.range (x.set.k + x.set.m)).find? (fun i => (x.placeOf i).kind == 3) with
  | some i => kvGet x.lbas i 0
  | none => 0

/-- The STRIPE entry of a stripe (*Descriptor-log entries*). -/
def Stripe.entry (x : Stripe) : List Byte :=
  leBytes 1 0x11 ++ leBytes 1 x.set.k ++ leBytes 1 x.set.m ++ leBytes 1 x.set.shift ++ zeros 4 ++ leBytes 8 x.id ++
  leBytes 8 x.token ++ leBytes 4 x.obj ++ leBytes 2 (x.sch % 4096) ++ leBytes 1 (x.placeOf 0).kind ++ zeros 1 ++
  leBytes 4 x.chunks.length ++ leBytes 8 x.tapePos

/-- The SHARD entry of a shard. -/
def Stripe.shardEntry (x : Stripe) (i : Nat) : List Byte :=
  leBytes 1 0x12 ++ leBytes 1 i ++ leBytes 2 (x.placeOf i).dev ++ leBytes 8 (kvGet x.lbas i 0) ++
  padTo 48 (x.hashes.getD i [])

/-- The CHUNK entry of a chunk of a stripe. -/
def Stripe.chunkEntry (x : Stripe) (c : StripeChunk) : List Byte :=
  leBytes 1 0x13 ++ leBytes 1 c.flags ++ leBytes 1 c.fmt ++ zeros 1 ++ leBytes 4 c.off ++ leBytes 8 c.loc ++
  leBytes 8 x.id ++ leBytes 4 c.stored ++ leBytes 4 c.len

/-- All entries of a stripe in the order of R213. -/
def Stripe.entries (x : Stripe) : List (List Byte) :=
  x.entry :: (List.range (x.set.k + x.set.m)).map x.shardEntry ++ x.chunks.map x.chunkEntry

/-- An entry with its CRC. -/
def sealEntry (d : List Byte) : List Byte := padTo 60 d ++ leBytes 4 (crc32c (padTo 60 d))

/-- The stripes of a program's open object, in order. -/
def State.stripesOf (s : State) (p : Prog) : List Stripe := p.stripes.filterMap (kvGet? s.css.stripes)

/-- The bucket a fingerprint selects among `n` (R161). -/
def bucketOf (fp : List Byte) (n : Nat) : Nat := fieldAt fp 0 8 * n / 2 ^ 64

/-- Whether the index serves lookups: enabled and VALID (R174). -/
def State.idxValid (s : State) : Bool := s.on .ENG_IDX_CTL_ENABLE && s.get .ENG_IDX_CTL_STATE == 1

/-- The DRAM address of the bucket of a fingerprint (R161). -/
def State.bucketAddr (s : State) (fp : List Byte) : Nat :=
  s.addrB .ENG_IDX_BASE_BASE 0 + bucketOf fp (s.get .ENG_IDX_BUCKETS_UNITS * 2 ^ 20) * 128

/-- Reads a bucket: a poisoned line is rewritten empty and counted (R167). -/
def readBucket (a : Nat) (s : State) : List Byte × State :=
  match devRead a 128 s with
  | (.ok d, s) => (d, s)
  | (.poisoned, s) =>
    (zeros 128, raiseCe 29 1 0 a 0 ((devWrite a (zeros 128) s).2.bump .ENG_IDX_POISON_COUNT))
  | (.refused, s) => (zeros 128, s)

/-- The fingerprint and locator of a way of a bucket. -/
def wayFp (d : List Byte) (w : Nat) : List Byte := bytesAt d (32 * w) 24
def wayLoc (d : List Byte) (w : Nat) : Nat := fieldAt d (32 * w + 24) 8

/-- Whether a locator lies in a registered purge range (R163, R170). -/
def State.purged (s : State) (loc : Nat) : Bool := s.eng.purges.any (fun q => decide (q.2.lo ≤ loc) && decide (loc ≤ q.2.hi))

/-- Puts an entry into the bucket at `a`, whose line holds `d` (R165): dropped when the fingerprint is there; else the first
empty way; else, unless `noEvict`, the victim way. -/
def publishAt (a : Nat) (fp : List Byte) (mac24 loc : Nat) (noEvict : Bool) (d : List Byte) (s : State) : State :=
  let used := fun w => wayLoc d w != 0
  if (List.range 4).any (fun w => used w && wayFp d w == fp) then s
  else
    let put := fun w (s : State) =>
      ((devWrite a (overlay d (32 * w) (padTo 24 fp ++ leBytes 8 loc)) s).2).bump .ENG_IDX_INSERTS_COUNT
    match (List.range 4).find? (fun w => !used w) with
    | some w => put w s
    | none => if noEvict then s else put (mac24 % 4) (s.bump .ENG_IDX_EVICTS_COUNT)

/-- Puts an entry into its bucket (R161, R165). -/
def publish (fp : List Byte) (mac24 loc : Nat) (noEvict : Bool) (s : State) : State :=
  let a := s.bucketAddr fp
  let r := readBucket a s
  publishAt a fp mac24 loc noEvict r.1 r.2

/-- Publishes a program's pending entries (R132, R165); those of a destroyed domain are gone already. -/
def publishAll (k : Nat) (s : State) : State :=
  let l := s.eng.pend.filter (fun e => e.sch == k)
  let s := setPend (fun l => l.filter (fun e => e.sch != k)) s
  if s.idxValid then l.foldl (fun s e => publish e.fp e.mac24 e.loc false s) s else s

/-- The multiplier of the directory hash (R216). -/
def dirHash (id n : Nat) : Nat := (id * 0x9E3779B97F4A7C15 % 2 ^ 64) * n / 2 ^ 64

/-- Sets of the chunk table and slots of the stripe table. -/
def State.dirSets (s : State) : Nat := s.get .ENG_DIR_CTL_CHUNK_UNITS * 2 ^ 16
def State.dirSlots (s : State) : Nat := s.get .ENG_DIR_CTL_STRIPE_UNITS * 2 ^ 12

/-- The address of a set of the chunk table and of a slot of the stripe table (R216). -/
def State.dirSetAddr (s : State) (loc : Nat) : Nat := s.addrB .ENG_DIR_BASE_BASE 0 + dirHash loc s.dirSets * 512
def State.dirSlotAddr (s : State) (id : Nat) : Nat :=
  s.addrB .ENG_DIR_BASE_BASE 0 + s.dirSets * 512 + dirHash id s.dirSlots * 4160

/-- Whether a request for a locator (1) or stripe (2) with the same slot is outstanding (R218). -/
def State.dirBusy (s : State) (kind id : Nat) : Bool :=
  s.eng.dirReqs.any (fun r => r.kind == kind &&
    (if kind = 1 then decide (s.dirSetAddr r.id = s.dirSetAddr id) && decide (r.id % 8 = id % 8)
     else decide (s.dirSlotAddr r.id = s.dirSlotAddr id)))

/-- Inserts CHUNK entries, by locator, and the entries of stripe `id` into the directory (R216, R218). -/
def dirPut (chunks : List (Nat × List Byte)) (id : Nat) (slot : List Byte) (s : State) : State :=
  if s.on .ENG_DIR_CTL_ENABLE then
    let s := chunks.foldl (fun s c =>
      if s.dirSets = 0 ∨ s.dirBusy 1 c.1 then s
      else (devWrite (s.dirSetAddr c.1 + c.1 % 8 * 64) c.2 s).2) s
    if s.dirSlots = 0 ∨ s.dirBusy 2 id then s else (devWrite (s.dirSlotAddr id) slot s).2
  else s

/-- Inserts the entries of a committed stripe into the directory. -/
def dirInsert (x : Stripe) (s : State) : State :=
  dirPut (x.chunks.map (fun c => (c.loc, sealEntry (x.chunkEntry c)))) x.id
    ((x.entry :: (List.range (x.set.k + x.set.m)).map x.shardEntry).flatMap sealEntry) s

/-- Stripes of the custody area in use (R224). -/
def State.cusUsed (s : State) : Nat :=
  s.eng.cus.length + (match s.eng.cusClosed with | some e => e.stripes.length | none => 0)

/-- Brings ENG_CUS_STATUS.USED up to date. -/
def countCustody (s : State) : State := s.set .ENG_CUS_STATUS_USED s.cusUsed

/-- The programs whose COMMIT stands at a step. -/
def State.commitsAt (s : State) (c : CommitAt) : List Prog :=
  s.css.subs.filterMap (fun q => q.2.prog.bind (fun p =>
    match p.ending, p.run with
    | none, some r =>
      match r.place with
      | .commit d .. => if d = c then some p else none
      | _ => none
    | _, _ => none))

/-- Stripes of objects whose OBJECT record is asked for: they will enter the open epoch. -/
def State.cusComing (s : State) : Nat := (s.commitsAt .object).foldl (fun a p => a + p.stripes.length) 0

/-- Whether `n` more stripes fit, those on their way counted (R224). -/
def State.cusRoom (s : State) (n : Nat) : Bool :=
  decide (s.cusUsed + s.cusComing + n ≤ 4194304) && decide (s.eng.cus.length + s.cusComing + n ≤ 2097152)

/-- What the mirror stream carries of a stripe that enters custody (DESIGN CHOICE, log entry 26). -/
def CusStripe.bytes (c : CusStripe) : List Byte :=
  leBytes 1 0 ++ leBytes 8 c.id ++ leBytes 1 c.k ++ leBytes 1 c.m ++ leBytes 1 (b2n c.repair) ++
  c.hashes.flatMap (padTo 48)

/-- Adds a stripe to the open epoch (R221), its state carried to the partner (R226). -/
def enterCustody (c : CusStripe) (s : State) : State :=
  let s := s.withEng (fun e => { e with cus := e.cus ++ [c] })
  (mirror pairCustody c.bytes (countCustody s)).2

/-- A stripe as its epoch holds it. -/
def Stripe.custody (x : Stripe) (repair : Bool) : CusStripe :=
  { id := x.id, k := x.set.k, m := x.set.m, repair := repair, hashes := x.hashes }

/-- The record sequence of an object's latest OBJECT record in the journal (R225). -/
def State.objectSeq (s : State) (token obj : Nat) : Option Nat :=
  ((s.jnlLive.filter (fun q => match q.2.body with
    | .object _ ord .. => q.2.token == token && ord == obj
    | _ => false)).getLast?).map (·.2.seq)

/-- An object's OBJECT record is covered by the custody state (R225): its entries are settled. -/
def coverObject (token obj : Nat) (s : State) : State :=
  let last := (s.objectSeq token obj).getD 0
  settleObject token obj (s.withEng (fun e => { e with cusLastObj := max e.cusLastObj last }))

/-- An object is covered here and on the partner (R225, R226). -/
def coverBoth (token obj : Nat) (s : State) : State :=
  coverObject token obj (mirror pairCustody (leBytes 1 4 ++ leBytes 8 token ++ leBytes 4 obj) s).2

/-- Step 5 of R212, once the OBJECT record is durable: custody, index, directory. Then the program's next object begins
(R80). -/
def commitObject (k : Nat) (s : State) : State :=
  match s.progAt k with
  | none => s
  | some p =>
    let xs := s.stripesOf p
    let s := xs.foldl (fun s x => enterCustody (x.custody false) s) s
    let s := publishAll k s
    let s := xs.foldl (fun s x => dirInsert x s) s
    let s := coverBoth p.token p.obj s
    let s := modProg k (fun p =>
      { p with
        conds := putBit p.conds 1 p.hitsNow, obj := p.obj + 1, objLen := 0, nextChunk := 0, chunks := [], openOff := 0
        pieces := [], digest := [], stripes := [], ingestFrom := none }) s
    xs.foldl (fun s x => freeStripe x.id s) s

/-- An OBJECT record is durable: the object is committed and COMMIT ends (R84, R212). -/
def objectDurable (k : Nat) (s : State) : State := finishOrder k (commitObject k s)

/-- Whether all data of the open object has been cut into chunks and every chunk is placed or a hit. -/
def Prog.drained (p : Prog) : Bool :=
  p.todo.isEmpty && p.reads.isEmpty && p.fifo.isEmpty && p.open_.isEmpty &&
  p.chunks.all (fun c => c.place == .gone || c.place == .hit) && p.stripe.isNone

/-- Whether all data of the open object has been cut into chunks. -/
def Prog.cutAll (p : Prog) : Bool :=
  p.todo.isEmpty && p.reads.isEmpty && p.fifo.isEmpty && p.open_.isEmpty

/-- The shards a stripe needs durable under a COMMIT quorum (R211). -/
def Stripe.need (x : Stripe) (quorum : Nat) : Nat := if quorum = 0 then x.set.k + x.set.m else quorum

/-- Shards of a stripe that can no longer become durable. -/
def Stripe.lost (x : Stripe) : List Nat :=
  (List.range (x.set.k + x.set.m)).filter (fun i =>
    x.ended.contains i && !x.durable.contains i && !x.unsynced.contains i)

/-- Whether a stripe can no longer reach a quorum (R86). -/
def Stripe.hopeless (x : Stripe) (quorum : Nat) : Bool :=
  decide (x.set.k + x.set.m < x.need quorum + x.lost.length)

/-- Asks for a stripe's STRIPE record (R130, R211). -/
def askStripe (k : Nat) (p : Prog) (x : Stripe) (s : State) : State :=
  let s := s.withCss (fun c => { c with stripes := kvSet c.stripes x.id { x with asked := true } })
  let s := if x.durable.length < x.set.k + x.set.m then s.bump .ENG_QUORUM_SHORT_COUNT else s
  let body := JBody.stripe x.id x.obj x.cursor x.set.k x.set.m x.durable.length x.set.shift x.tapePos
  jnlAsk (s.jrec k p.token body) [.stripe k x.id] s

/-- Sets the phase of a running COMMIT. -/
def setCommit (k : Nat) (at_ : CommitAt) (s : State) : State :=
  modProg k (fun p => match p.run with
    | some r => match r.place with
      | .commit _ q m c o d => { p with run := some { r with place := .commit at_ q m c o d } }
      | _ => p
    | none => p) s

/-- Step 3 of R212: the object map and the object digests. -/
def writeMap (k : Nat) (p : Prog) (map : Nat) (dev : Bool) (s : State) : State :=
  let s := writeArea k dev map p.objectMap s
  if p.stages.digMask = 0 then s
  else writeArea k p.stages.digDev p.stages.digAddr (digestArea p.stages.digMask p.digest) s

/-- Step 4 of R212: the OBJECT record. -/
def askObject (k : Nat) (p : Prog) (r : Run) (obj : Nat) (s : State) : State :=
  let conds := putBit p.conds 1 p.hitsNow
  let body := JBody.object obj p.obj p.stripes.length (r.addr + 32) conds p.cursorNow (crc32c p.objectMap)
  setCommit k .object (jnlAsk (s.jrec k p.token body) [.object k] s)

/-- A halt stops a running COMMIT (R115, R118): its object is given up, its stripes without a STRIPE record are the residual
kept for the final status, which waits for the media commands issued for it. -/
def stopCommit (k : Nat) (s : State) : State :=
  match s.progAt k with
  | none => s
  | some p =>
    let left := s.unjournaled p
    let s := dropObject k p (dlogDrop k p 0x0501 (askAbandon k p 0x0501 s))
    setCommit k .stopped (modProg k (fun p => { p with halt := some left }) s)

/-- Moves a running COMMIT on as far as it can go (R84, R85, R86, R115, R212, R224). The first argument bounds the
phases passed. Nothing moves while the function is reset (R146). -/
def commitSteps : Nat → Nat → State → State
  | 0, _, s => s
  | n + 1, k, s =>
    match s.progAt k with
    | none => s
    | some p =>
      match s.over k p, p.run with
      | false, some r =>
        match r.place with
        | .commit .drain _ _ count _ _ =>
          let size := 32 + 32 * p.chunks.length
          if p.cutAll && decide (count < size) then endProg k stLen 0x0102 (size - count) r.addr s
          else if p.drained then commitSteps n k (setCommit k .quorum s)
          else s
        | .commit .quorum q _ _ _ _ =>
          let xs := s.stripesOf p
          if xs.any (fun x => !x.recorded && x.hopeless q) then endProg k stFail 0x0202 0 r.addr s
          else
            match xs.find? (fun x => !x.recorded) with
            | none => if p.halt.isSome then commitSteps n k (stopCommit k s) else setCommit k .dlog s
            | some x =>
              if x.asked then s
              else if x.need q ≤ x.durable.length then askStripe k p x s
              else s
        | .commit .custody _ _ _ obj _ =>
          if s.cusRoom p.stripes.length then askObject k p r obj s else s
        | .commit .stopped .. => if s.draining k p then s else endProg k stStop 0x0501 (p.halt.getD 0) r.addr s
        | _ => s
      | _, _ => s

/-- Moves a running COMMIT on. -/
def commitStep (k : Nat) (s : State) : State := commitSteps 8 k s

/-- A STRIPE record is durable (R115, R130, R131): the stripe counts as recorded, its buffer may go, and a halted COMMIT
stops. -/
def stripeDurable (k id : Nat) (s : State) : State :=
  let s := s.withCss (fun c => { c with stripes := kvMod c.stripes id (fun x => { x with recorded := true }) })
  let bad := match kvGet? s.css.stripes id with | some x => x.lost | none => []
  let s := bad.foldl (fun s i => dlogRepair id (2 ^ i) s) s
  let s := freeStripe id s
  match s.progAt k with
  | none => s
  | some p =>
    match p.run with
    | some r =>
      match r.place with
      | .commit .quorum .. =>
        if (s.subAt k).st = .resetting then s
        else if p.halt.isSome then commitStep k (stopCommit k s)
        else commitStep k s
      | _ => s
    | none => s

/-- COMMIT (R84, R85, R159): the open chunk is cut and the part-filled stripe closes behind it. A destroyed domain ends it
before its map area is looked at. DESIGN CHOICE, log entry 49. -/
def doOrdCommit (k : Nat) (s : State) : State :=
  takeOrder k opCommit .stage (fun p r o s =>
    let place := RunAt.commit .drain (o.pb % 256) o.addr o.count o.pa o.dev
    let s := modProg k (fun p => { p with run := some { r with place := place } }) s
    let all := match p.stages.spread with
      | some x => x.k + x.m
      | none => 0
    let s := if o.pb % 256 = 0 ∨ o.pb % 256 = all then s else epbFlag .ENG_EPB_FLAGS_NONDEFAULT s
    if p.deadDoms.isEmpty then commitStep k (forceCut k true s)
    else endProg k stFail 0x020A 0 r.addr s) s

/-- ENG_CUS_STATUS.STALLED: a COMMIT waits under R224. DEDUCED, log entry 89. -/
def State.cusStalled (s : State) : Bool := (s.commitsAt .custody).any (fun p => !s.cusRoom p.stripes.length)

/-- ENG_DLOG_CTL.FULL: a COMMIT waits under R214. DEDUCED, log entry 89. -/
def State.dlogFull (s : State) : Bool :=
  (s.commitsAt .dlog).any (fun p => !s.dlogRoom ((s.stripesOf p).flatMap Stripe.entries).length)

/-- COMMIT_DLOG_WRITE (R212, R213, R214): steps 2 and 3, once the log has room for all entries of the object. -/
def doCommitDlogWrite (k : Nat) (s : State) : State :=
  match s.progAt k with
  | none => s
  | some p =>
    match s.over k p, p.run with
    | false, some r =>
      match r.place with
      | .commit .dlog _ map _ _ dev =>
        let es := (s.stripesOf p).flatMap Stripe.entries
        if s.dlogRoom es.length then
          let s := es.foldl (fun s d => dlogPut d p.token p.obj false s) s
          commitStep k (setCommit k .custody (writeMap k p map dev s))
        else s
      | _ => s
    | _, _ => s

end Sys2Proof.Machine
end

