-- ==== Sys2Proof/Machine/WritePath.lean ====
section
/-!
DEFINITION. The write path from INGEST to SPREAD: source reads, CHUNK, PROBE, PACK, SEAL, SPREAD (R22 to R26, R41, R61 to
R73, R79, R150 to R156, R158 to R168, R178 to R182, R186 to R194, R198, R208).
-/

namespace Sys2Proof.Machine

/-- What a parameter block, list or argument read gave. -/
inductive Block where
  | ok (d : List Byte) | hostf | poisoned
  deriving DecidableEq, Repr

/-- Reads a block of `n` bytes an order names: from host memory, as the operand gives it, or with DEV from device DRAM
(R60, R281). A DRAM read that R332 refuses counts as poisoned. -/
def readBlock (dev : Bool) (addr n : Nat) (h : HostRead) (s : State) : Block × State :=
  if dev then
    match devRead addr n s with
    | (.ok d, s) => (.ok d, s)
    | (_, s) => (.poisoned, s)
  else match h with
    | .ok d => (.ok (padTo n d), s)
    | .failed => (.hostf, s)

/-- Ends a program whose block could not be read: HOSTF 0x0300 (R48), or FAIL 0x0209 (R281). -/
def blockEnd (k : Nat) (b : Block) (residual addr : Nat) (s : State) : State :=
  match b with
  | .poisoned => endProg k stFail 0x0209 residual addr s
  | _ => endProg k stHostf 0x0300 residual addr s

/-- A segment that stands for an entry of an indirect list that ends the order with REJ and a reason (R60, R63). -/
def badSeg (reason : Nat) : Nat × Nat := (2 ^ 64 + reason, 0)

/-- The segments an indirect list describes; an entry that is invalid, or not inside the window that `inside` allows, ends
them (R60, R63). DESIGN CHOICE, log entry 57. -/
def listSegs (inside : Nat → Nat → Bool) : Nat → List Byte → List (Nat × Nat)
  | 0, _ => []
  | n + 1, l =>
    let a := fieldAt l 0 8
    let len := fieldAt l 8 4
    if fieldAt l 12 4 ≠ 0 ∨ 2 ^ 64 < a + len then [badSeg 0x0008]
    else if len = 0 then listSegs inside n (l.drop 16)
    else if !inside a len then [badSeg 0x001D]
    else (a, len) :: listSegs inside n (l.drop 16)

/-- The segments of a data order of subchannel `k`: its list, or the one range (R60 to R62). -/
def State.segsOf (s : State) (k : Nat) (o : Ord) (list : List Byte) : List (Nat × Nat) :=
  let inside := fun a n => !o.dev || s.inFnWindow (s.subAt k).fn a n
  if o.list then listSegs inside (o.pb % 65536) list else if o.count = 0 then [] else [(o.addr, o.count)]

/-- The source pieces of an INGEST: its segments up to Count bytes, from object offset `off`. -/
def makePieces (dev : Bool) (sel : Nat) (st : StageSet) : Nat → Nat → List (Nat × Nat) → List SrcPiece
  | _, _, [] => []
  | count, off, (a, n) :: t =>
    if count = 0 then []
    else if 2 ^ 64 ≤ a then [{ dev := dev, addr := a, len := 0, sel := sel, stages := st, off := off }]
    else
      let m := min n count
      { dev := dev, addr := a, len := m, sel := sel, stages := st, off := off } ::
        makePieces dev sel st (count - m) (off + m) t

/-- Whether a piece stands for an invalid list entry. -/
def SrcPiece.bad (q : SrcPiece) : Bool := decide (2 ^ 64 ≤ q.addr)

/-- The object offset at which the next piece of a program begins. -/
def Prog.endOff (p : Prog) : Nat :=
  match p.pieces.getLast? with
  | some q => q.off + q.len
  | none => 0

/-- Streams a lane serves (R155). -/
def State.laneStreams (s : State) (l : Nat) : Nat :=
  (s.css.subs.filter (fun q => (q.2.prog.bind (·.lane)) == some l)).length

/-- A lane with a free stream place: the one with the fewest streams (R156). -/
def State.freeLane (s : State) : Option Nat :=
  let l := ((List.range 8).filter (fun n => s.bitB .ENG_ONLINE_CHUNK 0 n && decide (s.laneStreams n < 8)))
  let least := l.foldl (fun a n => min a (s.laneStreams n)) 8
  l.find? (fun n => s.laneStreams n == least)

/-- Ends the INGEST segment once all its data has entered the CHUNK input (R66, R68, R72): LEN 0x0101 when the buffer was
shorter than Count; REJ 0x0008 on reaching an invalid entry (R63). It waits for a CHUNK stream place before (R156). -/
def ingestStep (k : Nat) (s : State) : State :=
  match s.progAt k with
  | none => s
  | some p =>
    match p.ending, p.run with
    | none, some r =>
      if r.place ≠ .ingest ∨ p.lane.isNone ∨ !p.reads.isEmpty then s
      else match p.todo with
        | q :: _ => if q.bad then endProg k stRej (q.addr - 2 ^ 64) r.x.residual r.addr s else s
        | [] =>
          if (parseOrd r.raw).join then finishOrder k s
          else if r.x.moved < r.x.total then endProg k stLen 0x0101 r.x.residual r.addr s
          else finishOrder k (setConds k [(0, false)] s)
    | _, _ => s

/-- Gives a program a CHUNK stream place, or lets it wait for one (R156). -/
def takeLane (k : Nat) (s : State) : State :=
  match s.progAt k with
  | none => s
  | some p =>
    if p.lane.isSome ∨ s.css.laneWait.contains k then s
    else match s.freeLane with
      | some l => if s.css.laneWait.isEmpty then modProg k (fun p => { p with lane := some l }) s
        else s.withCss (fun c => { c with laneWait := c.laneWait ++ [k] })
      | none => s.withCss (fun c => { c with laneWait := c.laneWait ++ [k] })

/-- STREAM_PLACE_GRANT (R156). -/
def doStreamPlaceGrant (s : State) : State :=
  match s.css.laneWait, s.freeLane with
  | k :: t, some l =>
    ingestStep k (modProg k (fun p => { p with lane := some l }) (s.withCss (fun c => { c with laneWait := t })))
  | _, _ => s

/-- Whether average chunk and code are those of R33. -/
def StageSet.defaults (t : StageSet) : Bool :=
  t.chunkLog == 18 && (match t.spread with
    | some x => x.k == 16 && x.m == 4
    | none => true)

/-- INGEST (R63, R65, R69, R79, R80, R203). -/
def doOrdIngest (k : Nat) (list : HostRead) (s : State) : State :=
  takeOrder k opIngest .ingest (fun p r o s =>
    match p.stages.spread with
    | none => endProg k stRej 0x0015 r.x.residual r.addr s
    | some x =>
      if s.shapeTooBig x.k x.m x.shift then endProg k stFail 0x0201 r.x.residual r.addr s
      else
        let (b, s) := if o.list then readBlock o.dev o.addr (16 * (o.pb % 65536)) list s else (.ok [], s)
        match b with
        | .ok d =>
          let off := p.endOff
          let dom := (s.domFor (s.subAt k).fn p.stages.probeDom).getD p.stages.probeDom
          let ps := makePieces o.dev r.x.sel { p.stages with probeDom := dom } o.count off (s.segsOf k o d)
          let s := modProg k (fun p =>
            { p with
              todo := p.todo ++ ps, pieces := p.pieces ++ ps.filter (fun q => !q.bad)
              ingestFrom := if p.join.isSome then p.ingestFrom else some off }) s
          let s := if p.stages.defaults then s else epbFlag .ENG_EPB_FLAGS_NONDEFAULT s
          ingestStep k (takeLane k s)
        | b => blockEnd k b r.x.residual r.addr s) s

/-- Whether a program's stream may run: it has not ended, and its lane is online. -/
def State.streams (s : State) (k : Nat) : Option (Prog × Nat) :=
  match s.progAt k with
  | some p =>
    match p.lane with
    | some l =>
      if p.ending.isNone && p.engine.isSome && s.codeUp && !s.going 29 && s.bitB .ENG_ONLINE_CHUNK 0 l && (s.subAt k).st != .clearPending
        && (s.subAt k).st != .resetting then
        some (p, l)
      else none
    | none => none
  | none => none

/-- Bytes of the input FIFO of a lane that are filled or reserved (R41). -/
def State.fifoUsed (s : State) (l : Nat) : Nat :=
  s.css.subs.foldl (fun a q => match q.2.prog with
    | some p => if p.lane = some l then
        a + p.reads.foldl (fun a r => a + r.len) 0 + p.fifo.foldl (fun a f => a + f.data.length) 0 else a
    | none => a) 0

/-- HOST_READ_ISSUE (R41): reads the next `len` bytes of source data, at most, once the lane's FIFO has room for them. -/
def doHostReadIssue (k len : Nat) (s : State) : State :=
  match s.streams k with
  | none => s
  | some (p, l) =>
    match p.todo with
    | q :: t =>
      let n := min (if isExec k then min len 9152 else len) q.len
      if q.dev ∨ q.bad ∨ n = 0 ∨ 262144 < s.fifoUsed l + n ∨ (!isExec k && (!s.pdOn 33 || s.inD3 (s.subAt k).fn)) then s
      else
        let whole := decide (n = q.len)
        let head := { q with len := n, cutAfter := whole && q.cutAfter, closeAfter := whole && q.closeAfter }
        let rest := if whole then t else { q with addr := q.addr + n, len := q.len - n, off := q.off + n } :: t
        askHost k 3 q.addr n (modProg k (fun p => { p with todo := rest, reads := p.reads ++ [head] }) s)
    | [] => s

/-- Source bytes of a piece have been accepted: they count as moved, and as bytes of the object, once. -/
def acceptBytes (q : SrcPiece) (p : Prog) : Prog :=
  let n := (q.off + q.len) - max q.off p.objLen
  let run := p.run.map (fun r => if r.place = .ingest then { r with x := { r.x with moved := r.x.moved + n } } else r)
  { p with objLen := max p.objLen (q.off + q.len), run := run }

/-- HOST_READ_COMPLETION (R32, R41, R48). -/
def doHostReadCompletion (k : Nat) (data : HostRead) (s : State) : State :=
  match s.progAt k with
  | none => s
  | some p =>
    match p.reads, p.ending with
    | q :: t, none =>
      match data with
      | .ok d =>
        ingestStep k (modProg k (fun p =>
          acceptBytes q { p with reads := t, fifo := p.fifo ++ [{ src := q, data := padTo q.len d }] }) s)
      | .failed =>
        let (res, addr) := match p.run with | some r => (r.x.residual, r.addr) | none => (0, p.next)
        endProg k stHostf 0x0300 res addr s
    | _, _ => s

/-- Bytes a stream may still feed to its lane in its turn of 64 KiB; none while the turn of another stream that has input
waiting is under way (R155). A stream without input gives way. DESIGN CHOICE, log entry 51. -/
def State.turnLeft (s : State) (k l : Nat) (p : Prog) : Nat :=
  let busy : Bool := match kvGet? s.css.laneTurn l with
    | some j => j != k && (match s.streams j with
      | some (q, m) => m == l && q.laneIn % 65536 != 0 && (!q.fifo.isEmpty || (q.todo.head?.map (·.dev)).getD false)
      | none => false)
    | none => false
  if busy then 0 else 65536 - p.laneIn % 65536

/-- A stream has fed `n` bytes to its lane, whose turn is then its own (R155). -/
def feedTurn (k l n : Nat) (s : State) : State :=
  modProg k (fun p => { p with laneIn := p.laneIn + n }) (s.withCss (fun c => { c with laneTurn := kvSet c.laneTurn l k }))

/-- The gear table's entry for a byte (R150). -/
def gear (b : Nat) : Nat :=
  let z := (0x565552414B43484B + (b + 1) * 0x9E3779B97F4A7C15) % 2 ^ 64
  let z := (z ^^^ (z / 2 ^ 30)) * 0xBF58476D1CE4E5B9 % 2 ^ 64
  let z := (z ^^^ (z / 2 ^ 27)) * 0x94D049BB133111EB % 2 ^ 64
  z ^^^ (z / 2 ^ 31)

/-- The cut mask of log2 average `n` (R151). -/
def cutMask (n : Nat) : Nat := (2 ^ n - 1) * 2 ^ (48 - n)

/-- One byte through the lane (R151 to R154): it joins the open chunk, and cuts it where the rule says. -/
def feedByte (k : Nat) (src : SrcPiece) (b : Byte) (s : State) : State :=
  match s.progAt k with
  | none => s
  | some p =>
    let h := (2 * p.hash + gear b.toNat) % 2 ^ 64
    let len := p.open_.length + 1
    let cdc := src.sel.testBit 0 && decide (src.stages.chunkMin ≤ len) && (h &&& cutMask src.stages.chunkLog) == 0
    let full := len == src.stages.chunkMax
    let s := modProg k (fun p =>
      { p with
        hash := h, open_ := p.open_ ++ [b], openSrc := if p.open_.isEmpty then some src else p.openSrc
        digest := if src.sel.testBit 5 then p.digest ++ [b] else p.digest }) s
    if cdc then cutChunk k false s
    else if full then cutChunk k false (if src.sel.testBit 0 then s.bump .ENG_CHUNK_MAXCUT_COUNT else s)
    else s

/-- Bytes through the lane, in order. -/
def feedBytes (k : Nat) (src : SrcPiece) (d : List Byte) (s : State) : State := d.foldl (fun s b => feedByte k src b s) s

/-- The end of a piece: the forced cut it carries (R79, R81). DEDUCED, log entry 48. -/
def endPiece (k : Nat) (src : SrcPiece) (s : State) : State :=
  if src.cutAfter then skipHits k (cutChunk k src.closeAfter s) else s

/-- CHUNK_INPUT_DATA (R150 to R155, R281): up to `n` bytes of the program's FIFO, or of its source in device DRAM, pass
through its lane, within the stream's turn. -/
def doChunkInputData (k n : Nat) (s : State) : State :=
  match s.streams k with
  | none => s
  | some (p, l) =>
    let n := min n (s.turnLeft k l p)
    match p.fifo, p.todo with
    | f :: t, _ =>
      let d := f.data.take n
      let rest := f.data.drop n
      let s := feedTurn k l d.length
        (modProg k (fun p => { p with fifo := if rest.isEmpty then t else { f with data := rest } :: t }) s)
      let s := if s.on .ENG_EPB_CTL_OPEN then s.bumpN .ENG_EPB_BYTES_IN_BYTES d.length else s
      let s := feedBytes k f.src d s
      commitStep k (if rest.isEmpty then endPiece k f.src s else s)
    | [], q :: t =>
      let m := min n q.len
      if !q.dev ∨ q.bad ∨ m = 0 ∨ !p.reads.isEmpty then s
      else
        match devRead q.addr m s with
        | (.ok d, s) =>
          let whole := decide (m = q.len)
          let rest := if whole then t else { q with addr := q.addr + m, len := q.len - m, off := q.off + m } :: t
          let s := feedTurn k l m (modProg k (fun p => acceptBytes { q with len := m } { p with todo := rest }) s)
          let s := if s.on .ENG_EPB_CTL_OPEN then s.bumpN .ENG_EPB_BYTES_IN_BYTES m else s
          let s := feedBytes k q d s
          commitStep k (ingestStep k (if whole then endPiece k q s else s))
        | (_, s) =>
          let (res, addr) := match p.run with | some r => (r.x.residual, r.addr) | none => (0, p.next)
          endProg k stFail 0x0209 res addr s
    | [], [] => s

/-- Whether a program still runs in the engines: not ending, not cleared, not being reset. -/
def State.inEngines (s : State) (k : Nat) : Option Prog :=
  match s.progAt k with
  | some p => if p.ending.isNone && p.engine.isSome && (s.subAt k).st != .clearPending && (s.subAt k).st != .resetting
      then some p else none
  | none => none

/-- Slots of the pending table (R166). -/
def State.pendSlots (s : State) : Nat := 2 ^ clamp 16 24 (s.get .ENG_PEND_ENTRIES_LOG2)

/-- Makes a pending entry for a missed chunk that has locator `loc` (R164, R166): none when the program has one of the same
fingerprint in the domain, none and counted when no slot is free within 8. -/
def pendInsert (k : Nat) (p : Prog) (c : Chunk) (dom loc : Nat) (fp : List Byte) (mac24 : Nat) (s : State) : State :=
  if s.eng.pend.any (fun e => e.sch == k && e.dom == dom && e.fp == fp) then s
  else
    let n := s.pendSlots
    let h := bucketOf fp n
    let free := (List.range 8).find? (fun i => s.eng.pend.all (fun e => e.slot != (h + i) % n))
    match free with
    | none => s.bump .ENG_PEND_FULL_COUNT
    | some i =>
      let e : PendEnt := { slot := (h + i) % n, sch := k, dom := dom, fp := fp, mac24 := mac24, loc := loc, obj := p.obj, ord := c.ordinal }
      setPend (· ++ [e]) s

/-- The locator of a hit in a bucket (R163). -/
def bucketHit (d fp : List Byte) (s : State) : Option Nat :=
  ((List.range 4).find? (fun w => wayLoc d w != 0 && wayFp d w == fp && !s.purged (wayLoc d w))).map (wayLoc d)

/-- A chunk is a hit (R23, R168): its bytes are discarded. -/
def makeHit (k i loc : Nat) (s : State) : State :=
  let s := modChunk k i (fun c => { c with place := .hit, loc := loc, data := [] }) s
  epbFlag .ENG_EPB_FLAGS_HITS (s.bump .ENG_IDX_HITS_COUNT)

/-- A chunk is a miss: it is given a locator and goes on to PACK with its bytes (R162, R168). -/
def makeMiss (k i : Nat) (s : State) : State :=
  let s := modChunk k i (fun c => { c with place := .toPack }) s
  match s.progAt k with
  | some p => giveLocs k p.chunks s
  | none => s

/-- What follows a chunk's verdict: it goes on, and a COMMIT that waited for it. -/
def afterProbe (k : Nat) (s : State) : State := commitStep k (skipHits k (dispatch k s))

/-- A fingerprint among the program's pending entries (R163, R166, R168): the locator, which lies in no purge range. -/
def pendHit (k dom : Nat) (fp : List Byte) (s : State) : Option Nat :=
  (s.eng.pend.find? (fun e => e.sch == k && e.dom == dom && e.fp == fp && e.loc != 0 && !s.purged e.loc)).map (·.loc)

/-- Looks a fingerprint up: in its bucket, then among the program's pending entries (R163, R166, R168). -/
def indexLookup (k dom : Nat) (fp : List Byte) (s : State) : Option Nat × State :=
  let r := readBucket (s.bucketAddr fp) s
  ((bucketHit r.1 fp r.2).or (pendHit k dom fp r.2), r.2)

/-- The verdict on chunk `c` of a program in domain `dom`, `mac` its keyed hash (R160, R163, R164, R174). -/
def probeKeyed (k : Nat) (p : Prog) (c : Chunk) (dom : Nat) (mac : List Byte) (s : State) : State :=
  let mode := c.stages.probeMode
  let fp := mac.take 24
  let mac24 := (mac.getD 24 0).toNat
  let s := modChunk k c.ordinal (fun c => { c with fp := fp, mac24 := mac24, dom := dom }) s
  if !s.idxValid then afterProbe k (makeMiss k c.ordinal s)
  else
    match (if mode = 2 then (none, s) else indexLookup k dom fp s) with
    | (some loc, s) => afterProbe k (makeHit k c.ordinal loc s)
    | (none, s) =>
      let s := makeMiss k c.ordinal s
      let loc := (((s.progAt k).bind (fun p => p.chunks[c.ordinal]?)).map (·.loc)).getD 0
      afterProbe k (if mode = 1 then s else pendInsert k p c dom loc fp mac24 s)

/-- What a domain's key hashes for a chunk: the SEAL handle, or 0, and the bytes (R160). -/
def Chunk.probeText (c : Chunk) : List Byte :=
  (if c.sel.testBit 3 then leBytes 8 (c.stages.sealKey.getD 0) else zeros 8) ++ c.data

/-- Whether the PROBE lanes hold a domain's key, or Tuber can load it now: it runs and is not unlocked (R159, R555). DESIGN
CHOICE, log entry 70. -/
def State.probeKey (s : State) (dom : Nat) : Bool :=
  !s.eng.probeOut.contains dom ||
    (s.on .TMB_STATUS_RUNNING && !s.on .TMB_STATUS_RESTARTING && s.get .DBG_STATUS_GRANTED == 0)

/-- PROBE_LOOKUP (R158 to R168, R174): the oldest chunk that waits for it, once a locator can be had for it. A program that
used a domain when it was destroyed has no chunk fingerprinted any more (R159). -/
def doProbeLookup (k : Nat) (s : State) : State :=
  match s.inEngines k with
  | none => s
  | some p =>
    match p.chunks.find? (fun c => c.place == .cut) with
    | none => s
    | some c =>
      if !s.codeUp || s.get .ENG_ONLINE_PROBE == 0 || !s.probeKey ((s.domFor (s.subAt k).fn c.stages.probeDom).getD c.stages.probeDom) then s
      else
        match locReady s with
        | (false, s) => s
        | (true, s) =>
          let dom := (s.domFor (s.subAt k).fn c.stages.probeDom).getD c.stages.probeDom
          let s := if c.stages.probeMode = 2 then s else s.bump .ENG_IDX_LOOKUPS_COUNT
          match kvGet? s.eng.doms dom, p.deadDoms.isEmpty with
          | some d, true =>
            probeKeyed k p c dom (hmacSha256 d.key c.probeText) (s.withEng (fun e => { e with probeOut := e.probeOut.filter (· != dom) }))
          | _, _ => afterProbe k (makeMiss k c.ordinal s)

/-- Takes a PACK engine offline on its third verify mismatch within 1 s (R442). -/
def packMismatch (e : Nat) (s : State) : State :=
  let src := if e < 4 then 30 else 31
  let recent := s.now :: (kvGet s.eng.packBad e []).filter (fun t => decide (s.now ≤ t + 1000000000))
  let s := raiseCe src 0 0 0 0 (s.bump .ENG_PACK_VFAIL_COUNT)
  let s := s.withEng (fun g => { g with packBad := kvSet g.packBad e recent })
  if 3 ≤ recent.length then raiseUe src 1 0 0 0 0 (s.setBitB .ENG_ONLINE_PACK 0 e false) else s

/-- Stores a chunk raw (R180, R182). -/
def storeRaw (k i : Nat) (s : State) : State :=
  (modChunk k i (fun c => { c with place := .packed, out := c.data, raw := true, packed := false }) s).bump .ENG_PACK_RAW_COUNT

/-- Whether the paired checker gets the chunk's CRC from an output (R154, R182). -/
def Chunk.checks (c : Chunk) (out : List Byte) : Bool :=
  match unpackStream c.stages.packFmt out with
  | some d => crc32c d == c.crc
  | none => false

/-- PACK_CHUNK_DONE (R178 to R182, R26): `mismatch` says that the engine or its checker goes wrong. A program that was cleared or is being reset has its output dropped (R146). DESIGN CHOICE, log entry 7. -/
def doPackChunkDone (k ordinal engine : Nat) (mismatch : Bool) (s : State) : State :=
  match s.progAt k with
  | none => s
  | some p =>
    match p.chunks[ordinal]? with
    | none => s
    | some c =>
      if c.place ≠ .packing engine ∨ !s.packUp engine then s
      else if (s.inEngines k).isNone then
        let s := modChunk k ordinal (fun c => { c with place := .gone, data := [] }) s
        if (s.subAt k).st = .resetting then s.bump .CSS_GEN_DROPPED_COUNT else s
      else
        let st := c.stages
        let out := packStream st.packFmt st.packLevel st.packWin c.data
        let keep := decide (out.length ≤ c.len - c.len * s.get .ENG_PACK_CTL_MIN_SAVE / 256)
        let after := fun (s : State) => commitStep k (dispatch k s)
        if !keep then after (storeRaw k ordinal s)
        else if !mismatch && c.checks out then
          let s := if out.length < c.len then epbFlag .ENG_EPB_FLAGS_COMPRESSED s else s
          after (modChunk k ordinal (fun c => { c with place := .packed, out := out, packed := true, raw := false, fmt := st.packFmt }) s)
        else
          let s := epbFlag .ENG_EPB_FLAGS_RETRY (packMismatch engine s)
          match s.packEngines.filter (· != engine) with
          | e :: _ => if c.tries = 0 then modChunk k ordinal (fun c => { c with place := .packing e, tries := 1, lastUnit := engine }) s
            else after (storeRaw k ordinal s)
          | [] => after (storeRaw k ordinal s)

/-- The first chunk in order that SEAL or SPREAD has to take next: earlier ones are placed, hits, or past it. -/
def Prog.nextToSeal (p : Prog) : Option Chunk :=
  match p.chunks.find? (fun c => !(c.place == .gone || c.place == .hit || c.place == .sealed ||
      (c.place == .packed && !c.sel.testBit 3))) with
  | some c => if c.place = .packed then some c else none
  | none => none

/-- Flags of a stored chunk (*Chunk header*). -/
def Chunk.storedFlags (c : Chunk) (sealed : Bool) : Nat := b2n c.raw + b2n sealed * 2 + b2n c.packed * 4

/-- Bytes 0 to 19 of a chunk header. -/
def Chunk.header20 (c : Chunk) (loc stored : Nat) (sealed : Bool) : List Byte :=
  leBytes 8 loc ++ leBytes 4 c.len ++ leBytes 4 stored ++ leBytes 1 (c.storedFlags sealed) ++
  leBytes 1 (if c.packed then c.fmt else 0) ++ zeros 2

/-- The data key of a handle. -/
def State.dataKey (s : State) (h : Nat) : List Byte :=
  match kvGet? s.tub.handles h with
  | some x => ((unwrapKey (kvGet s.tub.keks x.kek []) x.blob).getD []).take 32
  | none => []

/-- Marks a key slot as used last (R192). -/
def touchSlot (h : Nat) (s : State) : State :=
  s.withEng (fun e => { e with slots := e.slots.filter (· != h) ++ [h] })

/-- A chunk's locator, given now to it and those before it that have none yet (R162). DESIGN CHOICE, log entry 53. -/
def giveLoc (k : Nat) (c : Chunk) (s : State) : Option Nat × State :=
  if c.loc ≠ 0 then (some c.loc, s)
  else
    let s := match s.progAt k with
      | some p => giveLocs k (p.chunks.take (c.ordinal + 1)) s
      | none => s
    match (s.progAt k).bind (fun p => p.chunks[c.ordinal]?) with
    | some c => (if c.loc = 0 then none else some c.loc, s)
    | none => (none, s)

/-- Whether PD28 is on and not restarting. -/
def State.sealUp (s : State) : Bool := s.pdOn 28 && !s.going 28 && !s.flt.restarting.contains .sealGroup

/-- SEAL_CHUNK (R162, R187, R188, R190, R194). A lane pair is one of four; the retry of a mismatch runs on another. -/
def doSealChunk (k lanePair : Nat) (mismatch : Bool) (s : State) : State :=
  match s.inEngines k with
  | none => s
  | some p =>
    match p.nextToSeal with
    | none => s
    | some c =>
      let h := c.stages.sealKey.getD 0
      let retry := !c.nonce.isEmpty
      if !s.sealUp ∨ 4 ≤ lanePair ∨ !s.eng.slots.contains h ∨ (retry && c.lastUnit == lanePair) then s
      else
        match giveLoc k c s with
        | (none, s) => s
        | (some loc, s) =>
          let (inv, s) : Option (List Byte) × State :=
            if retry then (some c.nonce, s)
            else match takeInvoke s with
              | (none, s) => (none, s)
              | (some v, s) =>
                let seq := match kvGet? s.tub.handles h with | some x => x.seq | none => 0
                (some (leBytes 4 (s.get .CLM_PAIR_PAIR_ID % 65536 * 65536 + seq % 65536) ++ leBytes 8 v), s)
          match inv with
          | none => s
          | some nonce =>
            let s := touchSlot h s
            if mismatch then
              let s := epbFlag .ENG_EPB_FLAGS_RETRY (s.bump .ENG_SEAL_MISMATCH_COUNT)
              if retry then redoStripe k (raiseUe 33 2 0 0 0 0 s)
              else raiseCe 33 0 0 0 0 (modChunk k c.ordinal (fun c => { c with nonce := nonce, lastUnit := lanePair }) s)
            else
              let stored := c.out.length + 16
              let aad := c.header20 loc stored true ++ leBytes 8 h
              let out := gcmSeal (s.dataKey h) nonce aad c.out
              let s := s.bumpN .ENG_PACK_OUT_BYTES c.out.length
              modChunk k c.ordinal (fun c => { c with place := .sealed, sealed := true, nonce := nonce, out := out }) s

/-- KEY_SLOT_LOAD (R192, R545): Tuber loads a handle's key, the least recently used slot giving way; a blob that does not
unwrap makes the handle unusable and rejects the orders that wait for it. DESIGN CHOICE, log entry 70. -/
def doKeySlotLoad (handle : Nat) (unwraps : Bool) (s : State) : State :=
  match kvGet? s.tub.handles handle with
  | none => s
  | some x =>
    if !s.on .TMB_STATUS_RUNNING ∨ s.on .TMB_STATUS_RESTARTING ∨ !s.sealUp ∨ !(x.st == 1 || x.st == 2) ∨
        s.get .DBG_STATUS_GRANTED ≠ 0 then s
    else
      let waits := (s.css.subs.filter (fun q => match q.2.prog.bind (·.run) with
        | some r => r.place == .keyLoad handle
        | none => false)).map (·.1)
      if unwraps && (unwrapKey (kvGet s.tub.keks x.kek []) x.blob).isSome then
        let s := s.withEng (fun e =>
          { e with slots := (e.slots.filter (· != handle)).drop ((e.slots.filter (· != handle)).length + 1 - 256) ++ [handle] })
        waits.foldl (fun s k =>
          match s.progAt k with
          | some p =>
            match p.run with
            | some r =>
              let s := modProg k (fun p => { p with run := some { r with place := .stage } }) s
              jnlAsk (s.jrec k p.token (.stage r.raw r.addr [])) [.stageEnd k] s
            | none => s
          | none => s) s
      else
        let s := ({ s with tub := { s.tub with handles := kvSet s.tub.handles handle { x with st := 4 } } }).bump .TMB_UNUSABLE_COUNT
        waits.foldl (fun s k =>
          match (s.progAt k).bind (·.run) with
          | some r => endProg k stRej 0x0019 0 r.addr s
          | none => s) s

/-- The settings under which the open stripe was opened differ from a chunk's (R81): they never do, since a change closes
the stripe first. -/
def fits (x : Stripe) (n : Nat) : Bool := decide (x.area.length + n ≤ x.set.area)

/-- SPREAD_CHUNK (R25, R81, R186, R196, R198, R201, R207, R208): `synFault` says that a syndrome of the codeword stream goes
wrong, `digFault` that the DIGEST units disagree; either shows when the stripe closes. The next chunk in order joins the open stripe; a stripe it does
not fit is closed; without an open stripe a buffer is asked for. -/
def doSpreadChunk (k : Nat) (synFault digFault : Bool) (s : State) : State :=
  match s.inEngines k with
  | none => s
  | some _ =>
    let s := skipHits k s
    match s.progAt k with
    | none => s
    | some p =>
      match p.chunks[p.nextChunk]? with
      | none => s
      | some c =>
        let ready := c.place == .sealed || (c.place == .packed && !c.sel.testBit 3)
        if !ready ∨ !s.codeUp ∨ s.going 29 then s
        else
          match p.stripe.bind (kvGet? s.css.stripes) with
          | none =>
            let set := (c.stages.spread).getD { k := 1, m := 0, shift := 12, places := [] }
            askBuf k (granulesOf set.k set.m set.shift) false s
          | some x =>
            let s := s.withCss (fun g => { g with stripes := kvMod g.stripes x.id (fun x =>
              { x with synBad := x.synBad || synFault, digBad := x.digBad || digFault }) })
            if !fits x (32 + c.out.length) then closeStripe k s
            else
              match giveLoc k c s with
              | (none, s) => s
              | (some loc, s) =>
                let s := if c.sealed then s else s.bumpN .ENG_PACK_OUT_BYTES c.out.length
                let head := c.header20 loc c.out.length c.sealed ++ padTo 12 c.nonce
                let sc : StripeChunk := 
                  { loc := loc, off := x.area.length, stored := c.out.length, len := c.len
                    flags := c.storedFlags c.sealed, fmt := if c.packed then c.fmt else 0 }
                let s := s.withCss (fun g => { g with stripes := kvMod g.stripes x.id (fun x =>
                  { x with area := x.area ++ head ++ c.out, chunks := x.chunks ++ [sc] }) })
                let s := modChunk k c.ordinal (fun c =>
                  { c with place := .gone, stripe := x.id, stored := c.out.length, data := [], out := [] }) s
                let s := modProg k (fun p => { p with nextChunk := p.nextChunk + 1 }) s
                let s := if c.close then closeStripe k s else s
                commitStep k (skipHits k (dispatch k s))

end Sys2Proof.Machine
end

