-- ==== Sys2Proof/Machine/StageOrders.lean ====
section
/-!
DEFINITION. The stage orders, the control orders and the calls to firmware (R47, R76 to R83, R90 to R99, R115, R158, R183,
R187, R192, R195, R197, R202, R249, R253).
-/

namespace Sys2Proof.Machine

/-- The placement entries of SPREAD (*Placement entry*). -/
def placesOf : Nat → List Byte → List Place
  | 0, _ => []
  | n + 1, l => { dev := fieldAt l 0 2, kind := fieldAt l 2 1, start := fieldAt l 8 8 } :: placesOf n (l.drop 16)

/-- The entries of an object map (*Object-map entry*). -/
def mapEntries : Nat → List Byte → List MapEntry
  | 0, _ => []
  | n + 1, l =>
    { loc := fieldAt l 0 8, off := fieldAt l 8 8, len := fieldAt l 16 4, stored := fieldAt l 20 4
      flags := fieldAt l 24 4, crc := fieldAt l 28 4 } :: mapEntries n (l.drop 32)

/-- The stage set after a stage order (R47): the order with the block it named. -/
def stageSet (o : Ord) (block : List Byte) (t : StageSet) : StageSet :=
  if o.op = opChunk then { t with chunkMin := o.pa % 2 ^ 32, chunkMax := o.pa / 2 ^ 32, chunkLog := o.pb % 32 }
  else if o.op = opProbe then { t with probeRun := true, probeDom := o.pa % 65536, probeMode := o.pb % 4 }
  else if o.op = opPack then { t with packWin := o.pa % 2 ^ 32, packFmt := o.pb % 16, packLevel := bits o.pb 7 4 }
  else if o.op = opSeal then { t with sealKey := some o.pa }
  else if o.op = opSpread then
    let k := o.pb % 256
    let m := bits o.pb 15 8
    let x : SpreadSet :=
      { k := k, m := m, shift := bits o.pb 20 16, places := placesOf (k + m) block
        gen := ((t.spread).map (·.gen)).getD 0 + 1 }
    { t with spread := some x }
  else if o.op = opDigest then { t with digMask := o.pb % 32, digAddr := o.addr, digDev := o.dev }
  else if o.op = opGather then { t with gather := some (mapEntries (fieldAt block 8 4) (block.drop 32)) }
  else if o.op = opUnseal then { t with unsealKey := some o.pa }
  else if o.op = opUnpack then { t with verify := !o.pb.testBit 0 }
  else t

/-- Runs a stage order: the setting changes and its STAGE record is asked for; the order ends when that is durable
(R47, R129, R130). -/
def runStage (k : Nat) (o : Ord) (r : Run) (block : List Byte) (s : State) : State :=
  match s.progAt k with
  | none => s
  | some p =>
    let s := modProg k (fun p => { p with stages := stageSet o block p.stages }) s
    jnlAsk (s.jrec k p.token (.stage r.raw r.addr block)) [.stageEnd k] s

/-- CHUNK (R79). -/
def doOrdChunk (k : Nat) (s : State) : State :=
  takeOrder k opChunk .stage (fun _ r o s => runStage k o r [] (forceCut k false s)) s

/-- PROBE (R81, R158). -/
def doOrdProbe (k : Nat) (s : State) : State :=
  takeOrder k opProbe .stage (fun p r o s =>
    let fn := (s.subAt k).fn
    let old := s.domFor fn p.stages.probeDom
    let s := if old = s.domFor fn (o.pa % 65536) then s else forceCut k true s
    runStage k o r [] s) s

/-- PACK (R178, R181). -/
def doOrdPack (k : Nat) (s : State) : State := takeOrder k opPack .stage (fun _ r o s => runStage k o r [] s) s

/-- A stage order that names a key: the program stalls until the key is in a slot (R192). -/
def runKeyStage (k : Nat) (o : Ord) (r : Run) (s : State) : State :=
  let s := modProg k (fun p =>
    { p with keys := if p.keys.contains o.pa then p.keys else p.keys ++ [o.pa], stages := stageSet o [] p.stages }) s
  if s.eng.slots.contains o.pa then
    match s.progAt k with
    | some p => jnlAsk (s.jrec k p.token (.stage r.raw r.addr [])) [.stageEnd k] (touchSlot o.pa s)
    | none => s
  else modProg k (fun p => { p with run := some { r with place := .keyLoad o.pa } }) s

/-- SEAL (R81, R187, R192, R193). The first SEAL order of a program changes no key: nothing is cut or closed. DESIGN CHOICE,
log entry 49. -/
def doOrdSeal (k : Nat) (s : State) : State :=
  takeOrder k opSeal .stage (fun p r o s =>
    let s := if p.stages.sealKey.isNone || p.stages.sealKey == some o.pa then s else forceCut k true s
    runKeyStage k o r s) s

/-- UNSEAL (R192, R193, R195). -/
def doOrdUnseal (k : Nat) (s : State) : State := takeOrder k opUnseal .stage (fun _ r o s => runKeyStage k o r s) s

/-- Whether READ BLOCK LIMITS allows records of `2 ^ shift` bytes (R249). PRESUMED, log entry 29. -/
def recordOk (v : Dev) (shift : Nat) : Bool :=
  decide (v.tapeMinRecord ≤ 2 ^ shift) && (v.tapeMaxRecord == 0 || decide (2 ^ shift ≤ v.tapeMaxRecord)) &&
  (2 ^ shift - v.tapeMinRecord) % 2 ^ v.tapeGranularity == 0

/-- Whether a placement entry is allowed (R82, R202, R238, R249). -/
def placeOk (k fn shift : Nat) (raw : List Byte) (s : State) : Bool :=
  let d := fieldAt raw 0 2
  let kind := fieldAt raw 2 1
  let start := fieldAt raw 8 8
  let ty := s.getB .MPT_DEV_INFO_TYPE d
  let lbs := s.getB .MPT_DEV_INFO_LBS d
  let dev := kvGet s.mpt.devs d {}
  s.devAllowed fn d && fieldAt raw 3 5 == 0 && ty != 4 &&
  (match kind with
   | 1 => lbs != 15 && decide (9 + lbs ≤ shift)
   | 2 => start == 0 && ty == 1 && dev.binds.any (fun z => z.sch == k) && lbs != 15 && decide (9 + lbs ≤ shift)
   | 3 => start == 0 && ty == 2 && dev.tapeReady && recordOk dev shift
   | _ => false)

/-- Whether a placement block is allowed: each entry, and no device twice (R82). -/
def placementOk (k fn shift n : Nat) (block : List Byte) (s : State) : Bool :=
  let es := (List.range n).map (fun i => bytesAt block (16 * i) 16)
  let ds := es.map (fun e => fieldAt e 0 2)
  es.all (fun e => placeOk k fn shift e s) && ds.eraseDups.length == n

/-- Whether two SPREAD settings place alike (R81). -/
def sameSpread (a b : SpreadSet) : Bool := a.k == b.k && a.m == b.m && a.shift == b.shift && a.places == b.places

/-- SPREAD (R81, R82, R197, R202). -/
def doOrdSpread (k : Nat) (block : HostRead) (s : State) : State :=
  takeOrder k opSpread .stage (fun p r o s =>
    let n := o.pb % 256 + bits o.pb 15 8
    let (b, s) := readBlock o.dev o.addr (16 * n) block s
    match b with
    | .ok d =>
      if !placementOk k (s.subAt k).fn (bits o.pb 20 16) n d s then endProg k stRej 0x001A 0 r.addr s
      else
        let new := (stageSet o d p.stages).spread
        let same := match p.stages.spread, new with
          | some a, some b => sameSpread a b
          | none, _ => true
          | _, _ => false
        runStage k o r d (if same then s else forceCut k true s)
    | b => blockEnd k b 0 r.addr s) s

/-- DIGEST (R83). -/
def doOrdDigest (k : Nat) (s : State) : State := takeOrder k opDigest .stage (fun _ r o s => runStage k o r [] s) s

/-- Whether bytes are an object map no longer than `count` (*Object map*). -/
def mapOk (d : List Byte) (count : Nat) : Bool :=
  let n := fieldAt d 8 4
  decide (32 ≤ count) && fieldAt d 0 4 == 0x4D4F5657 && fieldAt d 4 2 == 1 && decide (32 + 32 * n ≤ count) &&
  fieldAt d 12 4 == crc32c (bytesAt d 32 (32 * n))

/-- GATHER (R88): the map is checked when the order runs. -/
def doOrdGather (k : Nat) (map : HostRead) (s : State) : State :=
  takeOrder k opGather .stage (fun _ r o s =>
    let (b, s) := readBlock o.dev o.addr o.count map s
    match b with
    | .ok d => if mapOk d o.count then runStage k o r d s else endProg k stRej 0x001B 0 r.addr s
    | b => blockEnd k b 0 r.addr s) s

/-- UNPACK (R183). -/
def doOrdUnpack (k : Nat) (s : State) : State := takeOrder k opUnpack .stage (fun _ r o s => runStage k o r [] s) s

/-- A JUMP or a taken BRANCH: it goes to its target whatever its NEXT says, and posts its MARK word first, where it stands
until that is posted (R68, R124). DESIGN CHOICE, log entry 49. -/
def thenTransfer (k a : Nat) (r : Run) (o : Ord) (s : State) : State :=
  match s.progAt k with
  | none => s
  | some p =>
    if o.mark then postNote k (s.word k p flNote (stDone + s.settledBit k p) 0 r.addr 0) r (.wordTo a) s
    else jumpTo k a r s

/-- JUMP (R51, R91). -/
def doOrdJump (k : Nat) (s : State) : State :=
  takeOrder k opJump .stage (fun _ r o s => thenTransfer k o.addr r o s) s

/-- The truth of a BRANCH condition (*Branch conditions*). DEDUCED, log entry 100. -/
def Prog.cond (p : Prog) (c : Nat) : Bool := if c = 1 then p.hitsNow else p.conds.testBit c

/-- BRANCH (R51, R91). On condition 1 the order waits until PROBE has looked up every chunk cut so far. -/
def doOrdBranch (k : Nat) (s : State) : State :=
  let waits : Bool := match s.progAt k with
    | some p => match p.fetched with
      | f :: _ => (parseOrd f.raw).pb % 256 == 1 &&
          (!p.fifo.isEmpty || !p.todo.isEmpty || p.chunks.any (fun c => c.place == .cut))
      | [] => false
    | none => false
  if waits then s
  else takeOrder k opBranch .stage (fun p r o s =>
    if p.cond (o.pb % 256) != o.pb.testBit 8 then thenTransfer k o.addr r o s else finishOrder k s) s

/-- WAIT (R92, R115): kind 1 with a target already past ends at once, and so does the WAIT of a halted program. -/
def doOrdWait (k : Nat) (s : State) : State :=
  takeOrder k opWait .stage (fun p r o s =>
    let kind := o.pb % 4
    let dl := if kind = 0 then s.now + o.pa else if kind = 1 then o.pa else if o.pa = 0 then 0 else s.now + o.pa
    if (kind = 1 ∧ o.pa ≤ s.now) ∨ (kind = 0 ∧ o.pa = 0) then finishOrder k (setConds k [(6, false)] s)
    else if p.halt.isSome then haltAt k r.addr s
    else enterSt k .waiting (modProg k (fun p => { p with run := some { r with place := .wait kind dl } }) s)) s

/-- Ends a pending WAIT. -/
def endWait (k : Nat) (timedOut : Bool) (s : State) : State :=
  finishOrder k (enterSt k .active (setConds k [(6, timedOut)] s))

/-- WAIT_EXPIRE (R92). -/
def doWaitExpire (k : Nat) (s : State) : State :=
  match (s.subAt k).st, (s.progAt k).bind (·.run) with
  | .waiting, some r =>
    match r.place with
    | .wait kind dl => if kind = 2 ∧ dl = 0 then s else endWait k (kind == 2) (timeTo dl s)
    | _ => s
  | _, _ => s

/-- NOTE (R68): with MARK too it posts one word. DESIGN CHOICE, log entry 49. -/
def doOrdNote (k : Nat) (s : State) : State :=
  takeOrder k opNote .word (fun p r o s =>
    let w := s.word k p flNote (stDone + s.settledBit k p) o.count r.addr 0
    postNote k w r .word s) s

/-- CALL-CORE (R93, R95): the call waits for a slot. -/
def doOrdCallCore (k : Nat) (arg : HostRead) (s : State) : State :=
  takeOrder k opCall .call (fun p r o s =>
    let (b, s) := if o.dev || o.count == 0 then (.ok [], s) else readBlock false o.addr o.count arg s
    match b with
    | .ok d =>
      let c : Call :=
        { sch := k, token := p.token, addr := r.addr, a := o.pa, service := o.pb % 65536, timeoutMs := o.pb / 65536
          len := o.count, dev := o.dev, arg := o.addr, block := d }
      let s := s.withCss (fun g => { g with calls := g.calls ++ [c] })
      if s.get .COH_STATUS_DOMAIN = 1 then enterSt k .waitCore s else s
    | b => blockEnd k b 0 r.addr s) s

/-- END (R49), its MARK word first where it carries MARK (R68). -/
def doOrdEnd (k : Nat) (s : State) : State :=
  takeOrder k opEnd .stage (fun _ _ _ s => finishOrder k s) s

/-- Entries of the call ring (R95). -/
def State.callEntries (s : State) : Nat := 2 ^ (min 4 (s.get .CSS_CALL_CTL_LOG2) + 4)

/-- The address of an argument slot (R95). -/
def State.slotAddr (s : State) (i : Nat) : Nat := s.addrB .CSS_CALL_BASE_BASE 0 + 0x100000 + i * 0x2400

/-- A call entry (*Call entry*). -/
def State.callEntry (s : State) (c : Call) (slot : Nat) (again : Bool) : List Byte :=
  let b := s.subAt c.sch
  let node := if isExec c.sch then execNode c.sch else s.node
  leBytes 8 c.token ++ leBytes 8 c.addr ++ leBytes 8 c.a ++ leBytes 2 c.service ++ leBytes 2 c.timeoutMs ++
  leBytes 2 (if isExec c.sch then execSch c.sch else c.sch) ++ leBytes 2 b.fn ++ leBytes 4 c.len ++
  leBytes 1 (b2n c.dev + 2 * b2n again) ++ leBytes 1 node ++ leBytes 2 slot ++
  leBytes 8 (if c.dev then c.arg else s.slotAddr slot) ++ leBytes 2 c.tag ++ zeros 14

/-- Posts an entry at PROD (R96). -/
def postEntry (d : List Byte) (s : State) : State :=
  let p := s.get .CSS_CALL_CTL_PROD
  let s := (devWrite (s.addrB .CSS_CALL_BASE_BASE 0 + p * 64) d s).2
  s.set .CSS_CALL_CTL_PROD ((p + 1) % s.callEntries)

/-- CALL_POST (R95, R96, R98): a subchannel's call, the first without a slot, takes the lowest free one. DEDUCED, log entry 100. -/
def doCallPost (k : Nat) (s : State) : State :=
  match (s.css.calls.find? (fun c => c.slot.isNone)).filter (fun c => c.sch == k) with
  | none => s
  | some c =>
    let free := (List.range s.callEntries).find? (fun i => s.css.calls.all (fun q => q.slot != some i))
    match free with
    | none => s
    | some i =>
      if !s.on .CSS_CALL_CTL_ENABLE ∨ !s.on .COH_CTL_READY then s
      else
        let tag := (kvGet s.css.slotTags i 0 + 1) % 65536
        let c' := { c with slot := some i, tag := tag, since := s.now }
        let s := s.withCss (fun g =>
          { g with slotTags := kvSet g.slotTags i tag, calls := g.calls.map (fun q => if q = c then c' else q) })
        let s := if c.dev then s else (devWrite (s.slotAddr i) c.block s).2
        (postEntry (s.callEntry c' i false) s).set .CSS_CALL_STAT_OPEN (s.get .CSS_CALL_STAT_OPEN + 1)

/-- Takes a call off the list and frees its slot (R98). -/
def dropCall (c : Call) (s : State) : State :=
  let s := s.withCss (fun g => { g with calls := g.calls.erase c })
  if c.slot.isSome then s.set .CSS_CALL_STAT_OPEN (s.get .CSS_CALL_STAT_OPEN - 1) else s

/-- CALL_ANSWER (R93, R97): a write of CSS_CALL_ANS with GO from a core. An answer that meets several cases of R97 reports the
first of the list. A call answered before firmware runs again leaves WAIT-CORE. DESIGN CHOICE, log entry 17. DESIGN CHOICE,
log entry 88. -/
def doCallAnswer (by_ : Origin) (v : Nat) (s : State) : State :=
  reach by_ .CSS_CALL_ANS (fun s =>
    if !isFw by_ ∨ !v.testBit 63 then s
    else
      let slot := bits v 7 0
      let tag := bits v 31 16
      let result := bits v 47 32
      let len := bits v 61 48
      match s.css.calls.find? (fun c => c.slot == some slot && c.tag == tag) with
      | none => s.set .CSS_CALL_STAT_RESULT 1
      | some c =>
        if c.len < len then s.set .CSS_CALL_STAT_RESULT 2
        else if c.dev ∧ len ≠ 0 then s.set .CSS_CALL_STAT_RESULT 3
        else
          let s := s.set .CSS_CALL_STAT_RESULT 0
          let s :=
            if len = 0 then s
            else
              match devRead (s.slotAddr slot) len s with
              | (.ok d, s) => tellHost c.sch c.arg true d s
              | (_, s) => s
          let k := c.sch
          let s := dropCall c s
          let s := if (s.subAt k).st = .waitCore then enterSt k .active s else s
          if 0x8000 ≤ result then endProg k stFail result 0 c.addr (setConds k [(4, false)] s)
          else finishOrder k (setConds k [(4, decide (result ≠ 0))] s)) s

/-- CALL_CORE_TIMEOUT (R93, R98): counted from the first delivery, WAIT-CORE included. -/
def doCallCoreTimeout (k : Nat) (s : State) : State :=
  match s.css.calls.find? (fun c => c.sch == k) with
  | none => s
  | some c =>
    if c.slot.isSome ∧ c.timeoutMs ≠ 0 then
      endProg k stFail 0x0210 0 c.addr (dropCall c (timeTo (c.since + c.timeoutMs * 1000000) s))
    else s

/-- A core-domain restart puts programs that wait on CALL-CORE into WAIT-CORE (R93, R410). -/
def callsToWaitCore (s : State) : State :=
  s.css.calls.foldl (fun s c => if (s.subAt c.sch).st = .active then enterSt c.sch .waitCore s else s) s

/-- Calls are delivered again when firmware runs (R99): PROD and CONS return to 0 and every call with a slot gets a fresh
entry. -/
def redeliverCalls (s : State) : State :=
  let s := (s.set .CSS_CALL_CTL_PROD 0).set .CSS_CALL_CTL_CONS 0
  let s := s.css.calls.foldl (fun s c => if (s.subAt c.sch).st = .waitCore then enterSt c.sch .active s else s) s
  s.css.calls.foldl (fun s c => match c.slot with
    | some i => postEntry (s.callEntry c i true) s
    | none => s) s

end Sys2Proof.Machine
end

