-- ==== Sys2Proof/Machine/Controls.lean ====
section
/-!
DEFINITION. The doorbell and the controls, the end of cleared programs, and handing subchannels to functions (R101, R102,
R104 to R118, R139, R145, R493, R496, R510).
-/

namespace Sys2Proof.Machine

/-- A control word (*Control word (16 bytes)*). -/
structure Ctl where
  sch : Nat
  ctl : Nat
  zero : Nat
  tag : Nat
  addr : Nat
  deriving DecidableEq, Repr

/-- Reads a control word. -/
def parseCtl (l : List Byte) : Ctl :=
  { sch := fieldAt l 0 2, ctl := fieldAt l 2 1, zero := fieldAt l 3 1, tag := fieldAt l 4 4, addr := fieldAt l 8 8 }

/-- Whether a control word is valid (R114). -/
def Ctl.valid (c : Ctl) : Bool :=
  decide (1 ≤ c.ctl) && decide (c.ctl ≤ 5) && c.zero == 0 && (c.ctl == 1 || c.addr == 0)

/-- Whether a function is being reset. -/
def State.fnResetting (s : State) (fn : Nat) : Bool := kvHas s.css.resets fn

/-- DOORBELL_WRITE (R107, R108, R145, R493, R496, R508): a write of the host to a function's doorbell page. -/
def doDoorbellWrite (fn off : Nat) (data : List Byte) (s : State) : State :=
  if s.mode = Mode.off ∨ 64 < fn ∨ (0 < fn ∧ (!s.hst.vfEnable || !s.hst.vfMse)) then s
  else if 0 < fn ∧ !(s.fnOf fn).created then (dropLatch s).bump .HST_NOFUNC_COUNT
  else if !s.pdOn 30 then darkAccess (dropLatch s)
  else
    let s := dropLatch s
    let q := kvGet s.css.ctl fn []
    let lost := off % 16 != 0 || data.length != 16 || decide (4096 ≤ off) || decide (64 ≤ q.length) ||
      kvGet s.css.resets fn false
    if lost then s.bump .CSS_CTL_LOST_COUNT
    else s.withCss (fun c => { c with ctl := kvSet c.ctl fn (q ++ [data]) })

/-- Whether the control before the front one of a function is done: its record is durable and, in step, mirrored, and its
reply has room in its queue (R108, R117, R124). -/
def State.ctlFree (s : State) (fn : Nat) : Bool :=
  let ours := fun (r : JRec) => r.fn == fn && (match r.body with
    | .start .. => !isExec r.sch
    | .haltreq .. => !isExec r.sch
    | _ => false)
  let full := fun (e : Nat × List Post) =>
    e.1 / 32 == fn && e.2.any (fun p => p.kind == .reply) && !s.cqRoom e.1
  let held := fun (a : JAct) => match a with
    | .post f .. => f == fn
    | _ => false
  !s.jnl.pending.any (fun p => ours p.record) && !s.css.posts.any full && !s.css.mirrorWait.any (fun m => m.2.any held)

/-- Whether a function's controls are processed: it exists, is not paused (R510), no switch-back has begun (R529), the
channel subsystem is on. -/
def State.ctlRuns (s : State) (fn : Nat) : Bool :=
  (s.fnOf fn).created && !(s.fnOf fn).paused && !s.on .CLM_SWITCHBACK_BUSY && s.pdOn 30 && s.ctlFree fn

/-- Takes the front control word of a function off its FIFO. -/
def popCtl (fn : Nat) (s : State) : State :=
  s.withCss (fun c =>
    match kvGet c.ctl fn [] with
    | _ :: [] => { c with ctl := kvDel c.ctl fn }
    | _ :: t => { c with ctl := kvSet c.ctl fn t }
    | [] => c)

/-- The node that runs the program of a subchannel (R103, R121): its target for a remote one. -/
def State.execNodeOf (s : State) (b : Sub) : Nat := if b.remote then b.node else s.node

/-- A reply (R109); `node`: the node that runs the program, the own one where there is none. -/
def replyWord (node : Nat) (c : Ctl) (cond reason token addr : Nat) : StatusWord :=
  { sch := c.sch, flags := flCtl, cond := cond, token := token, bits := 0, residual := c.tag, addr := addr, reason := reason
    node := node }

/-- Lets a reply wait for its queue. DESIGN CHOICE, log entry 45. -/
def reply (fn cq k : Nat) (w : StatusWord) (s : State) : State := queuePost fn cq { w := w, sch := k, kind := .reply } s

/-- The node, the token and the failing-order address of a reply to HALT, CLEAR, RESUME or TEST (R109, R121). -/
def State.replyOf (s : State) (b : Sub) : Nat × Nat × Nat :=
  match b.prog with
  | some p => (s.execNodeOf b, p.token, p.start)
  | none => (s.node, tokenOf 0 (s.gen b.fn), 0)

/-- Answers the front control on subchannel `k` without more ado. -/
def answer (c : Ctl) (k : Nat) (b : Sub) (cond reason : Nat) (s : State) : State :=
  let (n, t, a) := s.replyOf b
  reply b.fn b.cq k (replyWord n c cond reason t a) s

/-- Answers a refused START. DESIGN CHOICE, log entry 78. -/
def refuseStart (c : Ctl) (k : Nat) (b : Sub) (cond reason : Nat) (s : State) : State :=
  reply b.fn b.cq k (replyWord s.node c cond reason (tokenOf 0 (s.gen b.fn)) c.addr) s

/-- Processes the front control of a function when it is a valid one of code `n` on an own subchannel. -/
def withCtl (fn n : Nat) (act : Ctl → Nat → Sub → State → State) (s : State) : State :=
  match kvGet s.css.ctl fn [] with
  | [] => s
  | w :: _ =>
    let c := parseCtl w
    if c.ctl ≠ n ∨ !c.valid ∨ !s.ctlRuns fn then s
    else match s.findSub fn c.sch with
      | none => s
      | some (k, b) => act c k b (popCtl fn s)

/-- Free journal records below which a START is refused (R113). -/
def startReserve : Nat := 1048576

/-- An accepted START (R17, R47, R110): the new token, the START record, then the reply. -/
def acceptStart (c : Ctl) (k : Nat) (b : Sub) (s : State) : State :=
  let token := tokenOf (b.seq + 1) (s.gen b.fn)
  let p : Prog := { token := token, start := c.addr, tag := c.tag, next := c.addr, fetchAt := none }
  let s := modSub k (fun b => { b with seq := b.seq + 1, prog := some p, st := .startPending }) s
  jnlAsk (s.jrec k token (.start c.addr c.tag b.cq b.remote s.node))
    [.post b.fn b.cq (replyWord (s.execNodeOf b) c 0 0 token c.addr) k 0, .started k] s

/-- START (R102, R110, R112, R113). DESIGN CHOICE, log entry 78. -/
def doCtlStart (fn : Nat) (s : State) : State :=
  withCtl fn 1 (fun c k b s =>
    match b.st with
    | .idle =>
      if c.addr % 32 ≠ 0 then refuseStart c k b 3 0x0004 s
      else if b.remote ∧ !s.present b.node then refuseStart c k b 3 0x0020 s
      else if s.mode ≠ Mode.frond ∨ s.get .MOD_STATE_PENDING = Mode.dormant then refuseStart c k b 3 0x0504 s
      else if s.jnlFree < startReserve then refuseStart c k b 2 0x0503 s
      else acceptStart c k b s
    | .unassigned | .resetting => refuseStart c k b 3 0x0509 s
    | .statusPending => refuseStart c k b 1 0 s
    | _ => refuseStart c k b 2 0 s) s

/-- Asks for the HALTREQ record of an accepted HALT (1) or CLEAR (2); its reply follows the record (R117). -/
def askHalt (kind : Nat) (c : Ctl) (k : Nat) (b : Sub) (s : State) : State :=
  let (n, t, a) := s.replyOf b
  jnlAsk (s.jrec k t (.haltreq kind c.tag)) [.post b.fn b.cq (replyWord n c 0 0 t a) k kind, .halted k kind] s

/-- HALT (R112, R115, R117). -/
def doCtlHalt (fn : Nat) (s : State) : State :=
  withCtl fn 2 (fun c k b s =>
    match b.st with
    | .idle => answer c k b 0 0 s
    | .unassigned | .resetting => answer c k b 3 0x0509 s
    | .statusPending => answer c k b 1 0 s
    | .haltPending | .clearPending => answer c k b 2 0 s
    | _ => askHalt 1 c k b s) s

/-- CLEAR (R112, R116, R117). -/
def doCtlClear (fn : Nat) (s : State) : State :=
  withCtl fn 3 (fun c k b s =>
    match b.st with
    | .idle => answer c k b 0 0 s
    | .unassigned | .resetting => answer c k b 3 0x0509 s
    | .statusPending => answer c k b 1 0 s
    | .clearPending => answer c k b 2 0 s
    | _ => askHalt 2 c k b s) s

/-- Sends a control of a remote subchannel on to its node (R101): HALT 2, CLEAR 3, RESUME 4. -/
def sendControl (k ctl tag : Nat) (s : State) : State :=
  let b := s.subAt k
  match b.prog with
  | some p =>
    sendRemote 2 b.node (p.token % 65536) p.token 0 k b.fn 0 (leBytes 1 ctl ++ zeros 3 ++ leBytes 4 tag) [] s
  | none => s

/-- Wakes a pending WAIT of kind 2; whether there was one (R92). -/
def resumeProg (k : Nat) (s : State) : Bool × State :=
  match (s.subAt k).st, (s.progAt k).bind (·.run) with
  | .waiting, some r =>
    match r.place with
    | .wait 2 _ => (true, endWait k false s)
    | _ => (false, s)
  | _, _ => (false, s)

/-- RESUME (R92, R112). One for a remote subchannel goes on to its node, and is answered by the kind of WAIT that node has
reported. DESIGN CHOICE, log entry 76. -/
def doCtlResume (fn : Nat) (s : State) : State :=
  withCtl fn 4 (fun c k b s =>
    match b.st with
    | .unassigned | .resetting => answer c k b 3 0x0509 s
    | .statusPending => answer c k b 1 0 s
    | .waiting =>
      if b.remote then
        let woke := b.prog.any (fun p => p.farWait == some 2)
        answer c k b 0 (if woke then 0 else 0x0505) (modProg k (fun p => { p with farWait := none }) (sendControl k 4 c.tag s))
      else
        let (woke, s) := resumeProg k s
        answer c k b 0 (if woke then 0 else 0x0505) s
    | _ => answer c k b 0 0x0505 (if b.remote && b.prog.isSome then sendControl k 4 c.tag s else s)) s

/-- TEST (R112, R128): the reason holds the state code. -/
def doCtlTest (fn : Nat) (s : State) : State :=
  withCtl fn 5 (fun c k b s =>
    match b.st with
    | .unassigned | .resetting => answer c k b 3 0x0509 s
    | .idle => answer c k b 0 b.st.code s
    | .statusPending => answer c k b 1 b.st.code s
    | st => answer c k b 2 st.code s) s

/-- The token and the address of the reply to an invalid control word on a subchannel of the function (R109): that of a refused
START, that of another control, and address 0 for a word that names no control. -/
def State.invalidReply (s : State) (fn : Nat) (c : Ctl) (b : Sub) : Nat × Nat × Nat :=
  if c.ctl = 1 then (s.node, tokenOf 0 (s.gen fn), c.addr)
  else if c.ctl = 0 ∨ 5 < c.ctl then ((s.replyOf b).1, (s.replyOf b).2.1, 0)
  else s.replyOf b

/-- CONTROL_WORD_INVALID (R109, R114): an invalid word, or one on a subchannel the function does not own. A function
being reset answers every control with reason 0x0509 (R145). -/
def doControlWordInvalid (fn : Nat) (s : State) : State :=
  match kvGet s.css.ctl fn [] with
  | [] => s
  | w :: _ =>
    let c := parseCtl w
    let own := s.findSub fn c.sch
    if (c.valid && own.isSome) || !s.ctlRuns fn then s
    else
      let reason := if s.fnResetting fn then 0x0509 else if c.valid then 0x0508 else 0x050A
      let s := popCtl fn s
      match own with
      | some (k, b) =>
        let (n, t, a) := s.invalidReply fn c b
        reply fn b.cq k (replyWord n c 3 reason t a) s
      | none => reply fn 0 0 (replyWord s.node c 3 reason (tokenOf 0 (s.gen fn)) (if c.ctl = 1 then c.addr else 0)) s

/-- The order a program stands at: the one it runs, or the next. -/
def Prog.standsAt (p : Prog) : Nat := match p.run with | some r => r.addr | none => p.next

/-- Stripes of a program's stopped object that have no STRIPE record, in REDRIVE those counted when it was stopped
(R118, R139). DESIGN CHOICE, log entry 50. -/
def State.stoppedLeft (s : State) (k : Nat) (p : Prog) : Nat :=
  if (s.subAt k).st = .redrive then kvGet s.jnl.stopped p.token 0 else s.unjournaled p

/-- Whether a halted COMMIT has given up the object of a program already: its ABANDON record stands (R115). -/
def State.haltedCommit (s : State) (k : Nat) (p : Prog) : Bool :=
  s.jnlLive.any (fun q => q.2.sch == k && q.2.token == p.token && (match q.2.body with
    | .abandon _ r _ _ => r == 0x0501
    | _ => false))

/-- Journaled stripes after the checkpoint of a program in REDRIVE stand for a COMMIT that was stopped (R139). -/
def State.haltReason (s : State) (k : Nat) (p : Prog) : Nat :=
  if (s.subAt k).st = .redrive ∧ (!p.stripes.isEmpty ∨ s.haltedCommit k p) then 0x0501 else 0x0500

/-- Whether the OBJECT record of a program's COMMIT has been written and waits for the partner. -/
def State.objectWritten (s : State) (k : Nat) : Bool := s.css.mirrorWait.any (fun q => q.2.any (fun a => a == .object k))

/-- Takes the OBJECT record a program has asked for, and that is not yet written, off the journal's records: what comes before
it there goes first (R118). -/
def dropPending (k : Nat) (s : State) : State :=
  s.withJnl (fun j => { j with pending := j.pending.filter (fun q => !(q.acts.any (fun a => a == .object k))) })

/-- A HALT in force (R115, R118, R139): at the end of the order that runs; WAIT and CALL-CORE end at once; a COMMIT that has
journaled its stripes stops before its OBJECT record, unless that is written. -/
def haltProg (k : Nat) (p : Prog) (s : State) : State :=
  let stop := endProg k stStop (s.haltReason k p) (s.stoppedLeft k p) p.standsAt s
  let wait := setSt k .haltPending (modProg k (fun p => { p with halt := some 0 }) s)
  match (s.subAt k).st with
  | .startPending | .waiting | .redrive => stop
  | _ =>
    match p.run with
    | none => if p.join.isNone then stop else wait
    | some r =>
      match r.place with
      | .call => stop
      | .commit .dlog .. | .commit .custody .. => commitStep k (stopCommit k wait)
      | .commit .object .. => if s.objectWritten k then wait else commitStep k (stopCommit k (dropPending k wait))
      | _ => wait

/-- A CLEAR in force (R116, R118, R139): the program stops where it stands, its object given up unless its OBJECT record is
written; it ends at once unless it was ACTIVE. -/
def clearProg (k : Nat) (p : Prog) (s : State) : State :=
  let left := s.stoppedLeft k p
  let at_ := p.standsAt
  match (s.subAt k).st with
  | .startPending | .waiting | .redrive => endProg k stStop 0x0502 left at_ s
  | _ =>
    let kept := s.objectWritten k
    let s := dropRequests k p s
    let s := if kept then s else dropPending k (dropObject k p (dlogDrop k p 0x0502 (askAbandon k p 0x0502 s)))
    let halt := match p.run.map (·.place) with
      | some (.commit .stopped ..) => p.halt
      | _ => some (if kept then 0 else left)
    setSt k .clearPending (modProg k (fun p => { p with halt := halt, next := at_, run := none, fetched := [], fetchAt := none }) s)

/-- A HALTREQ record is durable (R115, R116, R117). On the attached node of a remote subchannel the control goes on to
the executing node. -/
def haltDurable (k kind : Nat) (s : State) : State :=
  match s.progAt k with
  | none => s
  | some p =>
    if s.over k p then s
    else if (s.subAt k).remote && !isExec k then
      sendControl k (kind + 1) p.tag (setSt k (if kind = 1 then .haltPending else .clearPending) s)
    else if kind = 1 then haltProg k p s
    else clearProg k p s

/-- CLEAR_DRAINED (R116, R118). -/
def doClearDrained (k : Nat) (s : State) : State :=
  match s.progAt k with
  | none => s
  | some p =>
    let b := s.subAt k
    if b.st ≠ .clearPending ∨ p.ending.isSome ∨ (b.remote && !isExec k) ∨ s.objectWritten k ∨ s.draining k p then s
    else endProg k stStop 0x0502 (p.halt.getD 0) p.next s

/-- Global subchannels of the range in CSS_SCH_ASSIGN. -/
def State.schRange (s : State) : List Nat :=
  (List.range (s.get .CSS_SCH_ASSIGN_COUNT)).map (· + s.get .CSS_SCH_ASSIGN_FIRST)

/-- Whether the range in CSS_SCH_ASSIGN is invalid. -/
def State.schRangeBad (s : State) : Bool :=
  s.get .CSS_SCH_ASSIGN_COUNT == 0 || decide (4096 < s.get .CSS_SCH_ASSIGN_FIRST + s.get .CSS_SCH_ASSIGN_COUNT)

/-- Whether a function exists. -/
def State.fnLives (s : State) (fn : Nat) : Bool := decide (fn ≤ 64) && (s.fnOf fn).created

/-- Queues of a function. -/
def State.ncqOf (s : State) (fn : Nat) : Nat := (s.fnOf fn).ncq

/-- The lowest run of `n` free function-relative numbers (R104). -/
def State.freeRun (s : State) (fn n : Nat) : Option Nat :=
  let used := (s.subsOf fn).map (fun p => p.2.rel)
  (0 :: used.map (· + 1)).foldl (fun a i =>
    if i + n ≤ 4096 ∧ used.all (fun u => decide (u < i) || decide (i + n ≤ u)) then
      some (match a with | some x => min x i | none => i)
    else a) none

/-- SCH_ASSIGN (R104, R105). -/
def doSchAssign (o : Origin) (w : Nat) (s : State) : State :=
  let fn := s.get .CSS_SCH_ASSIGN_FUNCTION
  let n := s.get .CSS_SCH_ASSIGN_COUNT
  let remote := s.on .CSS_SCH_ASSIGN_REMOTE
  let node := s.get .CSS_SCH_ASSIGN_NODE
  let cq := s.get .CSS_SCH_ASSIGN_CQ
  busyCommand o .CSS_SCH_CMD .CSS_SCH_CMD_BUSY w .CSS_SCH_CMD_RESULT 6
    [(s.schRangeBad, 7), (!s.fnLives fn, 3), (remote && !s.present node, 4), (decide (s.ncqOf fn ≤ cq), 5),
     (s.schRange.any (fun k => kvHas s.css.subs k), 1), ((s.freeRun fn n).isNone, 9)]
    (fun s =>
      let rel := (s.freeRun fn n).getD 0
      (s.schRange.zipIdx).foldl (fun s q =>
        s.withCss (fun c =>
          let b : Sub := { fn := fn, rel := rel + q.2, cq := cq, remote := remote, node := if remote then node else 0 }
          { c with subs := kvSet c.subs q.1 b })) s) s

/-- Releases subchannels to the pool (R106). -/
def releaseSubs (l : List Nat) (s : State) : State :=
  l.foldl (fun s k => s.withCss (fun c => { c with subs := kvDel c.subs k })) s

/-- SCH_RELEASE (R105). -/
def doSchRelease (o : Origin) (w : Nat) (s : State) : State :=
  let fn := s.get .CSS_SCH_ASSIGN_FUNCTION
  busyCommand o .CSS_SCH_CMD .CSS_SCH_CMD_BUSY w .CSS_SCH_CMD_RESULT 6
    [(s.schRangeBad, 7), (!s.fnLives fn, 3),
     (s.schRange.any (fun k => match kvGet? s.css.subs k with | some b => b.fn != fn | none => true), 8),
     (s.schRange.any (fun k => (s.subAt k).st != .idle), 2)]
    (fun s => releaseSubs s.schRange s) s

/-- Ends an old-generation program in a function reset (R146, R147, R148): what it has not committed is abandoned, an object
whose OBJECT record is written stays; its FINAL record is never posted, and stands for one it has already. -/
def resetProg (k : Nat) (s : State) : State :=
  let s := if s.objectWritten k then commitObject k s else s
  match s.progAt k with
  | none => s
  | some p =>
    let busy := (p.chunks.filter (fun c => match c.place with | .packing _ => true | _ => false)).length
    let s := s.bumpN .CSS_GEN_DROPPED_COUNT busy
    let s := dropObject k p (dlogDrop k p 0x0506 (askAbandon k p 0x0506 (dropPending k s)))
    let s := unbindZones k (dropRequests k p s)
    let w := s.word k p flFinal (stStop + s.settledBit k p) 0 p.standsAt 0x0506
    let s := jnlAsk (s.jrec k p.token (.final w)) [.final k w false] s
    (finishProg k s).bump .CSS_RESET_ENDED_COUNT

end Sys2Proof.Machine
end

