-- ==== Sys2Proof/Machine/MediaBase.lean ====
section
/-!
DEFINITION. The media ports: paths, the claim gate, media events, fault injection and sending a command (R20, R233, R237 to
R242, R246, R257, R261, R263, R267, R268).
-/

namespace Sys2Proof.Machine

/-- The state with the media ports changed. -/
def State.withMpt (s : State) (f : MptState → MptState) : State := { s with mpt := f s.mpt }

/-- Device `d`. -/
def State.devAt (s : State) (d : Nat) : Dev := kvGet s.mpt.devs d {}

/-- Changes device `d`. -/
def modDev (d : Nat) (f : Dev → Dev) (s : State) : State :=
  s.withMpt (fun m => { m with devs := kvSet m.devs d (f (s.devAt d)) })

/-- States and types of a device (MPT_DEV_INFO). -/
def devFree : Nat := 0
def devPresent : Nat := 1
def devAbsent : Nat := 2
def devFailed : Nat := 3
def tyDisk : Nat := 0
def tyZoned : Nat := 1
def tyTape : Nat := 2
def tySata : Nat := 3

/-- MPT_DEV_INFO.STATE and TYPE. -/
def State.devState (s : State) (d : Nat) : Nat := s.getB .MPT_DEV_INFO_STATE d
def State.devType (s : State) (d : Nat) : Nat := s.getB .MPT_DEV_INFO_TYPE d

/-- Whether a lane carries commands: up, its domain on (R233). -/
def State.laneUp (s : State) (l : Nat) : Bool := s.onB .MPT_LANE_STATUS_UP l && s.pdOn (if l < 32 then 31 else 32)

/-- The port a lane belongs to under a set of narrow groups (R230, R231): group `l / 4` as one wide port, or a narrow link of its own.
-/
def portOf (narrow l : Nat) : Nat := if narrow.testBit (l / 4) then 16 + l else l / 4

/-- The lanes of a port. -/
def portLanes (p : Nat) : List Nat := if p < 16 then (List.range 4).map (4 * p + ·) else [p - 16]

/-- The lanes of a port that are up. -/
def State.upLanes (s : State) (p : Nat) : List Nat := (portLanes p).filter s.laneUp

/-- The ports through which paths reach a device now (R233, R237). -/
def State.pathsOf (s : State) (d : Nat) : List Nat := (s.devAt d).ports.filter (fun p => !(s.upLanes p).isEmpty)

/-- Brings MPT_DEV_INFO.PATHS up to date. -/
def countPaths (d : Nat) (s : State) : State := s.setB .MPT_DEV_INFO_PATHS d (min 2 (s.pathsOf d).length)

/-- Whether commands reach a device: present, or marked FAILED under R258 (DEDUCED, log entry 28), with a path. -/
def State.reachable (s : State) (d : Nat) : Bool :=
  (s.devState d == devPresent || s.devState d == devFailed) && !(s.pathsOf d).isEmpty

/-- The lane of try `n` of a command (R237, R243): on the path whose turn it is, a lane that has fetched ahead for the device, else
one with no transfer, else the first. DESIGN CHOICE, log entry 86. -/
def State.laneFor (s : State) (d n : Nat) : Nat :=
  let l := s.pathsOf d
  let up := s.upLanes (l.getD (((s.devAt d).path + n) % l.length) 0)
  let on := fun (x : Nat) => kvGet s.mpt.lanes x []
  ((up.find? (fun x => (on x).any (fun q => q.cmd.isNone && q.dev == d))).or (up.find? (fun x => (on x).isEmpty))).getD (up.headD 0)

/-- The logical block size of a device in bytes; 512 while it has not been learnt. -/
def State.blockSize (s : State) (d : Nat) : Nat := 2 ^ (9 + (if s.getB .MPT_DEV_INFO_LBS d = 15 then 0 else s.getB .MPT_DEV_INFO_LBS d))

/-- The claim gate (R261). -/
def State.gateOpen (s : State) : Bool :=
  (s.mode == Mode.frond || s.mode == Mode.maintenance) &&
  decide (s.get .CLM_PEER_CLAIM_CLAIM ≤ s.get .CLM_CLAIM_CLAIM)

/-- MPT_GATE.CAUSE. -/
def State.gateCause (s : State) : Nat :=
  if s.gateOpen then 0 else if s.mode = Mode.frond ∨ s.mode = Mode.maintenance then 2 else 1

/-- A reservation key (R20). -/
def prKey (pairId claim : Nat) : Nat := 0x5756 * 2 ^ 48 + pairId % 65536 * 2 ^ 32 + claim % 2 ^ 32

/-- The module's own key. -/
def State.ownKey (s : State) : Nat := prKey (s.get .CLM_PAIR_PAIR_ID) (s.get .CLM_CLAIM_CLAIM)

/-- Sense key, ASC and ASCQ of a status as an event holds them. PRESUMED, log entry 29. -/
def senseOf : MediaStatus → Nat
  | .check key asc ascq _ _ => key % 16 + asc % 256 * 256 + ascq % 256 * 65536
  | _ => 0

/-- Entries of the event ring. -/
def State.evqSize (s : State) : Nat := 2 ^ (min 8 (s.get .MPT_EVQ_CTL_LOG2) + 6)

/-- Writes the oldest waiting event once the ring has room; on a poisoned line it is lost (R267). -/
def postEvent (s : State) : State :=
  match s.mpt.events with
  | [] => s
  | e :: t =>
    let n := s.get .MPT_EVQ_CTL_TAIL
    let next := (n + 1) % s.evqSize
    if next = s.get .MPT_EVQ_CTL_HEAD % s.evqSize then s
    else
      let (ok, s) := devWrite (s.addrB .MPT_EVQ_BASE_BASE 0 + n * 32) e (s.withMpt (fun m => { m with events := t }))
      let s := if ok then s else s.bump .MPT_EVQ_LOST_COUNT
      s.set .MPT_EVQ_CTL_TAIL next

/-- MEDIA_EVENT_POST (R267). -/
def doMediaEventPost (s : State) : State := postEvent s

/-- A media event (*Media event entry (32 bytes)*) waits for the ring. Beyond 256 waiting the oldest goes into the ring; while the
ring is full the new one is lost (R267). -/
def mediaEvent (ty d lane sense lba : Nat) (s : State) : State :=
  let e := leBytes 1 ty ++ zeros 1 ++ leBytes 2 d ++ leBytes 1 lane ++ leBytes 3 sense ++ leBytes 8 lba ++
    leBytes 8 s.now ++ zeros 8
  let s := if 256 ≤ s.mpt.events.length then postEvent s else s
  if 256 ≤ s.mpt.events.length then s.bump .MPT_EVQ_LOST_COUNT
  else s.withMpt (fun m => { m with events := m.events ++ [e] })

/-- Whether the media injection slots act (R268). -/
def State.mptInjects (s : State) : Bool := s.mode == Mode.maintenance || s.on .MPT_INJ_ARM_ARMED

/-- Whether slot `i` selects the command at hand, which is eligible for its kind; probability draws are free values
(R268). -/
def injSelect (i d : Nat) (kinds : List Nat) (s : State) : Bool × State :=
  let n := s.getB .MPT_INJ_SLOT_N i
  if s.mptInjects && kinds.contains (s.getB .MPT_INJ_SLOT_KIND i) && s.getB .MPT_INJ_SLOT_DEVICE i == d && n != 0 then
    let seen := kvGet s.mpt.injSeen i 0 + 1
    let s := s.withMpt (fun m => { m with injSeen := kvSet m.injSeen i seen })
    if s.onB .MPT_INJ_SLOT_MODE i then
      let (k, s) := s.draw
      (Config.freeNat k % 2 ^ n == 0, s)
    else (seen % n == 0, s)
  else (false, s)

/-- Flips bit `n` of bytes. -/
def flipBit (n : Nat) (l : List Byte) : List Byte := l.modify (n / 8) (fun b => b ^^^ BitVec.ofNat 8 (2 ^ (n % 8)))

/-- What injection does with one command: lost, data-out, bit flipped on data-in, slot that holds the completion. -/
structure Injected where
  lost : Bool := false
  data : List Byte
  flip : Option Nat := none
  hold : Option Nat := none
  deriving DecidableEq, Repr

/-- One injection slot on one command (*Injection kinds*): 1 DROP, 2 CORRUPT_IN, 3 CORRUPT_OUT, 4 REORDER. -/
def injectOne (d : Nat) (dataIn : Bool) (q : Injected × State) (i : Nat) : Injected × State :=
  let kinds := [1, 4] ++ (if dataIn then [2] else []) ++ (if q.1.data.isEmpty then [] else [3])
  let (hit, s) := injSelect i d kinds q.2
  if hit then
    match s.getB .MPT_INJ_SLOT_KIND i with
    | 1 => ({ q.1 with lost := true }, s)
    | 2 => ({ q.1 with flip := some (s.getB .MPT_INJ_SLOT_PARAM i) }, s)
    | 3 => ({ q.1 with data := flipBit (s.getB .MPT_INJ_SLOT_PARAM i) q.1.data }, s)
    | _ => ({ q.1 with hold := some i }, s)
  else (q.1, s)

/-- Commands outstanding on a device; an SMP command goes to its expander instead. -/
def State.cmdsOn (s : State) (d : Nat) : List (Nat × MediaCmd) :=
  s.mpt.cmds.filter (fun c => c.2.dev == d && c.2.use != .reserve .clearAffiliation)

/-- Whether a device takes one more command (R242, R250). -/
def State.devRoom (s : State) (d : Nat) : Bool :=
  if s.devType d = tyTape then (s.cmdsOn d).isEmpty
  else decide ((s.cmdsOn d).length < max 1 (s.getB .MPT_DEV_CTL_QDEPTH d))

/-- The default timeout of a device's commands in ms (MPT_RETRY). -/
def State.cmdTmo (s : State) (d : Nat) : Nat :=
  1000 * max 1 (if s.devType d = tyTape then s.get .MPT_RETRY_TAPE_TMO else s.get .MPT_RETRY_DISK_TMO)

/-- The transfers of a lane. -/
def State.laneOf (s : State) (l : Nat) : List LaneXfer := kvGet s.mpt.lanes l []

/-- Bytes a lane's FIFO holds. -/
def fifoHeld (x : List LaneXfer) : Nat := (x.map (·.held)).sum

/-- The data-out transfer in progress on a lane: the first with bytes still to go. -/
def inProgress (x : List LaneXfer) : Option LaneXfer := x.find? (fun q => q.cmd.isSome && (q.held != 0 || q.left != 0))

/-- FILL and PANIC of a lane by its FIFO (R246). -/
def panicLane (l : Nat) (s : State) : State :=
  let x := s.laneOf l
  let held := fifoHeld x
  let w := s.getB .MPT_LANE_CTL_WATERMARK l
  let r := max w (s.getB .MPT_LANE_CTL_RELEASE l)
  let now := match inProgress x with
    | some q => q.left != 0 && w != 0 && (if s.onB .MPT_LANE_STATUS_PANIC l then decide (held < r * 16384)
        else s.onB .MPT_DEV_CTL_RT q.dev && decide (held < w * 16384))
    | none => false
  ((s.setB .MPT_LANE_STATUS_FILL l (held / 1024)).setB .MPT_LANE_STATUS_PANIC l (b2n now)).setBitB .MPT_PANIC_LANES 0 l now

/-- Replaces the transfers of a lane. -/
def setLane (l : Nat) (x : List LaneXfer) (s : State) : State :=
  panicLane l (s.withMpt (fun m => { m with lanes := if x.isEmpty then kvDel m.lanes l else kvSet m.lanes l x }))

/-- The shard a command writes. -/
def CmdFor.shard? : CmdFor → Option (Nat × Nat)
  | .shardWrite stripe i => some (stripe, i)
  | _ => none

/-- A data-out transfer of `n` bytes begins on a lane; what was fetched ahead for its shard is part of it, and what was fetched ahead
for another of the device goes (R246, R250). DESIGN CHOICE, log entry 86. -/
def laneStart (id d l n : Nat) (use : CmdFor) (s : State) : State :=
  let ahead := fun (q : LaneXfer) => q.cmd.isNone && q.dev == d
  let got := (s.laneOf l).find? (fun q => ahead q && q.shard == use.shard?)
  let new := (got.map (fun q => { q with cmd := some id })).getD { cmd := some id, dev := d, shard := use.shard?, held := 0, left := n }
  setLane l ((s.laneOf l).filter (fun q => !ahead q) ++ [new]) s

/-- The transfer of a command ends; one that was in progress takes its PANIC along (R246). -/
def laneEnd (id l : Nat) (s : State) : State :=
  let x := s.laneOf l
  if x.any (fun q => q.cmd == some id) then
    let s := if (inProgress x).any (fun q => q.cmd == some id) then s.setB .MPT_LANE_STATUS_PANIC l 0 else s
    setLane l (x.filter (fun q => q.cmd != some id)) s
  else s

/-- Sends a command to a device on the path of try `tries` (R242, R268). DESIGN CHOICE, log entry 93. -/
def sendCmd (d : Nat) (use : CmdFor) (mutating dataIn : Bool) (tries tmo attr : Nat) (cdb data : List Byte) (s : State) :
    State :=
  let (j, s) := [0, 1, 2, 3].foldl (injectOne d dataIn) ({ data := data }, s)
  let lane := s.laneFor d tries
  let id := s.mpt.nextCmd
  let c : MediaCmd :=
    { dev := d, lane := lane, use := use, mutating := mutating, issuedAt := s.now, dropped := j.lost, tmo := tmo
      flip := j.flip, hold := j.hold, tries := tries, fua := mutating && fieldAt cdb 1 1 != 0 }
  let s := s.withMpt (fun m => { m with cmds := kvSet m.cmds id c, nextCmd := id + 1 })
  if j.lost then s
  else
    let s := s.emit (.media id d lane attr cdb j.data)
    if j.data.isEmpty then s else laneStart id d lane j.data.length use s

/-- Sends a command of the device's own, or lets it wait until the device takes one more (R242). DESIGN CHOICE, log entry 86. -/
def sendOwn (w : WaitCmd) (s : State) : State :=
  if s.devRoom w.dev then sendCmd w.dev w.use w.mutating w.dataIn w.tries (s.cmdTmo w.dev) 0 w.cdb w.data s
  else s.withMpt (fun m => { m with waiting := m.waiting ++ [w] })

/-- Takes up a command that waited: one for a device no path reaches goes, and so does a mutating one once the gate is closed or its
device is marked FAILED (R233, R258, R261). -/
def resumeOwn (w : WaitCmd) (s : State) : State :=
  if !s.reachable w.dev then s
  else if w.mutating && (!s.gateOpen || s.devState w.dev == devFailed) then s.bump .MPT_GATE_REFUSED_COUNT
  else sendOwn w s

/-- Sends the commands that waited as far as their devices take them. DESIGN CHOICE, log entry 86. -/
def pumpWaiting (s : State) : State :=
  s.mpt.waiting.foldl (fun s w => resumeOwn w s) (s.withMpt (fun m => { m with waiting := [] }))

/-- The command a completion row names. -/
def State.findCmd (s : State) (f : MediaCmd → Bool) : Option (Nat × MediaCmd) :=
  s.mpt.cmds.find? (fun c => f c.2 && !c.2.dropped)

/-- Takes a command off the list. -/
def dropCmd (id : Nat) (s : State) : State := s.withMpt (fun m => { m with cmds := kvDel m.cmds id })

/-- Whether a status calls for a retry under R243. -/
def retryable : MediaStatus → Bool
  | .busy | .taskSetFull | .transport => true
  | .check key _ _ _ _ => key == 6 || key == 11
  | _ => false

/-- CDB of READ(16), WRITE(16), VERIFY(16) or SYNCHRONIZE CACHE(16). PRESUMED, log entry 29. -/
def cdb16 (op flags lba n : Nat) : List Byte :=
  leBytes 1 op ++ leBytes 1 flags ++ beBytes 8 lba ++ beBytes 4 n ++ zeros 2

/-- CDB of READ(6), WRITE(6) or WRITE FILEMARKS(6) on tape, variable block. PRESUMED, log entry 29. -/
def cdb6 (op n : Nat) : List Byte := leBytes 1 op ++ zeros 1 ++ beBytes 3 n ++ zeros 1

/-- An ATA command as the model writes it down: command, FUA, LBA and count (PRESUMED, log entry 29). -/
def ataCmd (op fua lba n : Nat) : List Byte := leBytes 1 op ++ leBytes 1 fua ++ leBytes 6 lba ++ leBytes 4 n

/-- The command that writes `n` bytes at a place of a device (R240). -/
def State.writeCdb (s : State) (d lba n : Nat) : List Byte :=
  let fua := !s.onB .MPT_DEV_CTL_DURABLE d
  let t := s.devType d
  if t = tyTape then cdb6 0x0A n
  else if t = tySata then ataCmd 0x61 (b2n fua) lba (n / s.blockSize d)
  else cdb16 0x8A (if fua then 8 else 0) lba (n / s.blockSize d)

/-- The command that reads `n` bytes from a place of a device (R245). -/
def State.readCdb (s : State) (d lba n : Nat) : List Byte :=
  let t := s.devType d
  if t = tyTape then cdb6 0x08 n
  else if t = tySata then ataCmd 0x60 0 lba (n / s.blockSize d)
  else cdb16 0x88 0 lba (n / s.blockSize d)

/-- CDBs of PERSISTENT RESERVE IN READ RESERVATION, and of PERSISTENT RESERVE OUT with service action `sa`, type 1. PRESUMED, log entry 29. -/
def prInCdb : List Byte := leBytes 1 0x5E ++ leBytes 1 1 ++ zeros 5 ++ beBytes 2 24 ++ zeros 1
def prOutCdb (sa : Nat) : List Byte := leBytes 1 0x5F ++ leBytes 1 sa ++ leBytes 1 1 ++ zeros 2 ++ beBytes 4 24 ++ zeros 1

/-- The 24 bytes of PERSISTENT RESERVE OUT parameters; keys go little-endian (R257). PRESUMED, log entry 29. -/
def prParams (key sakey : Nat) : List Byte := leBytes 8 key ++ leBytes 8 sakey ++ zeros 8

/-- Whether a device carries reservations: SSP types. -/
def State.isSsp (s : State) (d : Nat) : Bool := s.devType d != tySata

/-- Sends SMP PHY CONTROL CLEAR AFFILIATION to the expander phy that attaches device `d` (R260), try `tries`. PRESUMED, log entry 29. -/
def sendSmp (d tries : Nat) (s : State) : State :=
  let v := s.devAt d
  let id := s.mpt.nextCmd
  let lane := s.laneFor d tries
  let c : MediaCmd :=
    { dev := d, lane := lane, use := .reserve .clearAffiliation, mutating := false, issuedAt := s.now, tmo := s.cmdTmo d, tries := tries }
  (s.withMpt (fun m => { m with cmds := kvSet m.cmds id c, nextCmd := id + 1 })).emit (.smp id lane v.expander v.phy 6)

/-- Sends a reservation command of the device's own, or the SMP command, for device `d` (R257 to R260, R263), try `tries`; where no
path reaches the device every try left fails at once on transport (R233, R243). -/
def sendReserve (d : Nat) (kind : PrKind) (tries : Nat) (s : State) : State :=
  if !s.reachable d then s.bumpN .MPT_RETRIES_COUNT (s.get .MPT_RETRY_COUNT - tries)
  else
    let own := s.ownKey
    let peer := (s.devAt d).holder.getD 0
    let w : WaitCmd := { dev := d, use := .reserve kind, mutating := false, dataIn := false, tries := tries, cdb := [], data := [] }
    match kind with
    | .register => sendOwn { w with cdb := prOutCdb 6, data := prParams 0 own } s
    | .reserve => sendOwn { w with cdb := prOutCdb 1, data := prParams own 0 } s
    | .preempt => sendOwn { w with cdb := prOutCdb 5, data := prParams own peer } s
    | .readReservation => sendOwn { w with dataIn := true, cdb := prInCdb } s
    | .clearAffiliation => sendSmp d tries s

/-- Starts registering the own key on every present SSP device (R257). -/
def registerKeys (s : State) : State :=
  ((List.range 1024).filter (fun d => s.devState d == devPresent && s.isSsp d)).foldl (fun s d => sendReserve d .register 0 s) s

/-- The claim has changed (R257): no key on a device is the module's own until it is registered anew. -/
def rekey (s : State) : State :=
  registerKeys ((List.range 1024).foldl (fun s d => if s.onB .MPT_DEV_INFO_PR d then s.setB .MPT_DEV_INFO_PR d 0 else s) s)

/-- Clears the affiliation of every present SATA device (R260). -/
def clearAffiliations (s : State) : State :=
  ((List.range 1024).filter (fun d => s.devState d == devPresent && s.devType d == tySata)).foldl
    (fun s d => sendReserve d .clearAffiliation 0 s) s

/-- Changes the first transfer that `f` picks. -/
def modFirst (f : LaneXfer → Bool) (g : LaneXfer → LaneXfer) : List LaneXfer → List LaneXfer
  | [] => []
  | q :: t => if f q then g q :: t else q :: modFirst f g t

/-- 128 bytes fetched from DRAM into the first lane FIFO that has room for them (R246). -/
def laneFetch (s : State) : State :=
  match s.mpt.lanes.find? (fun q => q.2.any (·.left != 0) && decide (fifoHeld q.2 + 128 ≤ 262144)) with
  | some (l, x) =>
    setLane l (modFirst (·.left != 0) (fun q => { q with held := q.held + min 128 q.left, left := q.left - min 128 q.left }) x) s
  | none => s

/-- The link takes `n` bytes from a lane's FIFO; a tape transfer that runs empty is counted (R252). DESIGN CHOICE, log entry 86. -/
def laneDrain (l n : Nat) (s : State) : State :=
  match inProgress (s.laneOf l) with
  | some q =>
    let n := min n q.held
    let s := if s.devType q.dev = tyTape ∧ n ≠ 0 ∧ q.held = n ∧ q.left ≠ 0 then s.bump .MPT_TAPE_STARVE_COUNT else s
    setLane l (modFirst (·.cmd == q.cmd) (fun q => { q with held := q.held - n }) (s.laneOf l)) s
  | none => s

end Sys2Proof.Machine
end

