-- ==== Sys2Proof/Machine/Restore.lean ====
section
/-!
DEFINITION. The restore path: the stripe directory's lookups and requests, shard reads, decoding, UNSEAL, UNPACK, EMIT and
VERIFY (R28, R29, R63, R66 to R73, R76 to R78, R87, R88, R169, R177, R183, R195, R203 to R206, R209, R211, R216 to R219,
R221, R245).
-/

namespace Sys2Proof.Machine

/-- The restore a program runs. -/
def Prog.restore? (p : Prog) : Option (Run × Restore) :=
  match p.run with
  | some r => match r.place with
    | .restore rs => some (r, rs)
    | _ => none
  | none => none

/-- Changes the restore a program runs. -/
def modRestore (k : Nat) (f : Restore → Restore) (s : State) : State :=
  modProg k (fun p => match p.restore? with
    | some (r, rs) => { p with run := some { r with place := .restore (f rs) } }
    | none => p) s

/-- Changes the transfer of a program's running order. -/
def modXfer (k : Nat) (f : Xfer → Xfer) (s : State) : State :=
  modProg k (fun p => { p with run := p.run.map (fun r => { r with x := f r.x }) }) s

/-- A chunk as its CHUNK entry describes it, and its stripe. -/
def parseChunkEntry (d : List Byte) : StripeChunk × Nat :=
  ({ loc := fieldAt d 8 8, off := fieldAt d 4 4, stored := fieldAt d 24 4, len := fieldAt d 28 4, flags := fieldAt d 1 1
     fmt := fieldAt d 2 1 }, fieldAt d 16 8)

/-- k, m, log2 of the shard unit, and the shards (device, LBA, hash) of a stripe-table slot. -/
def parseStripeSlot (d : List Byte) : Nat × Nat × Nat × List (Nat × Nat × List Byte) :=
  let k := fieldAt d 1 1
  let m := fieldAt d 2 1
  (k, m, fieldAt d 3 1, (List.range (k + m)).map (fun i =>
    let e := bytesAt d (64 + 64 * i) 64
    (fieldAt e 2 2, fieldAt e 4 8, bytesAt e 12 48)))

/-- Looks a locator up in the chunk table (R216). -/
def dirChunk (loc : Nat) (s : State) : Option (StripeChunk × Nat) × State :=
  if !s.on .ENG_DIR_CTL_ENABLE ∨ s.dirSets = 0 then (none, s)
  else
    match devRead (s.dirSetAddr loc) 512 s with
    | (.ok d, s) =>
      (((List.range 8).map (fun i => bytesAt d (64 * i) 64)).findSome? (fun e =>
        if fieldAt e 0 1 = 0x13 ∧ fieldAt e 8 8 = loc then some (parseChunkEntry e) else none), s)
    | (_, s) => (none, s)

/-- Looks a stripe up in the stripe table (R216). -/
def dirStripe (id : Nat) (s : State) : Option (List Byte) × State :=
  if !s.on .ENG_DIR_CTL_ENABLE ∨ s.dirSlots = 0 then (none, s)
  else
    match devRead (s.dirSlotAddr id) 4160 s with
    | (.ok d, s) => (if fieldAt d 0 1 = 0x11 ∧ fieldAt d 8 8 = id then some d else none, s)
    | (_, s) => (none, s)

/-- Entries of the request ring. -/
def State.dreqSize (s : State) : Nat := 2 ^ (min 6 (s.get .ENG_DREQ_CTL_LOG2) + 6)

/-- Requests the engine holds back because the ring is full, at most 64 (R219). -/
def State.dreqHeld (s : State) : Nat := (s.eng.dirReqs.filter (fun r => !r.posted)).length

/-- A lookup misses: one request for the id, unless one is outstanding or 64 are held back (R217, R219). -/
def dirAsk (kind id : Nat) (s : State) : State :=
  if s.eng.dirReqs.any (fun r => r.kind == kind && r.id == id) ∨ 64 ≤ s.dreqHeld then s
  else s.withEng (fun e => { e with dirReqs := e.dirReqs ++ [{ kind := kind, id := id, posted := false }] })

/-- Posts a request at TAIL when the ring has a free entry; false where it has none. -/
def dreqPost (kind id : Nat) (s : State) : Bool × State :=
  let t := s.get .ENG_DREQ_CTL_TAIL
  let next := (t + 1) % s.dreqSize
  if next = s.get .ENG_DREQ_CTL_HEAD % s.dreqSize then (false, s)
  else
    let d := leBytes 1 kind ++ zeros 7 ++ leBytes 8 id
    (true, (devWrite (s.addrB .ENG_DREQ_BASE_BASE 0 + t * 16) d s).2.set .ENG_DREQ_CTL_TAIL next)

/-- The lookups that wait in programs: kind and id. -/
def State.lookups (s : State) : List (Nat × Nat) :=
  s.css.subs.filterMap (fun q => match q.2.prog.bind Prog.restore? with
    | some (_, rs) =>
      if rs.place = .wantStripe then some (2, rs.stripe)
      else if rs.place = .wantLoc then
        (if rs.verify then rs.todo.head?
         else rs.todo.find? (fun e => decide (e.off ≤ rs.from_) && decide (rs.from_ < e.off + e.len))).map (fun e => (1, e.loc))
      else none
    | none => none)

/-- Programs that waited to issue their requests issue them, as far as the engine holds them (R219). -/
def askAgain (s : State) : State := s.lookups.foldl (fun s q => dirAsk q.1 q.2 s) s

/-- DIR_REQUEST_POST (R217, R219): the oldest request held back goes to the ring, and makes room for one that waits. -/
def doDirRequestPost (s : State) : State :=
  match s.eng.dirReqs.find? (fun r => !r.posted) with
  | none => s
  | some r =>
    match dreqPost r.kind r.id s with
    | (true, s) =>
      askAgain ((s.withEng (fun e => { e with dirReqs := e.dirReqs.map (fun q => if q = r then { q with posted := true } else q) })).bump
        .ENG_DIR_MISS_COUNT)
    | (false, s) => s

/-- DREQ_HEAD_WRITE (R219): firmware frees entries; requests held back are posted while there is room. -/
def doDreqHeadWrite (o : Origin) (v : Nat) (s : State) : State :=
  reach o .ENG_DREQ_CTL (fun s =>
    if !isFw o then s
    else
      let s := s.set .ENG_DREQ_CTL_HEAD v
      (List.range (s.dreqHeld + s.lookups.length)).foldl (fun s _ => doDirRequestPost s) s) s

/-- DREQ_REARM (R217): every request already posted and not answered is posted again; those without room are held. -/
def doDreqRearm (o : Origin) (s : State) : State :=
  reach o .ENG_DREQ_CTL (fun s =>
    if !isFw o then s
    else s.eng.dirReqs.foldl (fun s r =>
      if r.posted then
        match dreqPost r.kind r.id s with
        | (true, s) => s
        | (false, s) => s.withEng (fun e => { e with dirReqs := e.dirReqs.map (fun q => if q = r then { q with posted := false } else q) })
      else s) s) s

/-- One row of a linear system over GF(2^8): coefficients and bytes. -/
abbrev GfRow := List Nat × List Byte

/-- A row times a factor. -/
def gfScale (c : Nat) (r : GfRow) : GfRow := (r.1.map (gfMul c), r.2.map (fun b => BitVec.ofNat 8 (gfMul c b.toNat)))

/-- The sum of two rows. -/
def gfAddRow (a b : GfRow) : GfRow := (List.zipWith (· ^^^ ·) a.1 b.1, xorBytes a.2 b.2)

/-- Clears column `c` of a row with a row whose entry there is 1. -/
def gfClear (c : Nat) (piv r : GfRow) : GfRow := gfAddRow r (gfScale (r.1.getD c 0) piv)

/-- Gauss-Jordan elimination over the given columns: solved rows, rows left. -/
def gfSolve : List Nat → List GfRow → List GfRow → List GfRow
  | [], solved, _ => solved
  | c :: t, solved, rest =>
    match rest.find? (fun r => r.1.getD c 0 != 0) with
    | none => solved
    | some r =>
      let piv := gfScale (gfInv (r.1.getD c 0)) r
      gfSolve t (solved.map (gfClear c piv) ++ [piv]) ((rest.erase r).map (gfClear c piv))

/-- The data payloads from any k good shards (R199, R205). -/
def decodeShards (k : Nat) (good : List (Nat × List Byte)) : List (List Byte) :=
  let row := fun (q : Nat × List Byte) =>
    ((List.range k).map (fun i => if q.1 < k then (if q.1 = i then 1 else 0) else rsCoef (q.1 - k) i), q.2)
  (gfSolve (List.range k) [] ((good.take k).map row)).map (·.2)

/-- The data shards the bytes of a chunk lie in (R88, R196). -/
def Restore.spanOf (rs : Restore) : List Nat :=
  match rs.chunk with
  | some c =>
    let n := 2 ^ rs.shift - 64
    let a := c.off / n
    (List.range ((c.off + 32 + c.stored - 1) / n - a + 1)).map (· + a)
  | none => []

/-- Shards got good, and those found bad. -/
def Restore.good (rs : Restore) : List ShardGot := rs.got.filter (·.good)
def Restore.badOnes (rs : Restore) : List ShardGot := rs.got.filter (fun g => !g.good)

/-- The good shard of an index. -/
def Restore.shardOf (rs : Restore) (i : Nat) : Option ShardGot := rs.got.find? (fun g => g.index == i && g.good)

/-- Whether the restore reads every shard of the stripe: VERIFY, and a stripe decoded again under R183. -/
def Restore.full (rs : Restore) : Bool := rs.verify || rs.all

/-- The shards to be read next (R28, R88, R205): all of them; or the k data shards and, for each bad one, one further shard,
data shards before parity shards, until k are good or none is left. -/
def Restore.wants (rs : Restore) : List Nat :=
  let free := (List.range (rs.k + rs.m)).filter (fun i => !rs.asked.contains i)
  if rs.full then free else free.take (rs.k + rs.badOnes.length - rs.asked.length)

/-- Whether all the shards asked for are there. -/
def Restore.settledReads (rs : Restore) : Bool := rs.asked.length == rs.got.length

/-- Whether every shard the restore reads of the stripe at hand is there. -/
def Restore.allRead (rs : Restore) : Bool := rs.settledReads && rs.wants.isEmpty

/-- A shard read has failed for good: an erasure (R204). -/
def erase (k shard : Nat) (s : State) : State :=
  (modRestore k (fun rs => { rs with got := rs.got ++ [{ index := shard, good := false, payload := [] }] }) s).bump
    .ENG_GATHER_ERASURES_COUNT

/-- The DRAM address of shard `i` in the restore buffer. -/
def State.restoreAddr (s : State) (rs : Restore) (i : Nat) : Nat :=
  s.shardAddr ((rs.buf.map (·.1)).getD 0) rs.shift i

/-- Sends the read of one shard, try `tries`; a device no path reaches fails every try at once (R233, R243, R245). -/
def readShard (k stripe shard dev lba unit tries : Nat) (s : State) : State :=
  let s := epbFlag .ENG_EPB_FLAGS_RESTORE s
  let s := if tries = 0 then s else epbFlag .ENG_EPB_FLAGS_RETRY s
  if s.reachable dev then
    let token := ((s.progAt k).map (·.token)).getD 0
    sendCmd dev (.shardRead k token stripe shard) false true tries (s.cmdTmo dev) 0 (s.readCdb dev lba unit) [] s
  else erase k shard (s.bumpN .MPT_RETRIES_COUNT (s.get .MPT_RETRY_COUNT - tries))

/-- Issues the shard reads a restore wants, as far as the devices take them. -/
def issueReads (k : Nat) (s : State) : State :=
  match (s.progAt k).bind Prog.restore? with
  | none => s
  | some (_, rs) =>
    if rs.place ≠ .reading ∨ rs.buf.isNone then s
    else
      rs.wants.foldl (fun s i =>
        match rs.shards[i]? with
        | none => s
        | some (dev, lba, _) =>
          if s.reachable dev && !s.devRoom dev then s
          else
            let s := modRestore k (fun rs => { rs with asked := rs.asked ++ [i] }) s
            readShard k rs.stripe i dev lba (2 ^ rs.shift) 0 s) s

/-- Whether a shard read passes the checks of R204. -/
def shardOk (rs : Restore) (i : Nat) (d : List Byte) : Bool :=
  let n := 2 ^ rs.shift - 64
  let t := bytesAt d n 64
  let hash := match rs.shards[i]? with | some q => q.2.2 | none => []
  fieldAt t 0 4 == 0x48535657 && fieldAt t 4 1 == i && fieldAt t 5 1 == rs.k && fieldAt t 6 1 == rs.m &&
  fieldAt t 7 1 == rs.shift && fieldAt t 8 8 == rs.stripe && bytesAt t 16 48 == hash && sha384 (d.take n) == hash

/-- Frees the restore buffer and forgets the stripe. -/
def leaveStripe (k : Nat) (s : State) : State :=
  match (s.progAt k).bind Prog.restore? with
  | none => s
  | some (_, rs) =>
    let s := match rs.buf with | some b => freeBuf b.1 s | none => s
    modRestore k (fun rs =>
      { rs with
        stripe := 0, k := 0, m := 0, shift := 0, shards := [], asked := [], got := [], all := false, again := false
        noted := 0, buf := none }) s

/-- The mask of the bad shards of the stripe at hand. -/
def Restore.badMask (rs : Restore) : Nat := rs.badOnes.foldl (fun a g => setBit a g.index) 0

/-- Writes a REPAIR entry for the bad shards of the stripe at hand that no entry names yet (R211). -/
def noteBad (k : Nat) (s : State) : State :=
  match (s.progAt k).bind Prog.restore? with
  | none => s
  | some (_, rs) =>
    let mask := andNot rs.badMask rs.noted
    if mask = 0 then s else modRestore k (fun rs => { rs with noted := rs.noted ||| mask }) (dlogRepair rs.stripe mask s)

/-- Frees the restore buffer once its shards have been read out of it (R29, R45); GATHER holds what it read. DESIGN CHOICE, log entry 51. -/
def emptyBuf (k : Nat) (s : State) : State :=
  match (s.progAt k).bind Prog.restore? with
  | none => s
  | some (_, rs) =>
    match rs.buf with
    | some b => modRestore k (fun rs => { rs with buf := none }) (freeBuf b.1 s)
    | none => s

/-- The length of a map's object. DESIGN CHOICE, log entry 54. -/
def mapLength (l : List MapEntry) : Nat := l.foldl (fun a e => max a (e.off + e.len)) 0

/-- Segments cut to `n` bytes in all; an invalid one stands as it is. -/
def limitSegs : Nat → List (Nat × Nat) → List (Nat × Nat)
  | _, [] => []
  | n, (a, len) :: t =>
    if n = 0 then []
    else if 2 ^ 64 ≤ a then [(a, len)]
    else (a, min len n) :: limitSegs (n - len) t

/-- Writes the object digests of an EMIT (R83); where the DIGEST units disagree the mask of valid fields is 0 and the DIGEST
error source is raised (R209). -/
def emitDigests (k : Nat) (t : StageSet) (rs : Restore) (s : State) : State :=
  let d := digestArea t.digMask rs.digest
  if rs.digBad then
    writeArea k t.digDev t.digAddr (d.take 124 ++ zeros 4) (raiseUe 35 1 0 0 0 0 (s.bump .ENG_DIGEST_MISMATCH_COUNT))
  else writeArea k t.digDev t.digAddr d s

/-- Ends a segment of an EMIT (R66, R68, R71 to R73, R83, R87): within a join the transfer goes on; at its end the length
is judged, the digests are written and the conditions set. The source being exhausted decides before the buffer (R73). -/
def endEmit (k : Nat) (s : State) : State :=
  match (s.progAt k).bind (fun p => p.restore?.map (fun q => (p, q.1, q.2))) with
  | none => s
  | some (p, r, rs) =>
    if (parseOrd r.raw).join then finishOrder k s
    else
      let s := leaveStripe k s
      let s := setConds k [(0, decide (r.x.moved < r.x.total)), (2, rs.usedParity)] s
      let s := if r.x.sel.testBit 5 && p.stages.digMask != 0 then emitDigests k p.stages rs s else s
      if r.x.moved < r.x.total then
        if rs.upTo ≤ rs.from_ then
          if r.x.short then finishOrder k s else endProg k stLen 0x0100 r.x.residual r.addr s
        else endProg k stLen 0x0101 r.x.residual r.addr s
      else finishOrder k s

/-- Ends a VERIFY with the number of bad shards as its residual. -/
def endVerify (k : Nat) (s : State) : State :=
  match (s.progAt k).bind Prog.restore? with
  | none => s
  | some (_, rs) =>
    let s := setConds k [(2, rs.usedParity), (3, decide (0 < rs.bad))] s
    finishOrder k (modXfer k (fun x => { x with total := rs.bad, moved := 0 }) s)

/-- Writes emitted bytes into the segments, in order: the segments left, and the state. -/
def emitBytes (k : Nat) (dev sink : Bool) : List (Nat × Nat) → List Byte → State → List (Nat × Nat) × State
  | [], _, s => ([], s)
  | (a, n) :: t, d, s =>
    if d.isEmpty then ((a, n) :: t, s)
    else
      let x := d.take n
      let s := if sink || x.isEmpty then s else if dev then (devWrite a x s).2 else tellHost k a true x s
      if d.length < n then ((a + d.length, n - d.length) :: t, s)
      else emitBytes k dev sink t (d.drop n) s

/-- Delivers the decoded chunk at hand as far as the segment reaches (R63, R87). -/
def deliver (k : Nat) (e : MapEntry) (s : State) : State :=
  match (s.progAt k).bind Prog.restore? with
  | none => s
  | some (r, rs) =>
    let room := r.x.segs.foldl (fun a q => a + q.2) 0
    let d := (rs.data.drop (rs.from_ - e.off)).take room
    let (segs, s) := emitBytes k r.x.dev r.x.sink r.x.segs d s
    let whole := decide (rs.from_ + d.length = e.off + e.len)
    let s := modXfer k (fun x => { x with segs := segs, moved := x.moved + d.length }) s
    modRestore k (fun rs =>
      { rs with
        from_ := rs.from_ + d.length, digest := if r.x.sel.testBit 5 then rs.digest ++ d else rs.digest
        place := if whole then .start else rs.place, data := if whole then [] else rs.data
        chunk := if whole then none else rs.chunk, plain := if whole then [] else rs.plain }) s

/-- A failed decode (R183, R206): every shard of the stripe is read and the chunk decoded again; the second time EMIT ends
with FAIL 0x0203 at the first byte of the chunk. -/
def decodeFailed (k : Nat) (s : State) : State :=
  match (s.progAt k).bind Prog.restore? with
  | none => s
  | some (r, rs) =>
    if rs.again then endProg k stFail 0x0203 r.x.residual r.addr s
    else
      let s := modRestore k (fun rs =>
        { rs with all := true, again := true, asked := [], got := [], place := .reading, plain := [], data := [] }) s
      issueReads k (if rs.buf.isSome then s else askBuf k (granulesOf rs.k rs.m rs.shift) true s)

/-- The stored bytes of the chunk at hand, its header before them, from the shards at hand (R196, R205). -/
def Restore.chunkBytes (rs : Restore) : List Byte :=
  match rs.chunk with
  | none => []
  | some c =>
    let n := 2 ^ rs.shift - 64
    let pays :=
      if rs.spanOf.all (fun i => (rs.shardOf i).isSome) then
        rs.spanOf.map (fun i => ((rs.shardOf i).map (·.payload)).getD [])
      else
        let all := decodeShards rs.k (rs.good.map (fun g => (g.index, g.payload)))
        rs.spanOf.map (fun i => all.getD i [])
    bytesAt pays.flatten (c.off % n) (32 + c.stored)

/-- GATHER takes the chunk at hand from the shards (R78, R206): it goes to UNSEAL, to UNPACK, or straight out. DESIGN CHOICE, log entry 51. -/
def gatherChunk (k : Nat) (s : State) : State :=
  match (s.progAt k).bind Prog.restore? with
  | none => s
  | some (r, rs) =>
    match rs.chunk with
    | none => s
    | some c =>
      let d := rs.chunkBytes
      let used := rs.good.any (fun g => decide (rs.k ≤ g.index)) && !rs.spanOf.all (fun i => (rs.shardOf i).isSome)
      let s := modRestore k (fun rs => { rs with usedParity := rs.usedParity || used }) s
      if fieldAt d 0 8 ≠ c.loc ∨ fieldAt d 12 4 ≠ c.stored then decodeFailed k s
      else if (c.flags.testBit 1 && !r.x.sel.testBit 3) || (c.flags.testBit 2 && !r.x.sel.testBit 2) then
        endProg k stFail 0x0205 r.x.residual r.addr s
      else
        modRestore k (fun rs =>
          { rs with
            plain := d, data := d.drop 32
            place := if c.flags.testBit 1 then .decoded else if r.x.sel.testBit 2 then .opened else .done }) s

/-- The stripe of the lookup at hand is known: its shape is checked and a buffer asked for (R203). -/
def foundStripe (k id : Nat) (d : List Byte) (s : State) : State :=
  match (s.progAt k).bind Prog.restore? with
  | none => s
  | some (r, _) =>
    let (kk, m, sh, shards) := parseStripeSlot d
    if s.shapeTooBig kk m sh then endProg k stFail 0x0201 r.x.residual r.addr s
    else
      let s := modRestore k (fun rs =>
        { rs with
          stripe := id, k := kk, m := m, shift := sh, shards := shards, asked := [], got := [], all := false
          again := false, noted := 0, place := .reading }) s
      askBuf k (granulesOf kk m sh) true s

/-- The chunk of the lookup at hand is known: the same stripe goes on, another one is looked up. -/
def foundChunk (k : Nat) (c : StripeChunk) (id : Nat) (s : State) : State :=
  match (s.progAt k).bind Prog.restore? with
  | none => s
  | some (_, rs) =>
    if !rs.verify ∧ rs.k ≠ 0 ∧ rs.stripe = id then
      modRestore k (fun rs => { rs with chunk := some c, again := false, place := .reading }) s
    else
      modRestore k (fun rs => { rs with chunk := some c, stripe := id, place := .wantStripe }) (leaveStripe k s)

/-- The syndrome of a stripe whose shards all pass their own checks: parity shards that do not match the data (R88). -/
def Restore.syndromeBad (rs : Restore) : List Nat :=
  let data := (List.range rs.k).map (fun i => ((rs.shardOf i).map (·.payload)).getD [])
  let n := 2 ^ rs.shift - 64
  (List.range rs.m).filterMap (fun j =>
    match rs.shardOf (rs.k + j) with
    | some g => if g.payload = gfSum n ((data.zipIdx).map (fun d => (rsCoef j d.2, d.1))) then none else some (rs.k + j)
    | none => none)

/-- VERIFY has all shards of a stripe: the bad ones are counted, and with REPAIR those on disk are to be rewritten from the
decode (R88, R204, R211); more than m bad end it with FAIL 0x0203. -/
def verifyStripe (k : Nat) (s : State) : State :=
  match (s.progAt k).bind (fun p => p.restore?.map (fun q => (p, q.1, q.2))) with
  | none => s
  | some (p, r, rs) =>
    let bad := if rs.badOnes.isEmpty then rs.syndromeBad else rs.badOnes.map (·.index)
    let s := modRestore k (fun rs =>
      { rs with bad := rs.bad + bad.length, usedParity := rs.usedParity || bad.any (fun i => decide (i < rs.k)) }) s
    if rs.m < bad.length then
      endProg k stFail 0x0203 (rs.bad + bad.length) r.addr (dlogRepair rs.stripe (bad.foldl setBit 0) s)
    else
      let disk := bad.filter (fun i => match rs.shards[i]? with | some q => s.devType q.1 != tyTape | none => false)
      let mask := fun (l : List Nat) => l.foldl setBit 0
      let next := fun (s : State) =>
        modRestore k (fun rs => { rs with place := .start }) (leaveStripe k
          (modRestore k (fun rs => { rs with stripesDone := rs.stripe :: rs.stripesDone }) s))
      if bad.isEmpty then next s
      else if !rs.repair ∨ disk.isEmpty then next (dlogRepair rs.stripe (mask bad) s)
      else
        let left := bad.filter (fun i => !disk.contains i)
        let s := if left.isEmpty then s else dlogRepair rs.stripe (mask left) s
        let good := rs.good.filter (fun g => !bad.contains g.index)
        let data := decodeShards rs.k (good.map (fun g => (g.index, g.payload)))
        let n := 2 ^ rs.shift - 64
        let pays := data ++ (List.range rs.m).map (fun j => gfSum n ((data.zipIdx).map (fun d => (rsCoef j d.2, d.1))))
        let places := rs.shards.map (fun q => { dev := q.1, kind := 1, start := q.2.1 : Place })
        let hashes := pays.map sha384
        let x : Stripe :=
          { id := rs.stripe, sch := k, token := p.token, fn := (s.subAt k).fn, obj := p.obj, cursor := 0
            set := { k := rs.k, m := rs.m, shift := rs.shift, places := places }, buf := (rs.buf.map (·.1)).getD 0
            granules := 0, closed := true, hashes := hashes, asked := true
            issued := (List.range (rs.k + rs.m)).filter (fun i => !disk.contains i)
            ended := (List.range (rs.k + rs.m)).filter (fun i => !disk.contains i) }
        let s := disk.foldl (fun s i =>
          (devWrite (s.restoreAddr rs i)
            (pays.getD i [] ++ shardTrailer i rs.k rs.m rs.shift rs.stripe (hashes.getD i [])) s).2) s
        modRestore k (fun rs => { rs with place := .decoded })
          (s.withCss (fun c => { c with stripes := kvSet c.stripes rs.stripe x }))

/-- The rewrites of a VERIFY with REPAIR have ended: those that failed get a REPAIR entry; a stripe rewritten enters the
open custody epoch again (R211, R221). DESIGN CHOICE, log entry 54. -/
def repairDone (k : Nat) (s : State) : State :=
  match (s.progAt k).bind Prog.restore? with
  | none => s
  | some (_, rs) =>
    match kvGet? s.css.stripes rs.stripe with
    | none => s
    | some x =>
      if !(List.range (rs.k + rs.m)).all (fun i => x.ended.contains i) ∨ !x.unsynced.isEmpty ∨ !s.cusRoom 1 then s
      else
        let failed := (List.range (rs.k + rs.m)).filter (fun i =>
          !x.durable.contains i && rs.badOnes.any (fun g => g.index == i) &&
          (match rs.shards[i]? with | some q => s.devType q.1 != tyTape | none => false))
        let s := if failed.isEmpty then s else dlogRepair rs.stripe (failed.foldl setBit 0) s
        let s := if x.durable.isEmpty then s else enterCustody (x.custody true) s
        let s := s.withCss (fun c => { c with stripes := kvDel c.stripes rs.stripe })
        let s := modRestore k (fun rs => { rs with stripesDone := rs.stripe :: rs.stripesDone }) s
        modRestore k (fun rs => { rs with place := .start }) (leaveStripe k s)

/-- Whether GATHER runs: PD29 is on, not being taken down and not restarting (R26). -/
def State.gatherUp (s : State) : Bool := s.codeUp && !s.going 29

/-- Moves a restore on as far as it can go; the first argument bounds the moves. An invalid list entry that stands where the
source is exhausted is reached, and judged before the length (R63, R71). DESIGN CHOICE, log entry 49. -/
def restoreGo : Nat → Nat → State → State
  | 0, _, s => s
  | n + 1, k, s =>
    match s.progAt k with
    | none => s
    | some p =>
      match p.ending, p.restore? with
      | none, some (r, rs) =>
        match rs.place with
        | .start =>
          if rs.verify then
            match rs.todo with
            | [] => endVerify k s
            | e :: t =>
              match dirChunk e.loc s with
              | (some (_, id), s) =>
                let s := modRestore k (fun rs => { rs with todo := t }) s
                if rs.stripesDone.contains id then restoreGo n k s
                else restoreGo n k (modRestore k (fun rs => { rs with stripe := id, place := .wantStripe }) s)
              | (none, s) => modRestore k (fun rs => { rs with place := .wantLoc }) (dirAsk 1 e.loc s)
          else
            match r.x.segs with
            | [] => endEmit k s
            | q :: _ =>
              if 2 ^ 64 ≤ q.1 then endProg k stRej (q.1 - 2 ^ 64) r.x.residual r.addr s
              else if rs.upTo ≤ rs.from_ then endEmit k s
              else
                match rs.todo.find? (fun e => decide (e.off ≤ rs.from_) && decide (rs.from_ < e.off + e.len)) with
                | none => endProg k stFail 0x0203 r.x.residual r.addr s
                | some e =>
                  match dirChunk e.loc s with
                  | (some (c, id), s) => restoreGo n k (foundChunk k c id s)
                  | (none, s) => modRestore k (fun rs => { rs with place := .wantLoc }) (dirAsk 1 e.loc s)
        | .wantLoc =>
          let e := if rs.verify then rs.todo.head?
            else rs.todo.find? (fun e => decide (e.off ≤ rs.from_) && decide (rs.from_ < e.off + e.len))
          match e with
          | some e => dirAsk 1 e.loc s
          | none => s
        | .wantStripe =>
          if kvHas s.css.stripes rs.stripe && rs.verify then s
          else match dirStripe rs.stripe s with
            | (some d, s) => restoreGo n k (foundStripe k rs.stripe d s)
            | (none, s) => dirAsk 2 rs.stripe s
        | .reading =>
          let s := issueReads k s
          match (s.progAt k).bind Prog.restore? with
          | none => s
          | some (_, rs) =>
            if !rs.allRead ∨ !s.gatherUp then s
            else if rs.verify then restoreGo n k (verifyStripe k s)
            else
              let s := emptyBuf k (noteBad k s)
              if rs.good.length < rs.k then endProg k stFail 0x0203 r.x.residual r.addr s
              else restoreGo n k (gatherChunk k s)
        | .decoded => if rs.verify then repairDone k s else s
        | .opened => s
        | .done =>
          match rs.todo.find? (fun e => decide (e.off ≤ rs.from_) && decide (rs.from_ < e.off + e.len)), r.x.segs with
          | some e, q :: _ =>
            if 2 ^ 64 ≤ q.1 then endProg k stRej (q.1 - 2 ^ 64) r.x.residual r.addr s
            else restoreGo n k (deliver k e s)
          | _, _ => endEmit k s
      | _, _ => s

/-- Moves the restore of a program on. -/
def restoreStep (k : Nat) (s : State) : State :=
  let n := match s.progAt k with
    | some p => match p.restore? with
      | some (r, rs) => 8 * rs.todo.length + 2 * r.x.segs.length + 16
      | none => 16
    | none => 16
  restoreGo n k s

/-- EMIT (R63, R65, R69, R87, R203, R209): in a join the restore goes on where the segment before it stopped. `digFault`:
the DIGEST units will disagree over its bytes. -/
def doOrdEmit (k : Nat) (list : HostRead) (digFault : Bool) (s : State) : State :=
  takeOrder k opEmit .stage (fun p r o s =>
    let (b, s) := if o.list then readBlock o.dev o.addr (16 * (o.pb % 65536)) list s else (.ok [], s)
    match b with
    | .ok d =>
      if s.shapeTooBig 0 0 0 then endProg k stFail 0x0201 r.x.residual r.addr s
      else
        let entries := (p.stages.gather).getD []
        let fresh : Restore := { verify := false, todo := entries, from_ := o.pa, upTo := mapLength entries }
        let rs : Restore := match p.join with
          | some (_, q) => match q.place with
            | .restore rs => rs
            | _ => fresh
          | none => fresh
        let rs := { rs with digBad := rs.digBad || digFault }
        let x := { r.x with segs := limitSegs o.count (s.segsOf k o d) }
        restoreStep k (modProg k (fun p => { p with run := some { r with x := x, place := .restore rs } }) s)
    | b => blockEnd k b r.x.residual r.addr s) s

/-- VERIFY (R88, R204): the stripes the last GATHER names; without one there are none. DESIGN CHOICE, log entry 51. -/
def doOrdVerify (k : Nat) (s : State) : State :=
  takeOrder k opVerify .stage (fun p r o s =>
    let rs : Restore := { verify := true, repair := o.pa.testBit 0, todo := (p.stages.gather).getD [], from_ := 0, upTo := 0 }
    if s.shapeTooBig 0 0 0 ∧ !rs.todo.isEmpty then endProg k stFail 0x0203 0 r.addr s
    else restoreStep k (modProg k (fun p => { p with run := some { r with place := .restore rs } }) s)) s

/-- A shard read ends (R204, R243, R245, R268): retried, an erasure, or into the restore buffer and out of it again. -/
def shardReadDone (k stripe shard : Nat) (c : MediaCmd) (status : MediaStatus) (data : List Byte) (s : State) : State :=
  match (s.progAt k).bind (fun p => if p.ending.isSome then none else p.restore?) with
  | none => s
  | some (_, rs) =>
    if rs.stripe ≠ stripe ∨ rs.place ≠ .reading ∨ !rs.asked.contains shard ∨ rs.got.any (fun g => g.index == shard) then s
    else
      match status with
      | .good _ =>
        let u := 2 ^ rs.shift
        let d := padTo u data
        let s := (devWrite (s.restoreAddr rs shard) d s).2
        match devRead (s.restoreAddr rs shard) u s with
        | (.ok e, s) =>
          if shardOk rs shard e then
            restoreStep k (modRestore k (fun rs =>
              { rs with got := rs.got ++ [{ index := shard, good := true, payload := e.take (u - 64) }] }) s)
          else restoreStep k (erase k shard s)
        | (_, s) => restoreStep k (erase k shard s)
      | st =>
        match rs.shards[shard]? with
        | some (dev, lba, _) =>
          if retryable st && decide (c.tries < s.get .MPT_RETRY_COUNT) then
            restoreStep k (readShard k stripe shard dev lba (2 ^ rs.shift) (c.tries + 1) (s.bump .MPT_RETRIES_COUNT))
          else restoreStep k (erase k shard s)
        | none => s

/-- Sets RESULT of the directory answer. -/
def dirResult (r : Nat) (s : State) : State := s.set .ENG_DIR_CMD_RESULT r

/-- Programs whose lookup waits for an answer. -/
def State.dirWaiters (s : State) (kind id : Nat) : List Nat :=
  (s.css.subs.filter (fun q => match q.2.prog.bind Prog.restore? with
    | some (_, rs) =>
      if kind = 2 then decide (rs.place = .wantStripe ∧ rs.stripe = id)
      else decide (rs.place = .wantLoc) &&
        (match (if rs.verify then rs.todo.head?
          else rs.todo.find? (fun e => decide (e.off ≤ rs.from_) && decide (rs.from_ < e.off + e.len))) with
         | some e => e.loc == id
         | none => false)
    | none => false)).map (·.1)

/-- Serves a waiting lookup from an entry. -/
def dirServe (kind id : Nat) (d : List Byte) (k : Nat) (s : State) : State :=
  if kind = 2 then restoreStep k (foundStripe k id d s)
  else
    let (c, stripe) := parseChunkEntry d
    match (s.progAt k).bind Prog.restore? with
    | none => s
    | some (_, rs) =>
      if rs.verify then
        let s := modRestore k (fun rs => { rs with todo := rs.todo.drop 1 }) s
        if rs.stripesDone.contains stripe then restoreStep k (modRestore k (fun rs => { rs with place := .start }) s)
        else restoreStep k (modRestore k (fun rs => { rs with stripe := stripe, place := .wantStripe }) s)
      else restoreStep k (foundChunk k c stripe s)

/-- The directory entry a request is answered with, as DRAM holds it: a line of a set of the chunk directory, or a slot. -/
def dirRead (kind id : Nat) (s : State) : DevRead × State :=
  if kind = 1 then devRead (s.dirSetAddr id + id % 8 * 64) 64 s else devRead (s.dirSlotAddr id) 4160 s

/-- A command of ENG_DIR_CMD: the cores' alone, and ignored while a FLUSH runs (R602). -/
def dirCommand (o : Origin) (act : State → State) (s : State) : State :=
  reach o .ENG_DIR_CMD (fun s => if !isFw o ∨ s.on .ENG_DIR_CMD_BUSY then s else act s) s

/-- DIR_FILLED (R217): the slot the request names is read; its entry serves the waiting lookups, or RESULT 2. -/
def doDirFilled (o : Origin) (kind : Nat) (s : State) : State :=
  dirCommand o (fun s =>
    let id := s.get .ENG_DIR_ARG_ID
    if !s.eng.dirReqs.any (fun r => r.kind == kind && r.id == id && r.posted) then dirResult 1 s
    else if (kind = 1 ∧ s.dirSets = 0) ∨ (kind = 2 ∧ s.dirSlots = 0) then dirResult 2 s
    else
      match dirRead kind id s with
      | (.ok d, s) =>
        if fieldAt d 0 1 = (if kind = 1 then 0x13 else 0x11) ∧ fieldAt d 8 8 = id then
          let l := s.dirWaiters kind id
          let s := s.withEng (fun e => { e with dirReqs := e.dirReqs.filter (fun r => !(r.kind == kind && r.id == id)) })
          l.foldl (fun s k => dirServe kind id d k s) (dirResult 0 s)
        else dirResult 2 s
      | (_, s) => dirResult 2 s) s

/-- DIR_ABSENT (R88, R217): the lookups that wait end their programs with FAIL 0x0203. -/
def doDirAbsent (o : Origin) (kind : Nat) (s : State) : State :=
  dirCommand o (fun s =>
    let id := s.get .ENG_DIR_ARG_ID
    if !s.eng.dirReqs.any (fun r => r.kind == kind && r.id == id && r.posted) then dirResult 1 s
    else
      let l := s.dirWaiters kind id
      let s := s.withEng (fun e => { e with dirReqs := e.dirReqs.filter (fun r => !(r.kind == kind && r.id == id)) })
      l.foldl (fun s k =>
        match (s.progAt k).bind Prog.restore? with
        | some (r, rs) => endProg k stFail 0x0203 (if rs.verify then rs.bad else r.x.residual) r.addr s
        | none => s) (dirResult 0 s)) s

/-- DIR_FLUSH (R216): both tables are to be emptied. -/
def doDirFlush (o : Origin) (s : State) : State :=
  dirCommand o (fun s => (dirResult 0 s).set .ENG_DIR_CMD_BUSY 1) s

/-- Clears DRAM bytes from `a`, `n` of them; poison marks of whole lines go with them (R279). -/
def clearDram (a n : Nat) (s : State) : State :=
  s.withMem (fun m =>
    { m with
      dram := m.dram.filter (fun c => !(decide (a ≤ c.1) && decide (c.1 < a + n)))
      poison := m.poison.filter (fun l => !(decide (a ≤ l * 128) && decide (l * 128 + 128 ≤ a + n)))
      errs := m.errs.filter (fun q => !(decide (a ≤ q.1 * 128) && decide (q.1 * 128 + 128 ≤ a + n))) })

/-- DIR_FLUSH_COMPLETE (R216). -/
def doDirFlushComplete (s : State) : State :=
  if s.on .ENG_DIR_CMD_BUSY then
    clearDram (s.addrB .ENG_DIR_BASE_BASE 0) (s.dirSets * 512 + s.dirSlots * 4160) (s.set .ENG_DIR_CMD_BUSY 0)
  else s

/-- UNSEAL_CHUNK (R88, R187, R195): a disagreement of the lanes repeats the chunk; a tag failure on which they agree ends
the program with FAIL 0x0204. -/
def doUnsealChunk (k : Nat) (mismatch : Bool) (s : State) : State :=
  match s.inEngines k with
  | none => s
  | some p =>
    match p.restore? with
    | none => s
    | some (r, rs) =>
      let h := p.stages.unsealKey.getD 0
      if rs.verify ∨ rs.place ≠ .decoded ∨ !s.sealUp ∨ !s.eng.slots.contains h then s
      else if mismatch then raiseCe 33 0 0 0 0 (s.bump .ENG_SEAL_MISMATCH_COUNT)
      else
        let s := touchSlot h s
        let aad := rs.plain.take 20 ++ leBytes 8 h
        match gcmOpen (s.dataKey h) (bytesAt rs.plain 20 12) aad (rs.plain.drop 32) with
        | none => endProg k stFail 0x0204 r.x.residual r.addr (s.bump .ENG_UNSEAL_TAGFAIL_COUNT)
        | some d =>
          restoreStep k (modRestore k (fun rs =>
            { rs with data := d, place := if r.x.sel.testBit 2 then .opened else .done }) s)

/-- UNPACK_CHUNK (R177, R183): the chunk is decoded in its format and checked against the map entry; a failure decodes the
stripe again, and after a good tag raises the UNPACK error source. PRESUMED, log entry 99. -/
def doUnpackChunk (k : Nat) (s : State) : State :=
  match s.inEngines k with
  | none => s
  | some p =>
    match p.restore? with
    | none => s
    | some (_, rs) =>
      if rs.verify ∨ rs.place ≠ .opened ∨ s.packEngines.isEmpty then s
      else
        match rs.chunk, rs.todo.find? (fun e => decide (e.off ≤ rs.from_) && decide (rs.from_ < e.off + e.len)) with
        | some c, some e =>
          let out := if c.flags.testBit 2 then unpackStream c.fmt rs.data else some rs.data
          let ok := match out with
            | some d => d.length == e.len && (!p.stages.verify || crc32c d == e.crc)
            | none => false
          if ok then restoreStep k (modRestore k (fun rs => { rs with data := out.getD [], place := .done }) s)
          else
            let s := if rs.again then s else s.bump .ENG_UNPACK_FAIL_COUNT
            decodeFailed k (if c.flags.testBit 1 then raiseUe 32 1 0 0 0 0 s else s)
        | _, _ => s

end Sys2Proof.Machine
end

