-- ==== Sys2Proof/Machine/Custody.lean ====
section
/-!
DEFINITION. The descriptor log's head, custody epochs and manifests (R215, R220 to R229).
-/

namespace Sys2Proof.Machine

/-- DLOG_HEAD_WRITE (R215): the value is a ring position, clamped at the mark, ignored beyond TAIL. -/
def doDlogHeadWrite (o : Origin) (v : Nat) (s : State) : State :=
  reach o .ENG_DLOG_CTL (fun s =>
    if !isFw o then s
    else
      let h := s.get .ENG_DLOG_CTL_HEAD
      let fwd := fun x => (x + dlogSize - h) % dlogSize
      let v := v % dlogSize
      let mark := s.get .ENG_DLOG_MARK_MARK
      let dest :=
        if fwd v ≤ fwd mark then v
        else if fwd v ≤ fwd (s.get .ENG_DLOG_CTL_TAIL) then mark
        else h
      let freed := (List.range (fwd dest)).map (fun i => (h + i) % dlogSize)
      let s := s.withEng (fun e => { e with dlog := e.dlog.filter (fun q => !freed.contains q.1) })
      let s := s.set .ENG_DLOG_CTL_HEAD dest
      pumpRepairs s.eng.repairWait s) s

/-- The largest power of two below `n`, by doubling from 1. -/
def halfPow : Nat → Nat → Nat
  | 0, _ => 1
  | f + 1, n => let h := halfPow f n; if 2 * h < n then 2 * h else h

/-- The Merkle tree hash of R220; the first argument bounds the depth. -/
def mth : Nat → List (List Byte) → List Byte
  | _, [] => sha384 []
  | _, [d] => sha384 ([0] ++ d)
  | 0, _ => sha384 []
  | f + 1, l =>
    let h := halfPow 64 l.length
    sha384 ([1] ++ mth f (l.take h) ++ mth f (l.drop h))

/-- The leaves of a stripe (R220, R221). -/
def CusStripe.leaves (c : CusStripe) : List (List Byte) :=
  (List.range (c.k + c.m)).map (fun i => leBytes 8 c.id ++ leBytes 1 i ++ padTo 48 (c.hashes.getD i []))

/-- The stripe list of an epoch (*Stripe-list entry (16 bytes)*). -/
def stripeList : Nat → List CusStripe → List Byte
  | _, [] => []
  | n, c :: t =>
    leBytes 8 c.id ++ leBytes 1 c.k ++ leBytes 1 c.m ++ leBytes 1 (b2n c.repair) ++ zeros 1 ++ leBytes 4 n ++
    stripeList (n + c.k + c.m) t

/-- What `Config.derive` derives: the two alias public keys of a start, in DER. -/
def deriveAliasKeys : Nat := 3

/-- The two alias public keys of the running start. -/
def State.aliasKeys (s : State) : List Byte := Config.derive deriveAliasKeys s.tub.aliasTag

/-- Signs with an alias key: 0 RSA, 384 bytes; 1 SLH-DSA, 16_224 bytes (R223). -/
def State.aliasSign (s : State) (which : Nat) (m : List Byte) : List Byte :=
  padTo (if which = 0 then 384 else 16224) (Config.sign which s.tub.aliasTag m)

/-- The manifest header of the open epoch (*Manifest header (256 bytes)*). -/
def State.manifestHeader (s : State) (root : List Byte) : List Byte :=
  let l := s.eng.cus
  let leaves := l.foldl (fun a c => a + c.k + c.m) 0
  leBytes 4 0x4D435657 ++ leBytes 2 1 ++ zeros 2 ++ leBytes 8 (s.get .ENG_CUS_EPOCH_OPEN) ++ leBytes 8 s.now ++
  leBytes 8 s.epoch ++ leBytes 8 leaves ++ leBytes 4 l.length ++ leBytes 2 (s.get .CLM_PAIR_PAIR_ID) ++
  leBytes 1 s.node ++ leBytes 1 (s.get .CLM_PAIR_MEMBER) ++ root ++ s.eng.cusPrev ++ sha384 (stripeList 0 l) ++
  sha384 s.aliasKeys ++ leBytes 8 s.eng.cusLastObj ++ zeros 8

/-- The open epoch is closed with its header and root (R222). -/
def closeEpoch (header root : List Byte) (s : State) : State :=
  let c : CusEpoch := { number := s.get .ENG_CUS_EPOCH_OPEN, header := header, stripes := s.eng.cus, root := root }
  let s := s.withEng (fun e => { e with cus := [], cusOpened := s.now, cusClosed := some c })
  let s := s.set .ENG_CUS_EPOCH_OPEN (c.number + 1)
  (s.set .ENG_CUS_STATUS_SIGNING 1).set .ENG_CUS_STATUS_CLOSED_WAIT 1

/-- The closed epoch's manifest is written: its list entries are freed and its header is the previous one (R225, R228). -/
def endEpoch (c : CusEpoch) (s : State) : State :=
  let s := s.withEng (fun e => { e with cusClosed := none, cusPrev := sha384 c.header })
  countCustody (s.set .ENG_CUS_STATUS_CLOSED_WAIT 0)

/-- The open epoch's time or stripe limit has come: without stripes only its timer restarts (R222). DESIGN CHOICE, log entry 75. -/
def closeDue (s : State) : State :=
  if s.eng.cus.isEmpty then s.withEng (fun e => { e with cusOpened := s.now })
  else
    let leaves := s.eng.cus.flatMap CusStripe.leaves
    let root := mth leaves.length leaves
    let header := s.manifestHeader root
    closeEpoch header root (mirror pairCustody (leBytes 1 1 ++ header ++ root) s).2

/-- EPOCH_CLOSE (R222): on time or stripe limit, once no earlier epoch waits. -/
def doEpochClose (s : State) : State :=
  let sec := clamp 1 3600 (s.get .ENG_CUS_CTL_EPOCH_SEC)
  let full := decide (clamp 1 2097152 (s.get .ENG_CUS_STRIPES_LIMIT) ≤ s.eng.cus.length)
  if s.eng.cusClosed.isSome then s
  else closeDue (if full then s else timeTo (s.eng.cusOpened + sec * 1000000000) s)

/-- The valid manifest regions (R228). DEDUCED, log entry 89. -/
def State.regions (s : State) : List Nat := [0, 1, 2, 3].filter (fun r => s.onB .ENG_CUS_MCFG_VALID r)

/-- A manifest (R227), zero-filled to whole blocks of `b` bytes. DESIGN CHOICE, log entry 53. -/
def CusEpoch.bytes (c : CusEpoch) (b : Nat) : List Byte :=
  let d := c.header ++ stripeList 0 c.stripes ++ c.sigs
  padTo (roundUp d.length b) d

/-- Writes a manifest to region `r` through the claim gate (R228): one that would pass the region's end begins at its
start. -/
def writeRegion (c : CusEpoch) (r : Nat) (s : State) : State :=
  let d := s.getB .ENG_CUS_MCFG_DEVICE r
  let b := s.blockSize d
  let data := c.bytes b
  let n := data.length / b
  let at_ := kvGet s.eng.mpos r 0
  let pos := if s.getB .ENG_CUS_MCFG_BLOCKS r < at_ + n then 0 else at_
  if !s.gateOpen ∨ s.devState d = devFailed then s.bump .MPT_GATE_REFUSED_COUNT
  else if !s.reachable d then s
  else
    let s := s.withEng (fun e => { e with mpos := kvSet e.mpos r (pos + n) })
    sendOwn { dev := d, use := .manifest r, mutating := true, dataIn := false, tries := 0
              cdb := s.writeCdb d (s.getB .ENG_CUS_MSTART_START r + pos) data.length, data := data } s

/-- Writes the closed epoch's manifest to every valid region. DESIGN CHOICE, log entry 53. -/
def writeManifest (s : State) : State :=
  match s.eng.cusClosed with
  | none => s
  | some c => s.regions.foldl (fun s r => writeRegion c r s) s

/-- A closed epoch's header as this module signs it: with its own member index and the hash of its alias keys of this start (R225,
R226). DESIGN CHOICE, log entry 53. -/
def State.signedHeader (s : State) (h : List Byte) : List Byte :=
  h.take 47 ++ leBytes 1 (s.get .CLM_PAIR_MEMBER) ++ (h.drop 48).take 144 ++ sha384 s.aliasKeys ++ h.drop 240

/-- EPOCH_SIGNED (R223). -/
def doEpochSigned (s : State) : State :=
  match s.eng.cusClosed with
  | none => s
  | some c =>
    if c.signed ∨ !s.on .TMB_STATUS_RUNNING ∨ s.on .TMB_STATUS_RESTARTING then s
    else
      let h := s.signedHeader c.header
      let sigs := s.aliasSign 0 h ++ s.aliasSign 1 h
      let s := s.withEng (fun e => { e with cusClosed := some { c with header := h, signed := true, sigs := sigs } })
      writeManifest (s.set .ENG_CUS_STATUS_SIGNING 0)

/-- A command that writes a manifest to region `r` or makes it durable there. -/
def CmdFor.forRegion (r : Nat) (u : CmdFor) : Bool := u == .manifest r || u == .manifestSync r

/-- Whether region `r` still takes the manifest: a command for it waits or is on its way. -/
def State.regionBusy (s : State) (r : Nat) : Bool :=
  s.mpt.waiting.any (fun w => w.use.forRegion r) || s.mpt.cmds.any (fun c => c.2.use.forRegion r)

/-- Region `r` has the manifest durably. -/
def regionDone (r : Nat) (s : State) : State :=
  s.withEng (fun e => { e with cusClosed := e.cusClosed.map (fun c => { c with results := kvSet c.results r true }) })

/-- Once no region is at work and one or more has the manifest, the notice is due and the epoch's list entries are freed (R228). -/
def manifestLook (s : State) : State :=
  match s.eng.cusClosed with
  | none => s
  | some c =>
    if c.results.isEmpty ∨ [0, 1, 2, 3].any s.regionBusy then s
    else
      let n := leBytes 8 c.number ++ leBytes 4 c.stripes.length ++ leBytes 4 ((kvKeys c.results).foldl setBit 0) ++ c.root
      endEpoch c ((mirror pairCustody (leBytes 1 2 ++ c.header) s).2.withEng (fun e => { e with notices := e.notices ++ [n] }))

/-- The write of a manifest to a region ends (R210, R228, R262): without FUA it is durable only once a SYNCHRONIZE CACHE or FLUSH CACHE
EXT sent after it succeeds. DESIGN CHOICE, log entry 53. -/
def manifestWritten (d r : Nat) (fua : Bool) (st : MediaStatus) (s : State) : State :=
  if !s.gateOpen then s.bump .MPT_LATE_IGNORED_COUNT
  else match st with
    | .good _ =>
      if fua then regionDone r s
      else if !s.reachable d then s
      else sendOwn { dev := d, use := .manifestSync r, mutating := false, dataIn := false, tries := 0
                     cdb := if s.devType d = tySata then ataCmd 0xEA 0 0 0 else cdb16 0x91 0 0 0, data := [] } s
    | _ => s

/-- The command that makes a region's manifest durable ends (R210, R228). -/
def manifestSynced (r : Nat) (st : MediaStatus) (s : State) : State :=
  match st with
  | .good _ => regionDone r s
  | _ => s

/-- MANIFEST_RETRY (R228): a manifest that no region accepted is written again. -/
def doManifestRetry (s : State) : State :=
  match s.eng.cusClosed with
  | none => s
  | some c => if c.signed && [0, 1, 2, 3].all (fun r => !s.regionBusy r) then writeManifest s else s

/-- MANIFEST_NOTICE_POST (R228). -/
def doManifestNoticePost (s : State) : State :=
  match s.eng.notices with
  | [] => s
  | n :: t =>
    let size := 2 ^ (min 8 (s.get .ENG_CUS_MQ_CTL_LOG2) + 4)
    let p := s.get .ENG_CUS_MQ_CTL_TAIL
    let next := (p + 1) % size
    if next = s.get .ENG_CUS_MQ_CTL_HEAD % size ∨ s.inD3 0 then s
    else
      let s := s.withEng (fun e => { e with notices := t })
      let s := hostWrite 0 (s.addrB .ENG_CUS_MQ_BASE_BASE 0 + p * 64) false n s
      raiseVec 0 (s.get .ENG_CUS_MQ_CTL_VECTOR) (s.set .ENG_CUS_MQ_CTL_TAIL next)

end Sys2Proof.Machine
end

