-- ==== Sys2Proof/Machine/Domains.lean ====
section
/-!
DEFINITION. Dedup domains and the commands of the dedup index (R158, R159, R163, R165, R170 to R175).
-/

namespace Sys2Proof.Machine

/-- The domain ENG_DOM_SEL selects. -/
def State.domSel (s : State) : Nat := s.get .ENG_DOM_SEL_DOMAIN

/-- Whether function `fn` has a live own domain other than `d` (R158). -/
def State.ownsOther (s : State) (fn d : Nat) : Bool := s.eng.doms.any (fun q => q.1 != d && q.2.own && q.2.owner == fn)

/-- Whether Tuber works on a domain command; ENG_DOM_CMD then reads BUSY. -/
def domainBusy (cmd : Bool × Nat × Dom) (s : State) : State :=
  (s.withEng (fun e => { e with domCmd := some cmd })).set .ENG_DOM_CMD_BUSY 1

/-- What a CREATE of domain `d` is to make, as its registers stand; the key is drawn when Tuber serves it. -/
def State.domNew (s : State) (d : Nat) : Dom :=
  { owner := s.getB .ENG_DOM_CTL_OWNER d, own := s.onB .ENG_DOM_CTL_OWN d, pfGrant := s.onB .ENG_DOM_CTL_PF_GRANT d
    vfGrant := s.getB .ENG_DOM_GRANT_VF d, key := [] }

/-- DOM_CREATE (R159). DESIGN CHOICE, log entry 51. -/
def doDomCreate (o : Origin) (w : Nat) (s : State) : State :=
  let d := s.domSel
  let new := s.domNew d
  busyCommand o .ENG_DOM_CMD .ENG_DOM_CMD_BUSY w .ENG_DOM_CMD_RESULT 5
    [(d == 0, 6), (kvHas s.eng.doms d, 1), (new.own && s.ownsOther new.owner d, 3)]
    (domainBusy (true, d, new)) s

/-- DOM_DESTROY (R159). -/
def doDomDestroy (o : Origin) (w : Nat) (s : State) : State :=
  let d := s.domSel
  busyCommand o .ENG_DOM_CMD .ENG_DOM_CMD_BUSY w .ENG_DOM_CMD_RESULT 5
    [(d == 0, 6), (!kvHas s.eng.doms d, 2)] (domainBusy (false, d, s.domNew d)) s

/-- DOM_SET (R158, R159): OWN, PF_GRANT and ENG_DOM_GRANT are applied to a live domain. DESIGN CHOICE, log entry 51. -/
def doDomSet (o : Origin) (w : Nat) (s : State) : State :=
  let d := s.domSel
  let new := s.domNew d
  let owner := match kvGet? s.eng.doms d with
    | some x => x.owner
    | none => new.owner
  busyCommand o .ENG_DOM_CMD .ENG_DOM_CMD_BUSY w .ENG_DOM_CMD_RESULT 5
    [(d == 0, 6), (!kvHas s.eng.doms d, 2), (new.own && s.ownsOther owner d, 3)]
    (fun s => s.withEng (fun e =>
      { e with doms := kvMod e.doms d (fun x => { x with own := new.own, pfGrant := new.pfGrant, vfGrant := new.vfGrant }) })) s

/-- Whether a program uses a domain (R159): its PROBE setting names it and it probes, or its open object has data ingested or
chunks fingerprinted under it, or pending entries in it. -/
def State.usesDom (s : State) (k : Nat) (p : Prog) (d : Nat) : Bool :=
  let names := fun n => s.domFor (s.subAt k).fn n == some d
  (p.stages.probeRun && names p.stages.probeDom) ||
  p.pieces.any (fun q => q.sel.testBit 1 && (names q.stages.probeDom || q.stages.probeDom == d)) ||
  p.chunks.any (fun c => c.dom == d) || s.eng.pend.any (fun e => e.sch == k && e.dom == d)

/-- A domain ends (R159): its key is zeroised, the programs that use it are marked, their pending entries discarded. -/
def endDomain (d : Nat) (s : State) : State :=
  let users := (s.css.subs.filter (fun q => match q.2.prog with
    | some p => s.usesDom q.1 p d
    | none => false)).map (·.1)
  let s := users.foldl (fun s k => modProg k (fun p => { p with deadDoms := p.deadDoms ++ [d] }) s) s
  let s := setPend (fun l => l.filter (fun q => q.dom != d && !users.contains q.sch)) (s.withEng (fun e => { e with doms := kvDel e.doms d, probeOut := e.probeOut.filter (· != d) }))
  s.setB .ENG_DOM_CTL_LIVE d 0

/-- DOMAIN_CMD_COMPLETE (R159): RESULT 4 where Tuber refuses, as it does every key load while unlocked (R555), or is not
available. -/
def doDomainCmdComplete (ok : Bool) (s : State) : State :=
  match s.eng.domCmd with
  | none => s
  | some (create, d, new) =>
    let s := (s.withEng (fun e => { e with domCmd := none })).set .ENG_DOM_CMD_BUSY 0
    if !ok || (create && s.get .DBG_STATUS_GRANTED != 0) then s.set .ENG_DOM_CMD_RESULT 4
    else if create then
      let (n, s) := s.draw
      let new := { new with key := Config.randomBytes n 32 }
      (s.withEng (fun e => { e with doms := kvSet e.doms d new, probeOut := e.probeOut.filter (· != d) })).setB .ENG_DOM_CTL_LIVE d 1
    else endDomain d s

/-- Whether the index is off (RESULT 1 of ENG_IDX_CMD). -/
def State.idxOff (s : State) : Bool := !s.on .ENG_IDX_CTL_ENABLE

/-- IDX_CLEAR (R174): the table reads CLEARING until it is zeroed. DESIGN CHOICE, log entry 52. -/
def doIdxClear (o : Origin) (w : Nat) (s : State) : State :=
  busyCommand o .ENG_IDX_CMD .ENG_IDX_CMD_BUSY w .ENG_IDX_CMD_RESULT 5 [(s.idxOff, 1)]
    (fun s => ((s.withEng (fun e => { e with idxCmd := some (0, 0) })).set .ENG_IDX_CMD_BUSY 1).set .ENG_IDX_CTL_STATE 2) s

/-- IDX_CLEAR_COMPLETE (R174). -/
def doIdxClearComplete (s : State) : State :=
  if s.on .ENG_IDX_CMD_BUSY && s.get .ENG_IDX_CTL_STATE == 2 then
    let s := clearDram (s.addrB .ENG_IDX_BASE_BASE 0) (s.get .ENG_IDX_BUCKETS_UNITS * 2 ^ 27) s
    ((s.withEng (fun e => { e with idxCmd := none })).set .ENG_IDX_CMD_BUSY 0).set .ENG_IDX_CTL_STATE 1
  else s

/-- The programs on order engines that have no final status (R170): subchannel and token. -/
def State.engineTokens (s : State) : List (Nat × Nat) := s.onEngines.filterMap (fun q => q.2.prog.map (fun p => (q.1, p.token)))

/-- IDX_PURGE (R170, R171): the range is registered at once; with an EMPTY index there is nothing to scan. DESIGN CHOICE, log entry 52. -/
def doIdxPurge (o : Origin) (w : Nat) (s : State) : State :=
  let lo := s.get .ENG_IDX_ARG0_ARG
  let hi := s.get .ENG_IDX_ARG1_ARG
  let slot := kvFree s.eng.purges 16
  busyCommand o .ENG_IDX_CMD .ENG_IDX_CMD_BUSY w .ENG_IDX_CMD_RESULT 5
    [(s.idxOff, 1), (slot.isNone, 2), (decide (hi < lo), 4)]
    (fun s => match slot with
      | none => s
      | some n =>
        let s := s.withEng (fun e =>
          { e with purges := kvSet e.purges n { lo := lo, hi := hi, scanned := false, waits := s.engineTokens } })
        (s.setBitB .ENG_IDX_PURGE_ACTIVE 0 n true).set .ENG_IDX_CMD_SLOT n) s

/-- The ways of a bucket that hold a locator inside a range, emptied. -/
def scrubBucket (lo hi : Nat) (d : List Byte) : List Byte :=
  (List.range 4).foldl (fun d w =>
    if wayLoc d w ≠ 0 ∧ lo ≤ wayLoc d w ∧ wayLoc d w ≤ hi then overlay d (32 * w) (zeros 32) else d) d

/-- The lines of the index table that are not all zero; a purge scan changes no other. -/
def State.idxLines (s : State) : List Nat :=
  let a := s.addrB .ENG_IDX_BASE_BASE 0
  let n := s.get .ENG_IDX_BUCKETS_UNITS * 2 ^ 27
  let mine := fun x => decide (a ≤ x) && decide (x < a + n)
  let l := ((s.mem.dram.filter (fun c => mine c.1)).map (fun c => lineOf c.1)).dedup
  l ++ (s.mem.poison.filter (fun q => mine (q * 128) && !l.contains q))

/-- PURGE_SCAN_COMPLETE (R167, R170): every entry of the range is emptied. -/
def doPurgeScanComplete (n : Nat) (s : State) : State :=
  match kvGet? s.eng.purges n with
  | none => s
  | some q =>
    if q.scanned then s
    else
      let s := if s.get .ENG_IDX_CTL_STATE != 1 then s
        else s.idxLines.foldl (fun s l =>
          let (d, s) := readBucket (l * 128) s
          let d' := scrubBucket q.lo q.hi d
          if d' = d then s else (devWrite (l * 128) d' s).2) s
      purgeDone (s.withEng (fun e => { e with purges := kvSet e.purges n { q with scanned := true } }))

/-- PURGE_SLOT_FREE (R171, R172): a set DONE bit frees its slot, a clear one is left alone. -/
def doPurgeSlotFree (o : Origin) (mask : Nat) (s : State) : State :=
  reach o .ENG_IDX_PURGE (fun s =>
    ((List.range 16).filter (fun n => mask.testBit n && s.bitB .ENG_IDX_PURGE_DONE 0 n)).foldl (fun s n =>
      (((s.withEng (fun e => { e with purges := kvDel e.purges n })).setBitB .ENG_IDX_PURGE_DONE 0 n false)
        ).setBitB .ENG_IDX_PURGE_ACTIVE 0 n false) s) s

/-- IDX_LOAD (R175). DESIGN CHOICE, log entry 52. -/
def doIdxLoad (o : Origin) (w : Nat) (s : State) : State :=
  let a := s.get .ENG_IDX_ARG0_ARG
  let n := s.get .ENG_IDX_ARG1_ARG
  busyCommand o .ENG_IDX_CMD .ENG_IDX_CMD_BUSY w .ENG_IDX_CMD_RESULT 5
    [(s.idxOff, 1), (decide (dramSize < a + 40 * n), 3), (a % 8 != 0, 6)]
    (fun s => (s.withEng (fun e => { e with idxCmd := some (a, n) })).set .ENG_IDX_CMD_BUSY 1) s

/-- One record of LOAD (R175): locator 0, an absent domain, a purge range and a poisoned record are skipped. -/
def loadRecord (a : Nat) (s : State) : State :=
  match devRead a 40 s with
  | (.ok d, s) =>
    let loc := fieldAt d 24 8
    if loc = 0 ∨ !kvHas s.eng.doms (fieldAt d 32 2) ∨ s.purged loc ∨ !s.idxValid then s
    else publish (bytesAt d 0 24) 0 loc true s
  | (_, s) => s

/-- The records of a list from address `a` on. DESIGN CHOICE, log entry 52. -/
def loadRecords : Nat → Nat → State → State
  | 0, _, s => s
  | n + 1, a, s => loadRecords n (a + 40) (loadRecord a s)

/-- IDX_LOAD_COMPLETE (R175). -/
def doIdxLoadComplete (s : State) : State :=
  match s.eng.idxCmd with
  | none => s
  | some (a, n) =>
    if s.get .ENG_IDX_CTL_STATE = 2 then s
    else loadRecords n a ((s.withEng (fun e => { e with idxCmd := none })).set .ENG_IDX_CMD_BUSY 0)

end Sys2Proof.Machine
end

