-- ==== Sys2Proof/Machine/PairBase.lean ====
section
/-!
DEFINITION. What other blocks tell the claim block: claims seen from the peer, and the interrupt of its events (R517, R518).
-/

namespace Sys2Proof.Machine

/-- The sources of CLM_PEER_CLAIM. -/
def seenHeartbeat : Nat := 1
def seenRing : Nat := 2
def seenHolder : Nat := 3
def seenNack : Nat := 4

/-- Sets a bit of CLM_EVENT and interrupts the PF (*CLM_CTL*). -/
def pairEvent (f : Fld) (s : State) : State := raiseVec 0 (s.get .CLM_CTL_VECTOR) (s.set f 1)

/-- Whether a claim of the peer stands above the module's own. -/
def State.outclaimed (s : State) : Bool := decide (s.get .CLM_CLAIM_CLAIM < s.get .CLM_PEER_CLAIM_CLAIM)

/-- A claim seen from the peer (R518): the highest is kept. An unpaired module that it outclaims raises source 43; a member
in FROND or MAINTENANCE is outclaimed from this moment, its role says so, and `settle` restarts it. -/
def seeClaim (source claim : Nat) (s : State) : State :=
  if claim ≤ s.get .CLM_PEER_CLAIM_CLAIM then s
  else
    let was := s.outclaimed
    let s := (s.set .CLM_PEER_CLAIM_CLAIM claim).set .CLM_PEER_CLAIM_SOURCE source
    if was ∨ !s.outclaimed then s
    else if !s.on .CLM_PAIR_PAIRED then raiseUe 43 1 0 0 0 0 s
    else if s.mode = Mode.frond ∨ s.mode = Mode.maintenance then s.set .CLM_STATUS_ROLE 3
    else s

/-- The claim a module that becomes active takes (R517). -/
def State.nextClaim (s : State) : Nat :=
  let c := max (s.get .CLM_CLAIM_CLAIM) (s.get .CLM_PEER_CLAIM_CLAIM)
  putBit ((c + 2) % 2 ^ 32) 0 (s.on .CLM_PAIR_MEMBER)

/-- Takes a claim under R517: kept in MRAM and entered in the change log. -/
def takeClaim (s : State) : State :=
  let c := s.nextClaim
  (logHw 5 (s.get .CLM_PAIR_PAIR_ID) (s.get .CLM_CLAIM_CLAIM) c s).set .CLM_CLAIM_CLAIM c

end Sys2Proof.Machine
end

