-- ==== Sys2Proof/Machine/ShardWrites.lean ====
section
/-!
DEFINITION. Shard writes: sending them, their ends, and the commands that make them durable (R27, R45, R202, R210, R211,
R233, R240 to R244, R250 to R256, R258, R261, R262).
-/

namespace Sys2Proof.Machine

/-- Changes a stripe. -/
def modStripe (id : Nat) (f : Stripe → Stripe) (s : State) : State :=
  s.withCss (fun c => { c with stripes := kvMod c.stripes id f })

/-- What follows the end of a shard write: a REPAIR entry when the stripe is recorded and the shard is lost (R211), the
buffer, and the COMMIT or VERIFY that waits. -/
def afterShard (id i : Nat) (s : State) : State :=
  match kvGet? s.css.stripes id with
  | none => s
  | some x =>
    let s := if x.recorded && x.lost.contains i then dlogRepair id (2 ^ i) s else s
    let s := freeStripe id s
    if (s.progAt x.sch).map (·.token) = some x.token then restoreStep x.sch (commitStep x.sch s) else s

/-- What a shard that is not durable and will not be leaves behind: its stripe counts it as ended. -/
def shardLost (id i : Nat) (s : State) : State :=
  afterShard id i (modStripe id (fun x =>
    { x with issued := if x.issued.contains i then x.issued else x.issued ++ [i], ended := x.ended ++ [i]
             unsynced := x.unsynced.filter (· != i) }) s)

/-- A shard is durable (R210). -/
def shardDurable (id i : Nat) (s : State) : State :=
  afterShard id i (modStripe id (fun x =>
    { x with ended := if x.ended.contains i then x.ended else x.ended ++ [i], durable := x.durable ++ [i]
             unsynced := x.unsynced.filter (· != i) }) s)

/-- A shard is written and waits for a SYNCHRONIZE CACHE, FLUSH CACHE EXT or WRITE FILEMARKS (R240, R251). -/
def shardWritten (id i : Nat) (s : State) : State :=
  afterShard id i (modStripe id (fun x => { x with ended := x.ended ++ [i], unsynced := x.unsynced ++ [i] }) s)

/-- A shard is not durable and will not be: shard-write-failed event (R244). -/
def shardFailed (id i d lane sense lba : Nat) (s : State) : State := shardLost id i (mediaEvent 3 d lane sense lba s)

/-- The shards not yet durable on a device: stripe and shard. -/
def State.unsyncedOn (s : State) (d : Nat) : List (Nat × Nat) :=
  s.css.stripes.flatMap (fun q => (q.2.unsynced.filter (fun i => (q.2.placeOf i).dev == d)).map (fun i => (q.1, i)))

/-- A write or filemark command failed on a tape (R251): every tape shard not yet durable there is lost, later placements
of those programs are not written, and the position is not known. -/
def tapeFail (d token : Nat) (s : State) : State :=
  let l := s.unsyncedOn d
  let tokens := l.filterMap (fun q => (kvGet? s.css.stripes q.1).map (·.token))
  let s := modDev d (fun v => { v with tapeFailed := v.tapeFailed ++ (token :: tokens), tapePos := none }) s
  l.foldl (fun s q => shardFailed q.1 q.2 d (s.laneFor d 0) 0 (kvGet ((kvGet? s.css.stripes q.1).map (·.lbas) |>.getD []) q.2 0) s) s

/-- A try of a shard write failed for good on a device. -/
def writeFailed (x : Stripe) (i d lane sense lba : Nat) (s : State) : State :=
  let kind := (x.placeOf i).kind
  let s := if kind = 2 then modDev d (fun v =>
      { v with binds := v.binds.map (fun z => if z.sch == x.sch && z.token == x.token then { z with failed := true } else z) }) s
    else s
  let s := shardFailed x.id i d lane sense lba s
  if kind = 3 then tapeFail d x.token s else s

/-- Sends the write of one shard, try `tries` (R27, R240): its bytes come from the stripe buffer; a poisoned one, a closed
gate, a FAILED device or one no path reaches leaves it not durable. -/
def sendShard (x : Stripe) (i lba tries : Nat) (s : State) : State :=
  let p := x.placeOf i
  let d := p.dev
  let u := 2 ^ x.set.shift
  let lane := s.laneFor d tries
  let fail := fun (s : State) => writeFailed x i d lane 0 lba s
  if s.devState d = devFailed then fail s
  else if !s.gateOpen then fail (s.bump .MPT_GATE_REFUSED_COUNT)
  else if !s.reachable d then
    fail (if p.kind = 1 then s.bumpN .MPT_RETRIES_COUNT (s.get .MPT_RETRY_COUNT - tries) else s)
  else
    match devRead (s.shardAddr x.buf x.set.shift i) u s with
    | (.ok data, s) =>
      let s := sendCmd d (.shardWrite x.id i) true false tries (s.cmdTmo d) (if p.kind = 2 then 1 else 0) (s.writeCdb d lba u) data s
      let s := if s.on .ENG_EPB_CTL_OPEN then s.bumpN .ENG_EPB_BYTES_MEDIA_BYTES u else s
      modStripe x.id (fun x => { x with lbas := kvSet x.lbas i lba }) s
    | (_, s) => fail s

/-- Marks a shard write as issued. DESIGN CHOICE, log entry 55. -/
def markIssued (id i : Nat) (s : State) : State := modStripe id (fun x => { x with issued := x.issued ++ [i] }) s

/-- Whether an earlier stripe of the program still has a shard for device `d` that is not issued: appended shards go in
stripe order (R82, R255). DESIGN CHOICE, log entry 54. -/
def State.earlierWaits (s : State) (x : Stripe) (d : Nat) : Bool :=
  s.css.stripes.any (fun q => q.1 < x.id && q.2.sch == x.sch && q.2.token == x.token && !q.2.discarded &&
    (List.range (q.2.set.k + q.2.set.m)).any (fun i => (q.2.placeOf i).dev == d && !q.2.issued.contains i))

/-- Shard writes of a program outstanding on a device. -/
def State.zoneWrites (s : State) (x : Stripe) (d : Nat) : Nat :=
  ((s.cmdsOn d).filter (fun c => match c.2.use with
    | .shardWrite id _ => (match kvGet? s.css.stripes id with
      | some y => y.sch == x.sch && y.token == x.token
      | none => false)
    | _ => false)).length

/-- A shard for a conventional place (R202, R241): one past the last block is not written. -/
def issueDisk (x : Stripe) (i : Nat) (s : State) : State :=
  let p := x.placeOf i
  let n := 2 ^ x.set.shift / s.blockSize p.dev
  let lba := p.start + x.cursor * n
  let past := (s.devAt p.dev).pastEnd
  if past.contains x.token ∨ s.getB .MPT_DEV_CAP_BLOCKS p.dev < lba + n then
    let s := modDev p.dev (fun v => { v with pastEnd := if past.contains x.token then past else x.token :: past }) s
    shardFailed x.id i p.dev (s.laneFor p.dev 0) 0 lba (mediaEvent 8 p.dev (s.laneFor p.dev 0) 0 lba (s.bump .MPT_LBA_FULL_COUNT))
  else sendShard x i lba 0 (markIssued x.id i s)

/-- Bits 7 to 0 of byte `n` of a list, as a number. -/
def byteOf (l : List Byte) (n : Nat) : Nat := fieldAt l n 1

/-- The zone descriptor at byte `off` of what REPORT ZONES returns. What has been written of a zone ends at its write pointer; of one
that has none at its end when it is full, conventional or read-only, at its start when it is empty or offline. PRESUMED, log entry 29. -/
def zoneAt (d : List Byte) (off : Nat) : Zone :=
  let field := fun (n : Nat) => beNat (bytesAt d (off + n) 8)
  let cond := byteOf d (off + 1) / 16
  let start := field 16
  { start := start, capacity := field 8, pointer := field 24
    top := if [2, 3, 4].contains cond then field 24 else if cond = 1 ∨ cond = 15 then start else start + field 8
    sequential := byteOf d off % 16 == 2, writable := [1, 2, 3, 4].contains cond }

/-- The zones REPORT ZONES returns. PRESUMED, log entry 29. -/
def zonesOf (d : List Byte) : List Zone := (List.range (beNat (bytesAt d 0 4) / 64)).map (fun i => zoneAt d (64 + 64 * i))

/-- CDB of READ POSITION, long form. PRESUMED, log entry 29. -/
def positionCdb : List Byte := leBytes 1 0x34 ++ leBytes 1 6 ++ zeros 8

/-- Replaces a program's binding on a device. -/
def setBind (d : Nat) (z : ZoneBind) (s : State) : State :=
  modDev d (fun v => { v with binds := v.binds.map (fun y => if y.sch == z.sch then z else y) }) s

/-- The binding a program's shards on a device go to. -/
def State.bindOf (s : State) (x : Stripe) (d : Nat) : Option ZoneBind :=
  (s.devAt d).binds.find? (fun z => z.sch == x.sch && z.token == x.token)

/-- A shard for a bound zone that has been read (R82, R254 to R256): at the port's copy of the write pointer. -/
def placeZone (x : Stripe) (i : Nat) (z : ZoneBind) (s : State) : State :=
  let d := (x.placeOf i).dev
  let n := 2 ^ x.set.shift / s.blockSize d
  if z.failed then shardFailed x.id i d (s.laneFor d 0) 0 z.start s
  else if z.limit < z.pointer + n then shardFailed x.id i d (s.laneFor d 0) 0 z.pointer (s.bump .MPT_ZONE_FULL_COUNT)
  else sendShard x i z.pointer 0 (markIssued x.id i (setBind d { z with pointer := z.pointer + n } s))

/-- A zone that has been read, or could not be (R254): one that does not take shards fails its binding, and an event says so.
DESIGN CHOICE, log entry 55. -/
def zoneRead (x : Stripe) (i : Nat) (z : ZoneBind) (found : Option Zone) (s : State) : State :=
  let d := (x.placeOf i).dev
  match found.filter (fun q => q.start == z.start && q.sequential && q.writable) with
  | some q =>
    let z := { z with read := true, pointer := q.pointer, limit := q.start + q.capacity }
    placeZone x i z (setBind d z s)
  | none =>
    let z := { z with read := true, failed := true }
    placeZone x i z (mediaEvent 6 d (s.laneFor d 0) 0 z.start (setBind d z s))

/-- Sends the command that must be answered before a shard is placed. -/
def sendProbe (x : Stripe) (i : Nat) (cdb : List Byte) (s : State) : State :=
  let d := (x.placeOf i).dev
  sendCmd d (.probe x.id i) false true 0 (s.cmdTmo d) 0 cdb [] s

/-- A shard for a bound zone (R254, R255): the zone is read before the first. -/
def issueZone (x : Stripe) (i : Nat) (s : State) : State :=
  let d := (x.placeOf i).dev
  match s.bindOf x d with
  | none => shardFailed x.id i d (s.laneFor d 0) 0 0 s
  | some z =>
    if z.read then placeZone x i z s
    else if !s.reachable d then zoneRead x i z none s
    else sendProbe x i (cdb16 0x95 0 z.start 4096) s

/-- A shard for a tape whose position has been read (R250 to R252): the next logical object; a position the module does not know is
a free value. -/
def placeTape (x : Stripe) (i : Nat) (s : State) : State :=
  let d := (x.placeOf i).dev
  let v := s.devAt d
  if s.onB .MPT_DEV_INFO_EW d ∨ v.tapeFailed.contains x.token then shardFailed x.id i d (s.laneFor d 0) 0 0 s
  else
    let (pos, s) : Nat × State := match v.tapePos with
      | some n => (n, s)
      | none => let (k, s) := s.draw; (Config.freeNat k % 2 ^ 64, s)
    sendShard x i pos 0 (markIssued x.id i (modDev d (fun v => { v with tapePos := some (pos + 1) }) s))

/-- A shard for a tape (R250): the position is read before the first a program places there. -/
def issueTape (x : Stripe) (i : Nat) (s : State) : State :=
  let d := (x.placeOf i).dev
  let v := s.devAt d
  if s.onB .MPT_DEV_INFO_EW d ∨ v.tapeFailed.contains x.token ∨ v.tapeRead.contains x.token ∨ !s.reachable d then placeTape x i s
  else sendProbe x i positionCdb s

/-- The command sent before a shard is placed ends (R250, R254): the shard is placed by its answer. A position that cannot be read
leaves this shard not durable (DESIGN CHOICE, log entry 55). -/
def probeDone (c : MediaCmd) (id i : Nat) (st : MediaStatus) (data : List Byte) (s : State) : State :=
  match kvGet? s.css.stripes id with
  | none => s
  | some x =>
    let good := match st with
      | .good _ => true
      | _ => false
    if x.discarded ∨ x.issued.contains i then s
    else if (x.placeOf i).kind = 2 then
      match s.bindOf x c.dev with
      | some z => zoneRead x i z (if good then (zonesOf data).head? else none) s
      | none => issueZone x i s
    else if good then
      placeTape x i (modDev c.dev (fun v =>
        { v with tapeRead := x.token :: v.tapeRead, tapePos := some (beNat (bytesAt data 8 8)) }) s)
    else shardFailed id i c.dev c.lane 0 0 s

/-- Whether the answer for a shard is on its way. -/
def State.probing (s : State) (id i : Nat) : Bool := s.mpt.cmds.any (fun c => c.2.use == .probe id i)

/-- Issues the write of a shard once its stripe is released and its device takes one more command (R202, R240 to R242, R250, R255).
-/
def issueShard (id i : Nat) (s : State) : State :=
  match kvGet? s.css.stripes id with
  | none => s
  | some x =>
    let p := x.placeOf i
    let ordered := p.kind == 2 || p.kind == 3
    if !x.closed ∨ x.discarded ∨ x.set.k + x.set.m ≤ i ∨ x.issued.contains i ∨ s.probing id i ∨
        (s.reachable p.dev && !s.devRoom p.dev) ∨ (ordered && s.earlierWaits x p.dev) ∨
        (p.kind == 2 && decide (4 ≤ s.zoneWrites x p.dev)) then s
    else if p.kind = 1 then issueDisk x i s
    else if p.kind = 2 then issueZone x i s
    else issueTape x i s

/-- Marks a tape that reported early warning (R252). -/
def earlyWarning (d lane lba : Nat) (s : State) : State := mediaEvent 5 d lane 0 lba (s.setB .MPT_DEV_INFO_EW d 1)

/-- A path failed on transport: the next command goes the other way (R237). -/
def movePath (d : Nat) (st : MediaStatus) (s : State) : State :=
  if st = .transport then modDev d (fun v => { v with path := v.path + 1 }) s else s

/-- Reads who holds the reservation after a RESERVATION CONFLICT (R263). DESIGN CHOICE, log entry 56. -/
def onConflict (d : Nat) (st : MediaStatus) (s : State) : State :=
  if st = .conflict ∧ s.isSsp d then sendReserve d .readReservation 0 s else s

/-- The write of a shard ends (R210, R243, R244, R251, R252, R256, R262). -/
def shardWriteDone (c : MediaCmd) (id i : Nat) (st : MediaStatus) (s : State) : State :=
  match kvGet? s.css.stripes id with
  | none => s
  | some x =>
    let d := c.dev
    let kind := (x.placeOf i).kind
    let lba := kvGet x.lbas i 0
    let s := onConflict d st s
    if !s.gateOpen then shardFailed id i d c.lane (senseOf st) lba (s.bump .MPT_LATE_IGNORED_COUNT)
    else
      match st with
      | .good eom =>
        let s := if kind = 3 ∧ eom then earlyWarning d c.lane lba s else s
        if kind = 3 ∨ !c.fua then shardWritten id i s else shardDurable id i s
      | st =>
        if kind = 1 ∧ retryable st ∧ c.tries < s.get .MPT_RETRY_COUNT then
          sendShard x i lba (c.tries + 1) (epbFlag .ENG_EPB_FLAGS_RETRY (s.bump .MPT_RETRIES_COUNT))
        else writeFailed x i d c.lane (senseOf st) lba (movePath d st s)

/-- Sends the command that makes written shards of a device durable (R240, R251), try `tries`. -/
def sendSync (d : Nat) (covers : List (Nat × Nat)) (tries : Nat) (s : State) : State :=
  if s.devType d = tyTape then
    if !s.gateOpen then tapeFail d 0 (s.bump .MPT_GATE_REFUSED_COUNT)
    else if s.devState d = devFailed ∨ !s.reachable d then tapeFail d 0 s
    else sendCmd d (.filemark covers) true false 0 (s.cmdTmo d) 0 (cdb6 0x10 0) [] s
  else
    let cdb := if s.devType d = tySata then ataCmd 0xEA 0 0 0 else cdb16 0x91 0 0 0
    if !s.reachable d then covers.foldl (fun s q => shardFailed q.1 q.2 d (s.laneFor d 0) 0 0 s)
      (s.bumpN .MPT_RETRIES_COUNT (s.get .MPT_RETRY_COUNT - tries))
    else sendCmd d (.sync covers) false false tries (s.cmdTmo d) 0 cdb [] s

/-- A SYNCHRONIZE CACHE or FLUSH CACHE EXT ends (R240, R243). -/
def syncDone (c : MediaCmd) (covers : List (Nat × Nat)) (st : MediaStatus) (s : State) : State :=
  let d := c.dev
  let mine := covers.filter (fun q => match kvGet? s.css.stripes q.1 with
    | some x => x.unsynced.contains q.2
    | none => false)
  match st with
  | .good _ => mine.foldl (fun s q => shardDurable q.1 q.2 s) s
  | st =>
    if retryable st ∧ c.tries < s.get .MPT_RETRY_COUNT then
      sendSync d covers (c.tries + 1) (epbFlag .ENG_EPB_FLAGS_RETRY (s.bump .MPT_RETRIES_COUNT))
    else mine.foldl (fun s q => shardFailed q.1 q.2 d c.lane (senseOf st) 0 s) (onConflict d st s)

/-- A WRITE FILEMARKS ends (R210, R251, R262). -/
def filemarkDone (c : MediaCmd) (covers : List (Nat × Nat)) (st : MediaStatus) (s : State) : State :=
  let d := c.dev
  let mine := covers.filter (fun q => (s.unsyncedOn d).contains q)
  let s := onConflict d st s
  if !s.gateOpen then tapeFail d 0 (s.bump .MPT_LATE_IGNORED_COUNT)
  else match st with
    | .good eom => mine.foldl (fun s q => shardDurable q.1 q.2 s) (if eom then earlyWarning d c.lane 0 s else s)
    | _ => tapeFail d 0 s

/-- Whether a stripe's written shards are to be made durable now: its COMMIT waits for them, or it is recorded or being
repaired (R240, R251). -/
def State.syncDue (s : State) (x : Stripe) : Bool :=
  x.asked || (match (s.progAt x.sch).bind (·.run) with
    | some r => (match r.place with
      | .commit .quorum .. => true
      | _ => false)
    | none => false)

/-- Sends the commands that make written shards durable, one a device at a time. -/
def pumpSync (s : State) : State :=
  let due := (s.css.stripes.filter (fun q => s.syncDue q.2)).flatMap (fun q => q.2.unsynced.map (fun i => (q.2.placeOf i).dev))
  due.dedup.foldl (fun s d =>
    let busy := (s.cmdsOn d).any (fun c => match c.2.use with
      | .sync _ | .filemark _ => true
      | _ => false)
    if busy ∨ (s.reachable d && !s.devRoom d) then s else sendSync d (s.unsyncedOn d) 0 s) s

/-- Whether a restore waits for shards: more of their reads may now be sent. -/
def Prog.readsShards (p : Prog) : Bool :=
  match p.restore? with
  | some (_, rs) => rs.place == .reading && p.ending.isNone
  | none => false

/-- Gives the devices the reads that restores still want. -/
def pumpReads (s : State) : State :=
  ((s.css.subs.filter (fun q => match q.2.prog with
    | some p => p.readsShards
    | none => false)).map (·.1)).foldl (fun s k => restoreStep k s) s

/-- The next shard a program places on tape `d` after stripe `x`. -/
def State.tapeNext (s : State) (x : Stripe) (d : Nat) : Option (Nat × Nat) :=
  ((s.css.stripes.filter (fun q => x.id < q.1 && q.2.sch == x.sch && q.2.token == x.token && q.2.closed && !q.2.discarded)).flatMap
    (fun q => ((List.range (q.2.set.k + q.2.set.m)).filter (fun i => (q.2.placeOf i).dev == d && !q.2.issued.contains i)).map
      (fun i => (q.1, i)))).head?

/-- Whether a transfer fetched ahead still has its shard to come. -/
def State.aheadLives (s : State) (q : LaneXfer) : Bool :=
  q.cmd.isSome || (match q.shard with
    | some (id, i) => (match kvGet? s.css.stripes id with
      | some x => !x.discarded && !x.issued.contains i
      | none => false)
    | none => false)

/-- Beside the shard a tape is taking, the next one for it is fetched into the lane's FIFO (R250). DESIGN CHOICE, log entry 86. -/
def fetchAhead (q : Nat × MediaCmd) (s : State) : State :=
  match q.2.use with
  | .shardWrite id _ =>
    let d := q.2.dev
    let l := s.laneOf q.2.lane
    if s.devType d ≠ tyTape ∨ l.any (fun x => x.cmd.isNone && x.dev == d) ∨ !l.any (fun x => x.cmd == some q.1) then s
    else
      match (kvGet? s.css.stripes id).bind (fun x => (s.tapeNext x d).map (fun y => (x, y))) with
      | some (x, y) => setLane q.2.lane (l ++ [{ cmd := none, dev := d, shard := some y, held := 0, left := 2 ^ x.set.shift }]) s
      | none => s
  | _ => s

/-- What is fetched into the lanes' FIFOs, FILL and PANIC follow the transfers and the lanes' levels (R246, R250). -/
def lookLanes (s : State) : State :=
  let s := (kvKeys s.mpt.lanes).foldl (fun s l => setLane l ((s.laneOf l).filter s.aheadLives) s) s
  s.mpt.cmds.foldl (fun s q => fetchAhead q s) s

/-- What a step that may have freed a device lets the media ports send. -/
def pumpMedia (s : State) : State := lookLanes (manifestLook (pumpReads (pumpSync (pumpWaiting s))))

end Sys2Proof.Machine
end

