-- ==== Sys2Proof/Machine/MediaOrders.lean ====
section
/-!
DEFINITION. MEDIA and ZONE orders (R64, R65, R71, R72, R89, R90, R239, R253, R258, R261, R262, R603).
-/

namespace Sys2Proof.Machine

/-- The length a CDB must have by its operation code's group (R89); none for the vendor-specific groups. PRESUMED, log entry 29. -/
def cdbLength (cdb : List Byte) : Option Nat :=
  let op := fieldAt cdb 0 1
  match op / 32 with
  | 0 => some 6
  | 1 | 2 => some 10
  | 4 => some 16
  | 5 => some 12
  | 3 => some (if op = 0x7F then 8 + fieldAt cdb 7 1 else 0)
  | _ => none

/-- Operation codes of writes to direct-access and zoned devices that are mutating (*Mutating commands*; codes from SBC,
SPC and ZBC, PRESUMED, log entry 29). -/
def diskMutating : List Nat :=
  [0x0A, 0x2A, 0xAA, 0x8A, 0x2E, 0xAE, 0x8E, 0x41, 0x93, 0x89, 0x42, 0x04, 0x48, 0x94, 0x3B, 0x15, 0x55, 0x9C, 0x9A, 0x3F,
   0x8B, 0x50, 0x51, 0x53]

/-- The same of sequential-access devices (codes from SSC and SPC). PRESUMED, log entry 29. -/
def tapeMutating : List Nat := [0x0A, 0x8A, 0x10, 0x80, 0x19, 0x93, 0x04, 0x0B, 0x3B, 0x15, 0x55]

/-- The same of ATA commands inside ATA PASS-THROUGH (codes from ACS). PRESUMED, log entry 29. -/
def ataMutating : List Nat :=
  [0x30, 0x31, 0x32, 0x33, 0x34, 0x35, 0x36, 0x38, 0x39, 0x3A, 0x3B, 0x3D, 0x3E, 0x3F, 0x45, 0x57, 0x61, 0x64, 0xC5, 0xCA, 0xCB,
   0xCC, 0xCD, 0xCE, 0xE8, 0xEB, 0x06, 0x07, 0xF4, 0x92, 0x93, 0xEF]

/-- Whether a CDB is a mutating command for a class of device (R261). -/
def isMutating (type : Nat) (cdb : List Byte) : Bool :=
  let op := fieldAt cdb 0 1
  if type = tyTape then tapeMutating.contains op
  else
    diskMutating.contains op ||
    (op == 0x7F && [0x04, 0x06, 0x07, 0x0B, 0x0C, 0x0D, 0x0E, 0x0F, 0x10, 0x11].contains (beNat (bytesAt cdb 8 2))) ||
    (op == 0x9F && [0x11, 0x12].contains (fieldAt cdb 1 1 % 32)) ||
    (type == tySata && ((op == 0xA1 && ataMutating.contains (fieldAt cdb 9 1)) ||
      (op == 0x85 && ataMutating.contains (fieldAt cdb 14 1)) ||
      (op == 0x7F && beNat (bytesAt cdb 8 2) == 0x1FF0 && ataMutating.contains (fieldAt cdb 25 1))))

/-- Whether a command block is refused with REJ 0x001B (R89). -/
def badBlock (type fn : Nat) (b : List Byte) : Bool :=
  let n := fieldAt b 32 1
  let cdb := b.take n
  let op := fieldAt b 0 1
  decide (n < 6) || decide (32 < n) || decide (2 < fieldAt b 33 1) || decide (2 < fieldAt b 34 1) || fieldAt b 35 1 != 0 ||
  fieldAt b 40 8 != 0 || (match cdbLength cdb with | some m => m != n | none => false) ||
  [0x5F, 0x16, 0x56, 0x17, 0x57].contains op ||
  (fn != 0 && type != tyTape && [0x04, 0x48, 0x94].contains op)

/-- The MEDIA or ZONE order a program runs. -/
def Prog.media? (p : Prog) : Option (Run × MediaRun) :=
  match p.run with
  | some r => (match r.place with
    | .media m => some (r, m)
    | _ => none)
  | none => none

/-- A MEDIA or ZONE order that cannot be carried out ends the program; condition 5 holds (R239). -/
def mediaRefused (k reason : Nat) (r : Run) (s : State) : State :=
  endProg k stFail reason r.x.residual r.addr (setConds k [(0, r.x.residual != 0), (5, true)] s)

/-- Sends the command of a MEDIA or ZONE order, past the claim gate (R239, R258, R261). -/
def issueOrder (k : Nat) (p : Prog) (r : Run) (m : MediaRun) (mutating : Bool) (tmo attr : Nat) (cdb : List Byte) (s : State) :
    State :=
  if mutating && !s.gateOpen then mediaRefused k 0x0207 r (s.bump .MPT_GATE_REFUSED_COUNT)
  else if mutating && s.devState m.dev == devFailed then mediaRefused k 0x0207 r (s.bump .MPT_GATE_REFUSED_COUNT)
  else if !s.reachable m.dev then mediaRefused k 0x0208 r s
  else
    let id := s.mpt.nextCmd
    let s := sendCmd m.dev (.order k p.token) mutating (m.dir == 1) 0 tmo attr cdb m.out s
    modProg k (fun p => { p with run := some { r with place := .media { m with cmd := some id } } }) s

/-- Reads the data-out of the segments of an order with DEV; none on a poisoned line (R281). -/
def readSegs : List (Nat × Nat) → State → Option (List Byte) × State
  | [], s => (some [], s)
  | (a, n) :: t, s =>
    match devRead a n s with
    | (.ok d, s) =>
      let (rest, s) := readSegs t s
      (rest.map (d ++ ·), s)
    | (_, s) => (none, s)

/-- Bytes a list of segments describes. -/
def segBytes (l : List (Nat × Nat)) : Nat := l.foldl (fun a q => a + q.2) 0

/-- The reason under which a list is refused, if it is: that of its first entry that is invalid or outside the window. -/
def badList (segs : List (Nat × Nat)) : Option Nat := (segs.find? (fun q => decide (2 ^ 64 ≤ q.1))).map (fun q => q.1 - 2 ^ 64)

/-- Collects the buffer and the data-out of a MEDIA order, segment by segment of a join; at the last one the length is judged
over the whole join (R66, R603) and the command sent (R65). DESIGN CHOICE, log entry 56. -/
def mediaSegment (k : Nat) (p : Prog) (r : Run) (o : Ord) (m : MediaRun) (segs : List (Nat × Nat)) (dataOut : HostRead) (s : State) :
    State :=
  let segs := limitSegs o.count segs
  let more : List MediaSeg := segs.map (fun q => { addr := q.1, len := q.2, dev := o.dev, sink := o.sink })
  let m := { m with segs := m.segs ++ more }
  if !o.join && decide ((m.segs.map (·.len)).sum < r.x.total) then endProg k stLen 0x0101 r.x.residual r.addr s
  else
    let (data, s) : Block × State :=
      if m.dir ≠ 2 then (.ok [], s)
      else if o.dev then (match readSegs segs s with
        | (some d, s) => (.ok d, s)
        | (none, s) => (.poisoned, s))
      else
        let s := if isExec k then s else segs.foldl (fun s q => askHost k 2 q.1 q.2 s) s
        (match dataOut with
        | .ok d => (.ok (padTo (segBytes segs) d), s)
        | .failed => (.hostf, s))
    match data with
    | .ok d =>
      let m := { m with out := m.out ++ d }
      let r := { r with place := .media m }
      let s := modProg k (fun p => { p with run := some r, heldData := [] }) s
      if o.join then finishOrder k s
      else
        let ms := fieldAt m.bytes 36 4
        let cdb := m.bytes.take (fieldAt m.bytes 32 1)
        issueOrder k p r m (isMutating (s.devType m.dev) cdb) (if ms = 0 then 30000 else ms) (fieldAt m.bytes 34 1) cdb s
    | b => blockEnd k b r.x.residual r.addr s

/-- Whether a device that could be reached takes no further command now (R242). -/
def State.devFull (s : State) (d : Nat) : Bool := s.reachable d && !s.devRoom d

/-- The reasons a command block that was read gives: SINK without data-in (R57), a block that is refused (R89). -/
def blockReasons (o : Ord) (type fn : Nat) (b : List Byte) : List Nat :=
  (if o.sink && fieldAt b 33 1 != 1 then [0x0005] else []) ++ (if badBlock type fn b then [0x001B] else [])

/-- MEDIA (R48, R57, R89, R100, R239, R603): `block`, `list` and `dataOut` are what host memory holds where the order, without
DEV, points. Its fields, its command block and its list are judged together, the lowest reason first; a block or list that
cannot be read fails only where nothing is refused. SINK is allowed with data-in only, which the command block says. DESIGN
CHOICE, log entry 49. -/
def doOrdMedia (k : Nat) (block list dataOut : HostRead) (s0 : State) : State :=
  takeOrder k opMedia .stage (fun p r o s =>
    let fn := (s.subAt k).fn
    let first := p.join.isNone
    let hasBlock := first && (!o.dev || s.inFnWindow fn o.pa 128)
    let (b, s) := if hasBlock then readBlock o.dev o.pa 128 block s else (.ok [], s)
    let hasList := o.listReadable fn s
    let s := if hasList ∧ first ∧ !o.dev ∧ !isExec k then askHost k 2 o.addr (16 * (o.pb % 65536)) s else s
    let (l, s) := if hasList then readBlock o.dev o.addr (16 * (o.pb % 65536)) list s else (.ok [], s)
    let segs := match l with
      | .ok d => if o.list && !hasList then [] else s.segsOf k o d
      | _ => []
    let fromBlock := match b with
      | .ok d => if hasBlock then blockReasons o (s.devType o.device) fn d else []
      | _ => []
    let reasons := orderReasons k p o (p.join.map (·.1)) s ++ fromBlock ++ (badList segs).toList
    match reasons.min? with
    | some n => endProg k stRej n r.x.residual r.addr s
    | none =>
      match b, l with
      | .ok bytes, .ok _ =>
        let m : MediaRun := (p.mediaJoin).getD
          { dev := o.device, block := some (o.pa, o.dev), bytes := bytes, dir := fieldAt bytes 33 1 }
        if !o.join && s.devFull m.dev then s0 else mediaSegment k p r o m segs dataOut s
      | .ok _, l => blockEnd k l r.x.residual r.addr s
      | b, _ => blockEnd k b r.x.residual r.addr s) s0

/-- Binds a zone to a program (R90): its last binding on the device goes. -/
def bindZone (k token d start : Nat) (s : State) : State :=
  modDev d (fun v => { v with binds := v.binds.filter (fun z => z.sch != k) ++ [{ sch := k, token := token, start := start }] }) s

/-- ZONE (R90, R239, R253). DESIGN CHOICE, log entry 57. -/
def doOrdZone (k : Nat) (s0 : State) : State :=
  takeOrder k opZone .stage (fun p r o s =>
    let d := o.device
    let action := bits o.pb 19 16
    if action = 5 then finishOrder k (setConds k [(0, false), (5, false)] (bindZone k p.token d o.pa s))
    else if s.devFull d then s0
    else
      let report := action == 4
      let cdb :=
        if report then cdb16 0x95 0 o.pa o.count
        else
          let sa := match action with
            | 0 => 3
            | 1 => 1
            | 2 => 2
            | _ => 4
          cdb16 0x94 sa o.pa 0
      let s := if action = 3 then modDev d (fun v => { v with binds := v.binds.filter (fun z => z.sch != k || z.start != o.pa) }) s else s
      let segs := if o.count = 0 then [] else [{ addr := o.addr, len := o.count, dev := o.dev, sink := false : MediaSeg }]
      let m : MediaRun := { dev := d, dir := if report then 1 else 0, segs := segs }
      issueOrder k p { r with place := .media m } m (!report) (s.cmdTmo d) 0 cdb s) s0

/-- Writes data-in into the segments of a buffer, in order (R71). DESIGN CHOICE, log entry 56. -/
def mediaIn (k : Nat) : List MediaSeg → List Byte → State → State
  | [], _, s => s
  | q :: t, d, s =>
    let x := d.take q.len
    let s := if q.sink || x.isEmpty then s else if q.dev then (devWrite q.addr x s).2 else tellHost k q.addr true x s
    mediaIn k t (d.drop q.len) s

/-- The SCSI status byte of an end; none where there was none. -/
def scsiStatus : MediaStatus → Option Nat
  | .good _ => some 0
  | .busy => some 0x08
  | .taskSetFull => some 0x28
  | .check .. => some 0x02
  | .conflict => some 0x18
  | .other c => some (c % 256)
  | .transport => none

/-- The sense bytes of an end. -/
def senseBytes : MediaStatus → List Byte
  | .check _ _ _ _ l => l.take 64
  | _ => []

/-- What a command that succeeded does to the device as the module knows it: LOAD clears a tape's early-warning mark (R252).
PRESUMED, log entry 29. -/
def mediaEffect (m : MediaRun) (s : State) : State :=
  if fieldAt m.bytes 0 1 = 0x1B ∧ fieldAt m.bytes 4 1 % 2 = 1 ∧ s.devType m.dev = tyTape then s.setB .MPT_DEV_INFO_EW m.dev 0 else s

/-- The command of a MEDIA or ZONE order ends (R66, R71, R73, R239, R262, R603): data-in goes to the buffer, status and
sense to the command block. How much of the data-out a command that failed has taken is a free value. -/
def orderDone (c : MediaCmd) (k token : Nat) (st : MediaStatus) (data : List Byte) (s : State) : State :=
  let d := c.dev
  let s := if s.devType d = tyTape then modDev d (fun v => { v with tapePos := none }) s else s
  let s := if c.mutating && !s.gateOpen then s.bump .MPT_LATE_IGNORED_COUNT else s
  let s := movePath d st (onConflict d st s)
  match (s.progAt k).bind (fun p => if p.token = token ∧ p.ending.isNone then p.media? else none) with
  | none => s
  | some (r, m) =>
    match scsiStatus st with
    | none => mediaRefused k 0x0208 r s
    | some code =>
      let want := r.x.total
      let got := data.take want
      let (moved, s) : Nat × State :=
        if m.dir = 1 then (got.length, mediaIn k m.segs got s)
        else if m.dir = 2 then
          (if code = 0 then (want, s) else let (n, s) := s.draw; (Config.freeNat n % (want + 1), s))
        else (0, s)
      let r := { r with x := { r.x with moved := moved } }
      let s := modProg k (fun p => { p with run := some r }) s
      let sense := senseBytes st
      let area := leBytes 1 code ++ leBytes 1 sense.length ++ zeros 14 ++ padTo 64 sense
      let s := match m.block with
        | some (a, true) => (devWrite (a + 48) area s).2
        | some (a, false) => tellHost k (a + 48) false area s
        | none => s
      let s := setConds k [(0, decide (moved < want)), (5, code != 0)] s
      if code ≠ 0 then endProg k stFail 0x0206 r.x.residual r.addr s
      else
        let s := mediaEffect m s
        if moved < want ∧ !r.x.short then endProg k stLen 0x0100 r.x.residual r.addr s
        else finishOrder k s

end Sys2Proof.Machine
end

