-- ==== Sys2Proof/Machine/Media.lean ====
section
/-!
DEFINITION. The ends of media commands, timeouts, injection's held completions, reservations, discovery, lanes and media
scrub (R231 to R239, R242, R243, R247, R252, R257 to R266, R268).
-/

namespace Sys2Proof.Machine

/-- Whether the module is to hold the reservations: the active member, or an unpaired module (R257). -/
def State.holds (s : State) : Bool := !s.on .CLM_PAIR_PAIRED || s.get .CLM_STATUS_ROLE == 1

/-- The holder's key in what READ RESERVATION returns, if there is one; keys are little-endian (R257). PRESUMED, log entry 29. -/
def holderOf (d : List Byte) : Option Nat := if beNat (bytesAt d 4 4) = 0 then none else some (fieldAt d 8 8)

/-- Judges the holder READ RESERVATION has given (R257, R258, R263, R518). -/
def judgeHolder (d lane : Nat) (holder : Option Nat) (s : State) : State :=
  let s := modDev d (fun v => { v with holder := holder }) s
  match holder with
  | none => s
  | some h =>
    let own := s.ownKey
    let claim := h % 2 ^ 32
    if h = own then s
    else if h / 2 ^ 32 ≠ own / 2 ^ 32 then
      if s.devState d = devPresent then mediaEvent 7 d lane 0 0 (s.setB .MPT_DEV_INFO_STATE d devFailed) else s
    else if s.get .CLM_CLAIM_CLAIM < claim then mediaEvent 7 d lane 0 0 (seeClaim seenHolder claim s)
    else if s.holds then sendReserve d .preempt 0 s
    else s

/-- A reservation command of the device's own, or the SMP command, ends (R243, R257 to R260, R263). -/
def reserveDone (c : MediaCmd) (kind : PrKind) (st : MediaStatus) (data : List Byte) (s : State) : State :=
  let d := c.dev
  match st with
  | .good _ =>
    (match kind with
    | .register =>
      let s := s.setB .MPT_DEV_INFO_PR d 1
      if s.pair.taking then sendReserve d .preempt 0 s
      else if s.holds then sendReserve d .reserve 0 s
      else s
    | .reserve | .preempt => modDev d (fun v => { v with holder := some s.ownKey }) s
    | .readReservation => judgeHolder d c.lane (holderOf data) s
    | .clearAffiliation => s)
  | .conflict => if kind = .readReservation ∨ kind = .clearAffiliation then s else sendReserve d .readReservation 0 s
  | st =>
    if retryable st ∧ c.tries < s.get .MPT_RETRY_COUNT then sendReserve d kind (c.tries + 1) (s.bump .MPT_RETRIES_COUNT)
    else movePath d st s

/-- Blocks of one scrub command: a SATA verify takes at most 65_536 sectors (R264). -/
def State.scrubPiece (s : State) (d n : Nat) : Nat := if s.devType d = tySata then min n 65536 else n

/-- Sends a verify of `n` blocks at `lba`, in pieces (R264). -/
def sendScrub (d lba n : Nat) (s : State) : State :=
  let m := s.scrubPiece d n
  let cdb := if s.devType d = tySata then ataCmd 0x42 0 lba m else cdb16 0x8F 0 lba m
  let s := modDev d (fun v => { v with scrubbing := true }) s
  sendCmd d (.scrub lba m (n - m)) false false 0 (s.cmdTmo d) 0 cdb [] s

/-- Sets a disk's scrub position; past its last block its round is complete (R264, R265). -/
def scrubTo (d pos : Nat) (s : State) : State :=
  if pos < s.getB .MPT_DEV_CAP_BLOCKS d then modDev d (fun v => { v with scrubPos := pos }) s
  else (modDev d (fun v => { v with scrubPos := 0 }) s).bump .MPT_SCRUB_STATUS_ROUNDS

/-- Blocks of a scrub segment (R264). -/
def State.segment (s : State) (d : Nat) : Nat :=
  max 1 (2 ^ clamp 20 26 (s.get .MPT_SCRUB_CTL_SEGMENT_LOG2) / s.blockSize d)

/-- Reads the zone a zoned disk's scrub has come to (R264). -/
def scrubProbe (d : Nat) (s : State) : State :=
  let s := modDev d (fun v => { v with scrubbing := true }) s
  sendCmd d .scrubProbe false true 0 (s.cmdTmo d) 0 (cdb16 0x95 0 (s.devAt d).scrubPos 4096) [] s

/-- The next segment of a disk: up to its end, or after its zone has been read (R264); a round at its end begins anew. -/
def scrubNext (d : Nat) (s : State) : State :=
  let pos := (s.devAt d).scrubPos
  let top := s.getB .MPT_DEV_CAP_BLOCKS d
  if top ≤ pos then scrubTo d pos s
  else if s.devType d = tyZoned then scrubProbe d s
  else sendScrub d pos (min (s.segment d) (top - pos)) s

/-- The zone a scrub has come to is known (R264): it is verified up to its write pointer; past that the scrub goes to the next zone.
DESIGN CHOICE, log entry 57. -/
def scrubProbed (c : MediaCmd) (st : MediaStatus) (data : List Byte) (s : State) : State :=
  let d := c.dev
  let s := modDev d (fun v => { v with scrubbing := false }) s
  match st with
  | .good _ =>
    (match (zonesOf data).head? with
    | some z =>
      let a := max (s.devAt d).scrubPos z.start
      if a < z.top then (if s.reachable d then sendScrub d a (min (s.segment d) (z.top - a)) s else s)
      else
        let rounds := s.get .MPT_SCRUB_STATUS_ROUNDS
        let s := scrubTo d (max (a + 1) (z.start + z.capacity)) s
        if s.get .MPT_SCRUB_STATUS_ROUNDS = rounds ∧ s.reachable d then scrubProbe d s else s
    | none => s)
  | st => movePath d st (onConflict d st s)

/-- A scrub verify ends (R266): on a medium error the event gives the LBA and the segment resumes at the next block. -/
def scrubDone (c : MediaCmd) (lba n left : Nat) (st : MediaStatus) (s : State) : State :=
  let d := c.dev
  let stop := fun (s : State) => modDev d (fun v => { v with scrubbing := false }) s
  let goOn := fun (at_ left : Nat) (s : State) =>
    let s := scrubTo d at_ (stop s)
    if left = 0 ∨ !s.reachable d then s else sendScrub d at_ left s
  match st with
  | .good _ => goOn (lba + n) left s
  | .check 3 asc ascq info _ =>
    let sense := if s.devType d = tySata then 0x1103 else 3 + asc % 256 * 256 + ascq % 256 * 65536
    let s := mediaEvent 4 d c.lane sense info (s.bump .MPT_SCRUB_ERRORS_COUNT)
    let e := lba + n + left
    let at_ := max (lba + 1) (min e (info + 1))
    goOn at_ (e - at_) s
  | st => stop (movePath d st (onConflict d st s))

/-- A media command has ended and no longer stands on its device; data-in comes as injection leaves it (R268). DESIGN CHOICE, log
entry 93. -/
def complete (id : Nat) (c : MediaCmd) (st : MediaStatus) (data : List Byte) (s : State) : State :=
  let s := laneEnd id c.lane (dropCmd id s)
  let data := match c.flip with
    | some n => flipBit n data
    | none => data
  match c.use with
  | .shardWrite stripe i => shardWriteDone c stripe i st s
  | .shardRead k token stripe i =>
    let s := onConflict c.dev st s
    if (s.progAt k).map (·.token) = some token then shardReadDone k stripe i c st data s else s
  | .order k token => orderDone c k token st data s
  | .sync l => syncDone c l st s
  | .filemark l => filemarkDone c l st s
  | .scrub lba n left => scrubDone c lba n left st s
  | .reserve kind => reserveDone c kind st data s
  | .manifest r => manifestWritten c.dev r c.fua st (movePath c.dev st (onConflict c.dev st s))
  | .manifestSync r => manifestSynced r st (movePath c.dev st (onConflict c.dev st s))
  | .probe stripe i => probeDone c stripe i st data (movePath c.dev st (onConflict c.dev st s))
  | .scrubProbe => scrubProbed c st data s

/-- Releases the completions a slot holds, last in first out (R268). -/
def releaseHeld (slot : Nat) (s : State) : State :=
  let l := (kvGet s.mpt.held slot []).reverse
  let s := s.withMpt (fun m => { m with held := kvDel m.held slot })
  l.foldl (fun s q => match kvGet? s.mpt.cmds q.1 with
    | some c => complete q.1 c q.2.1 q.2.2 s
    | none => s) s

/-- A completion arrives: a REORDER slot may hold it back (R268), else the command ends. -/
def arrive (id : Nat) (c : MediaCmd) (st : MediaStatus) (data : List Byte) (s : State) : State :=
  match c.hold with
  | none => complete id c st data s
  | some slot =>
    let l := kvGet s.mpt.held slot [] ++ [(id, st, data)]
    let s := s.withMpt (fun m =>
      { m with held := kvSet m.held slot l, cmds := kvSet m.cmds id { c with dropped := true, hold := none } })
    if clamp 1 64 (s.getB .MPT_INJ_SLOT_PARAM slot) ≤ l.length then releaseHeld slot s else s

/-- INJECT_REORDER_RELEASE (R268): 1 ms has passed. -/
def doInjectReorderRelease (slot : Nat) (s : State) : State := releaseHeld slot s

/-- The completion of the command that `f` picks. -/
def ends (f : MediaCmd → Bool) (st : MediaStatus) (data : List Byte) (s : State) : State :=
  match s.findCmd f with
  | some (id, c) => arrive id c st data s
  | none => s

/-- SHARD_WRITE_ISSUE (R202, R240 to R242, R250, R254, R255): the shard is sent, or what must be read before it; with `answer` what was
read comes back and the shard follows. DESIGN CHOICE, log entry 55. -/
def doShardWriteIssue (stripe shard : Nat) (answer : Option MediaAnswer) (s : State) : State :=
  match answer with
  | some a => ends (fun c => c.use == .probe stripe shard) a.status a.data s
  | none => issueShard stripe shard s

/-- SCRUB_PACE (R264, R265): a device's pace falls due in FROND; with `answer` the zone it has come to has been read. DESIGN CHOICE, log
entry 57. -/
def doScrubPace (d : Nat) (answer : Option MediaAnswer) (s : State) : State :=
  let t := s.devType d
  match answer with
  | some a => ends (fun c => c.dev == d && c.use == .scrubProbe) a.status a.data s
  | none =>
    if s.mode ≠ Mode.frond ∨ !s.on .MPT_SCRUB_CTL_ENABLE ∨ !s.onB .MPT_DEV_CTL_SCRUB_EN d ∨ !([tyDisk, tyZoned, tySata].contains t) ∨
        s.devState d = devFree ∨ (s.devAt d).scrubbing then s
    else if s.devState d = devAbsent ∨ !s.reachable d then s.set .MPT_SCRUB_STATUS_BEHIND 1
    else if !s.devRoom d then s
    else scrubNext d s

/-- MANIFEST_WRITE_COMPLETE (R228, R262): how the command at each region ended. DESIGN CHOICE, log entry 63. -/
def doManifestWriteComplete (statuses : List MediaStatus) (s : State) : State :=
  [0, 1, 2, 3].foldl (fun s r => ends (fun c => c.use.forRegion r) (statuses.getD r .transport) [] s) s

/-- SHARD_WRITE_COMPLETE (R210, R243, R262). -/
def doShardWriteComplete (stripe shard : Nat) (st : MediaStatus) (s : State) : State :=
  ends (fun c => c.use == .shardWrite stripe shard) st [] s

/-- SHARD_READ_COMPLETE (R204, R243, R245). -/
def doShardReadComplete (k stripe shard : Nat) (st : MediaStatus) (data : List Byte) (s : State) : State :=
  ends (fun c => match c.use with
    | .shardRead j _ x i => j == k && x == stripe && i == shard
    | _ => false) st data s

/-- MEDIA_ORDER_COMPLETE (R239, R262). DESIGN CHOICE, log entry 93. -/
def doMediaOrderComplete (k : Nat) (st : MediaStatus) (data : List Byte) (s : State) : State :=
  ends (fun c => match c.use with
    | .order j _ => j == k
    | _ => false) st data s

/-- SYNC_CACHE_COMPLETE (R228, R240, R243). -/
def doSyncCacheComplete (d : Nat) (st : MediaStatus) (s : State) : State :=
  ends (fun c => c.dev == d && (match c.use with
    | .sync _ | .manifestSync _ => true
    | _ => false)) st [] s

/-- WRITE_FILEMARKS_COMPLETE (R251). -/
def doWriteFilemarksComplete (d : Nat) (st : MediaStatus) (s : State) : State :=
  ends (fun c => c.dev == d && (match c.use with
    | .filemark _ => true
    | _ => false)) st [] s

/-- SCRUB_VERIFY_COMPLETE (R264 to R266). -/
def doScrubVerifyComplete (d : Nat) (st : MediaStatus) (s : State) : State :=
  ends (fun c => c.dev == d && (match c.use with
    | .scrub .. => true
    | _ => false)) st [] s

/-- PERSISTENT_RESERVE_COMPLETE (R243, R257 to R260, R263). -/
def doPersistentReserveComplete (d : Nat) (kind : PrKind) (st : MediaStatus) (data : List Byte) (s : State) : State :=
  ends (fun c => c.dev == d && c.use == .reserve kind) st data s

/-- MEDIA_COMMAND_TIMEOUT (R243, R268): the port ends the command with ABORT TASK and treats it as failed on transport. -/
def doMediaCommandTimeout (id : Nat) (s : State) : State :=
  match kvGet? s.mpt.cmds id with
  | none => s
  | some c =>
    let s := (timeTo (c.issuedAt + c.tmo * 1000000) s).bump .MPT_TIMEOUTS_COUNT
    let s := s.withMpt (fun m => { m with held := m.held.map (fun q => (q.1, q.2.filter (fun h => h.1 != id))) })
    complete id c .transport [] (s.emit (.abortTask id))

/-- A lane goes up at a rate, or down; a narrow link that comes up lets its device spin up (R232 to R234). What was fetched for a lane
that goes down is gone. DESIGN CHOICE, log entry 86. -/
def laneChange (lane : Nat) (on : Bool) (rate sas : Nat) (s : State) : State :=
  let spin := on && !s.onB .MPT_LANE_STATUS_UP lane && s.mpt.narrow.testBit (lane / 4)
  let s := s.setB .MPT_LANE_STATUS_UP lane (b2n on)
  let s := s.setB .MPT_LANE_STATUS_RATE lane (if on then rate else 0)
  let s := s.setB .MPT_LANE_ADDR_SAS_ADDR lane (if on then sas else 0)
  let s := if on then s else setLane lane [] s
  let s := if spin then s.emit (.notify lane) else s
  ((s.mpt.devs.filter (fun q => q.2.ports.any (fun p => (portLanes p).contains lane))).map (·.1)).foldl (fun s d => countPaths d s) s

/-- LANE_LINK_CHANGE (R232, R233): a lane that is enabled and powered trains at its rate or stays down. -/
def doLaneLinkChange (lane : Nat) (up : Bool) (rate sas : Nat) (s : State) : State :=
  if 64 ≤ lane then s
  else
    let on := up && s.onB .MPT_LANE_CTL_ENABLE lane && s.pdOn (if lane < 32 then 31 else 32)
    laneChange lane on (min (min 2 (s.getB .MPT_LANE_CTL_MAX_RATE lane)) rate) sas s

/-- The lanes of a media port go down (R233). -/
def lanesDown (port : Nat) (s : State) : State := (List.range 32).foldl (fun s l => laneChange (32 * port + l) false 0 0 s) s

/-- Starts discovery (R235): the groups' setting takes effect (R231). -/
def startDiscovery (s : State) : State :=
  if s.on .MPT_DISC_CTL_BUSY then s
  else (s.set .MPT_DISC_CTL_BUSY 1).withMpt (fun m => { m with narrow := s.get .MPT_PORT_CFG_NARROW })

/-- DISC_RUN (R235). -/
def doDiscRun (o : Origin) (s : State) : State := reach o .MPT_DISC_CTL startDiscovery s

/-- BROADCAST_CHANGE (R235): on a lane that is up. -/
def doBroadcastChange (lane : Nat) (s : State) : State := if s.laneUp lane then startDiscovery s else s

/-- The lowest device number that `f` picks. DEDUCED, log entry 28. -/
def firstDev (f : Nat → Bool) : Option Nat := (List.range 1024).find? f

/-- The number of a name: the one bound to it, else the lowest free one (R236). -/
def State.numberOf (s : State) (name : Nat) : Option Nat :=
  (firstDev (fun d => s.devState d != devFree && s.getB .MPT_DEV_NAME_NAME d == name)).or
    (firstDev (fun d => s.devState d == devFree))

/-- The ports through which a device found can be reached (R231, R234, R235): wide ports for one behind at most four expanders, narrow
links for one directly attached, which is no SATA device; two at most. -/
def State.portsOf (s : State) (f : FoundDevice) : List Nat :=
  let l := ((f.lanes.filter s.laneUp).map (portOf s.mpt.narrow)).dedup
  (if f.depth = 0 then (if f.kind = tySata then [] else l.filter (fun p => decide (16 ≤ p)))
   else if f.depth ≤ 4 then l.filter (fun p => decide (p < 16)) else []).take 2

/-- Enters an end device found under number `d` (R235 to R237, R240, R247, R249, R252). DESIGN CHOICE, log entry 55. -/
def enterDevice (f : FoundDevice) (d : Nat) (s : State) : State :=
  let was := s.devState d
  let s := s.setB .MPT_DEV_INFO_STATE d (if was = devFailed then devFailed else devPresent)
  let s := (s.setB .MPT_DEV_NAME_NAME d f.name).setB .MPT_DEV_INFO_TYPE d f.kind
  let s := s.setB .MPT_DEV_INFO_DUAL d (b2n f.dual)
  let s := if f.kind = tyTape then s.setB .MPT_DEV_INFO_LBS d 15
    else if f.lbs = 15 ∧ was ≠ devFree then s else s.setB .MPT_DEV_INFO_LBS d f.lbs
  let s := s.setB .MPT_DEV_CAP_BLOCKS d (if f.kind = tyTape then 0 else f.blocks)
  let s := (s.setB .MPT_DEV_CTL_DURABLE d 0).setB .MPT_DEV_CTL_RT d (b2n (f.kind == tyTape))
  let s := s.setB .MPT_DEV_CTL_SCRUB_EN d (b2n ([tyDisk, tyZoned, tySata].contains f.kind))
  let fresh := was != devPresent && was != devFailed
  let s := modDev d (fun v =>
    { v with
      ports := s.portsOf f, expander := f.expander, phy := f.phy, tapeReady := f.tapeReady, tapeMinRecord := f.tapeMinRecord
      tapeMaxRecord := f.tapeMaxRecord, tapeGranularity := f.tapeGranularity
      scrubbing := v.scrubbing && !fresh }) s
  let s := countPaths d s
  if fresh then mediaEvent 1 d (s.laneFor d 0) 0 0 s else s

/-- Enters one end device found; one for which no number is free is counted (R236). -/
def foundDevice (f : FoundDevice) (s : State) : State :=
  (s.numberOf f.name).elim (s.bump .MPT_DISC_CTL_OVERFLOW) (fun d => enterDevice f d s)

/-- A device that has disappeared becomes ABSENT (R236). DESIGN CHOICE, log entry 86. -/
def loseDevice (d : Nat) (s : State) : State :=
  let lane := (((s.devAt d).ports.headD 0) |> portLanes).headD 0
  let s := modDev d (fun v => { v with ports := [] }) ((s.setB .MPT_DEV_INFO_PATHS d 0).setB .MPT_DEV_INFO_PR d 0)
  mediaEvent 2 d lane 0 0 (s.setB .MPT_DEV_INFO_STATE d devAbsent)

/-- DISCOVERY_COMPLETE (R231, R235, R236, R257): devices found are numbered, a numbered one not found becomes ABSENT, and the key is
registered. DESIGN CHOICE, log entry 55. -/
def doDiscoveryComplete (found : List FoundDevice) (expanders : Nat) (s : State) : State :=
  if !s.on .MPT_DISC_CTL_BUSY then s
  else
    let found := found.filter (fun f => !(s.portsOf f).isEmpty)
    let s := (s.set .MPT_DISC_CTL_BUSY 0).set .MPT_DISC_CTL_OVERFLOW 0
    let s := found.foldl (fun s f => foundDevice f s) s
    let gone := (List.range 1024).filter (fun d =>
      (s.devState d == devPresent || s.devState d == devFailed) && found.all (fun f => f.name != s.getB .MPT_DEV_NAME_NAME d))
    let s := gone.foldl (fun s d => loseDevice d s) s
    let n := ((List.range 1024).filter (fun d => s.devState d == devPresent)).length
    registerKeys ((s.set .MPT_DISC_CTL_DEVICES n).set .MPT_DISC_CTL_EXPANDERS (min 128 expanders))

/-- DEV_RELEASE (R236): the selected number becomes FREE. -/
def doDevRelease (o : Origin) (w : Nat) (s : State) : State :=
  let d := s.get .MPT_DEV_SEL_DEVICE
  let st := s.devState d
  let named := [0, 1, 2, 3].any (fun r => s.onB .ENG_CUS_MCFG_VALID r && s.getB .ENG_CUS_MCFG_DEVICE r == d)
  command o .MPT_DEV_CMD w .MPT_DEV_CMD_RESULT 3 [(st != devAbsent && st != devFailed, 1), (named, 2)]
    (fun s =>
      let fields : List Fld := [.MPT_DEV_INFO_STATE, .MPT_DEV_INFO_TYPE, .MPT_DEV_INFO_PATHS, .MPT_DEV_INFO_DUAL,
        .MPT_DEV_INFO_LBS, .MPT_DEV_INFO_EW, .MPT_DEV_INFO_PR, .MPT_DEV_NAME_NAME, .MPT_DEV_CAP_BLOCKS]
      let s := fields.foldl (fun s f => s.setB f d f.info.reset) s
      s.withMpt (fun m => { m with devs := kvDel m.devs d })) s

end Sys2Proof.Machine
end

