-- ==== Sys2Proof/Machine/MemCmds.lean ====
section
/-!
DEFINITION. The commands of the memory and journal controllers: front ends, stripe marks, refresh, retraining, the two
scrubs and the MRAM dies (R271 to R307).
-/

namespace Sys2Proof.Machine

/-- Lines of the DRAM. -/
def dramLines : Nat := 2 ^ 31

/-- Wrong symbols found in a line are held by it until it is written. -/
def addErrs (l : Nat) (errs : List SymbolError) (s : State) : State :=
  if errs.isEmpty then s
  else s.withMem (fun m => { m with errs := kvSet m.errs l (kvGet m.errs l [] ++ errs) })

/-- Whether a requester is a device in the sense of R332. -/
def fromDevice : MemClient → Bool
  | .core | .scrub => false
  | _ => true

/-- Whether a request is held: by a retraining (R293), a front-end switch (R274, R275), or self-refresh (R294). -/
def State.memHolds (s : State) (l : Nat) (write : Bool) : Bool :=
  s.lineWaits l write || s.mem.switching || s.mode == Mode.dormant

/-- Whether some lane has PANIC. -/
def State.panics (s : State) : Bool := s.get .MPT_PANIC_LANES != 0

/-- The service class of a requester's traffic: C0 for a media port, C1 for the cores, C3 for patrol scrub, else C2 (R43,
R295, R393). -/
def memClass : MemClient → Nat
  | .media => 0
  | .core => 1
  | .scrub => 3
  | _ => 2

/-- A read at its command slot (R272, R277, R278, R281, R288). One by a media port fills a lane FIFO too (R246). -/
def issueRead (c : MemClient) (line : Nat) (errs : List SymbolError) (s : State) : State :=
  let s := touchBank line (addErrs line errs s)
  let s := (readLine false line s).2
  match c with
  | .media => laneFetch s
  | _ => s

/-- A waiting request at its command slot. -/
def MemReq.issue (q : MemReq) (s : State) : State :=
  match q.write with
  | none => issueRead q.client q.line q.errs s
  | some (off, d) => (writeLine q.line off d (queueWrite q.line (touchBank q.line s))).2

/-- Requests that wait in the front end of a line group, the oldest first. -/
def State.waitsAt (s : State) (g : Nat) : List MemReq := s.mem.reqs.filter (fun q => lineGroup q.line == g)

/-- Whether a request for a line waits: requests to one line are served in arrival order (R287). -/
def State.lineQueued (s : State) (l : Nat) : Bool := s.mem.reqs.any (fun q => q.line == l)

/-- The requests of a group that can issue now: not held, and none for the same line before them (R287). -/
def State.canIssue (s : State) (g : Nat) : List MemReq :=
  let l := s.waitsAt g
  (l.zipIdx).filterMap (fun q =>
    if s.memHolds q.1.line q.1.write.isSome || (l.take q.2).any (fun e => e.line == q.1.line) then none else some q.1)

/-- Whether a request has waited 1.5 µs or was promoted by MEM_AGE_PROMOTE (R289). -/
def State.agedReq (s : State) (q : MemReq) : Bool := q.aged || decide (q.at_ + 1500 ≤ s.now)

/-- Whether a request meets the open row of its bank (R288, R289). -/
def State.rowHit (s : State) (q : MemReq) : Bool :=
  let b := lineGroup q.line * 32 + lineBank (s.get .MEM_CFG_ORDER) q.line
  (kvGet s.mem.banks b (none, 0, [])).1 == some (lineRow q.line)

/-- The first of a class, row hits before the others (R289 step 4). -/
def State.firstOf (s : State) (l : List MemReq) (c : Nat) : Option MemReq :=
  let k := l.filter (fun q => memClass q.client == c)
  (k.find? s.rowHit).or k.head?

/-- Writes of a group that wait. -/
def State.waitingWrites (s : State) (g : Nat) : Nat := ((s.waitsAt g).filter (fun q => q.write.isSome)).length

/-- The request a front end issues at a command slot (R289): an aged one, the oldest first; under PANIC one of C0 in arrival
order; else by class, of the writes in a batch (R290), of the reads otherwise. -/
def State.nextReq (s : State) (g : Nat) : Option MemReq :=
  let l := s.canIssue g
  let reads := l.filter (fun q => q.write.isNone)
  let pool := if s.mem.batch.contains g || reads.isEmpty then l.filter (fun q => q.write.isSome) else reads
  let pool := if pool.isEmpty then l else pool
  (l.find? s.agedReq).or
    ((if s.panics then l.find? (fun q => memClass q.client == 0) else none).or ([0, 1, 2, 3].findSome? (s.firstOf pool)))

/-- A batch of writes begins at 48 waiting lines, with no read waiting, or when a write reaches the age limit; it ends when 16 lines
remain (R290). -/
def setBatch (g : Nat) (s : State) : State :=
  let l := s.waitsAt g
  let n := s.waitingWrites g
  let begins := decide (48 ≤ n) || l.all (fun q => q.write.isSome) || l.any (fun q => q.write.isSome && s.agedReq q)
  s.withMem (fun m =>
    { m with batch :=
        if n ≤ 16 then m.batch.filter (· != g)
        else if begins && !m.batch.contains g then m.batch ++ [g] else m.batch })

/-- The command slots of a front end until nothing more can issue. DESIGN CHOICE, log entry 96. -/
def pumpGroup (g : Nat) : Nat → State → State
  | 0, s => s
  | n + 1, s =>
    let s := setBatch g s
    match s.nextReq g with
    | none => s
    | some q =>
      let s := if q.aged || !s.agedReq q then s else s.bump .MEM_AGED_COUNT
      pumpGroup g n (q.issue (s.withMem (fun m => { m with reqs := m.reqs.erase q })))

/-- MEM_REF_STATUS.POSTPONED follows the largest count of the front ends. -/
def syncPostponed (s : State) : State :=
  s.set .MEM_REF_STATUS_POSTPONED ((kvVals s.mem.postponed).foldl max 0)

/-- Refreshes postponed under PANIC are issued once it clears, before anything else (R289, R291). -/
def issueRefreshes (s : State) : State :=
  if s.panics || (kvVals s.mem.postponed).all (· == 0) then s
  else syncPostponed (s.withMem (fun m => { m with postponed := [] }))

/-- The command slots of all four front ends (R273). -/
def pumpMemory (s : State) : State :=
  let s := issueRefreshes s
  if s.mem.reqs.isEmpty then s
  else [0, 1, 2, 3].foldl (fun s g => pumpGroup g (s.waitsAt g).length s) s

/-- Lets a request wait in its front end (R275, R287). -/
def waitReq (q : MemReq) (s : State) : State := s.withMem (fun m => { m with reqs := m.reqs ++ [{ q with at_ := s.now }] })

/-- MEM_READ (R272, R275, R277, R278, R281, R287, R289): a request that is held waits in the front end. -/
def doMemRead (c : MemClient) (line : Nat) (errs : List SymbolError) (s : State) : State :=
  if fromDevice c ∧ (s.inEnclave (line * 128)).isSome then s
  else if s.memHolds line false ∨ s.lineQueued line then waitReq { client := c, line := line, errs := errs } s
  else issueRead c line errs s

/-- MEM_WRITE (R272, R275, R279, R287, R394): line by line; where a line is held its requests wait in the front ends. -/
def doMemWrite (c : MemClient) (addr : Nat) (data : List Byte) (s : State) : State :=
  let ps := piecesOf addr data.length
  let ls := ps.map (·.1)
  if fromDevice c ∧ ls.any (fun l => (s.inEnclave (l * 128)).isSome) then s
  else if ls.any (fun l => s.memHolds l true || s.lineQueued l) then
    (ps.foldl (fun (q : List Byte × State) p =>
      (q.1.drop p.2.2, waitReq { client := c, line := p.1, write := some (p.2.1, q.1.take p.2.2) } q.2)) (data, s)).2
  else
    let s := ls.foldl (fun s l => queueWrite l (touchBank l s)) s
    (devWriteAux ps data s).2

/-- CHANNEL_TIMEOUT (R282). -/
def doChannelTimeout (stripe channel : Nat) (s : State) : State :=
  if 5 < stripe ∨ 3 < channel then s else markStripe 0 stripe s

/-- The stripe whose domain is to hold the active front ends (R274). -/
def State.nextFrontEnd (s : State) : Option Nat :=
  (List.range 6).find? (fun k => !s.bitB .MEM_STRIPE_STATUS_FAILED 0 k && s.pdOn (20 + k))

/-- FRONT_END_SWITCH_COMPLETE (R274). -/
def doFrontEndSwitchComplete (s : State) : State :=
  if s.mem.switching then
    let s := s.withMem (fun m => { m with switching := false })
    match s.nextFrontEnd with
    | some k => (s.set .MEM_STRIPE_STATUS_FE_ACTIVE k).bump .MEM_FE_SWITCHES_COUNT
    | none => s
  else s

/-- MEM_STRIPE_CMD as written for an operation. -/
def stripeCmdWord (op stripe : Nat) : Nat := op + stripe % 8 * 4

/-- STRIPE_MARK (R282, R285): the entry of the command (R601), then that of the marking. -/
def doStripeMark (o : Origin) (w stripe : Nat) (s : State) : State :=
  let st := stripe % 8
  command o .MEM_STRIPE_CMD w .MEM_STRIPE_CMD_RESULT 4
    [(decide (5 < st), 1), (!s.bitB .MEM_STRIPE_STATUS_FAILED 0 st && s.otherStripeFailed st, 2)]
    (markStripe (originCode o) st) s

/-- STRIPE_CLEAR (R283): the mark goes at the next start that does not retain DRAM contents. -/
def doStripeClear (o : Origin) (w stripe : Nat) (s : State) : State :=
  let st := stripe % 8
  command o .MEM_STRIPE_CMD w .MEM_STRIPE_CMD_RESULT 4
    [(decide (5 < st), 1), (s.mode != Mode.maintenance, 3)]
    (fun s => s.withMem (fun m =>
      { m with clearNext := if m.clearNext.contains st then m.clearNext else m.clearNext ++ [st] })) s

/-- MEM_AGE_PROMOTE (R289): the oldest request of a front end that is not promoted yet has waited 1.5 µs. DESIGN CHOICE, log
entry 96. -/
def doMemAgePromote (group : Nat) (s : State) : State :=
  if group < 4 then
    let s := match (s.waitsAt group).find? (fun q => !q.aged) with
      | some q => timeTo (q.at_ + 1500) (s.withMem (fun m =>
          { m with reqs := m.reqs.map (fun e => if e = q then { e with aged := true } else e) }))
      | none => s
    s.bump .MEM_AGED_COUNT
  else s

/-- REFRESH_DUE (R291): under PANIC it is postponed, at most 8 times; else what was postponed is issued. -/
def doRefreshDue (group : Nat) (s : State) : State :=
  if 4 ≤ group then s
  else
    let n := kvGet s.mem.postponed group 0
    let n := if s.panics then min (n + 1) 8 else 0
    syncPostponed (s.withMem (fun m => { m with postponed := kvSet m.postponed group n }))

/-- MR4_POLL (R291). -/
def doMr4Poll (rates : List Nat) (s : State) : State := s.set .MEM_REF_STATUS_RATE (rates.foldl (fun a r => max a (r % 32)) 0)

/-- MEM_STRIPE_STATUS.RETRAIN: bit g while a channel of line group g retrains. -/
def syncRetrain (s : State) : State :=
  s.set .MEM_STRIPE_STATUS_RETRAIN ((List.range 4).foldl (fun v g =>
    if s.mem.retrain.any (fun k => k % 4 == g) then setBit v g else v) 0)

/-- A retraining of a channel begins (R293). -/
def beginRetrain (stripe channel : Nat) (s : State) : State :=
  let k := stripe * 4 + channel
  syncRetrain ((s.withMem (fun m => { m with retrain := if m.retrain.contains k then m.retrain else m.retrain ++ [k] })).bump
    .MEM_RETRAINS_COUNT)

/-- DQS_OSC_CHECK (R293): one channel at a time. -/
def doDqsOscCheck (stripe channel drift : Nat) (s : State) : State :=
  if 5 < stripe ∨ 3 < channel ∨ s.bitB .MEM_STRIPE_STATUS_FAILED 0 stripe ∨ s.mode = Mode.dormant ∨
    !s.mem.retrain.isEmpty then s
  else if max 1 (s.get .MEM_TRAIN_CTL_DRIFT) < drift then beginRetrain stripe channel s
  else s

/-- CHANNEL_RETRAIN_COMPLETE (R282, R293): a second failure in succession marks the stripe. -/
def doChannelRetrainComplete (stripe channel : Nat) (ok : Bool) (s : State) : State :=
  let k := stripe * 4 + channel
  if !s.mem.retrain.contains k ∨ 3 < channel then s
  else
    let s := syncRetrain (s.withMem (fun m => { m with retrain := m.retrain.filter (· != k) }))
    if ok then s.withMem (fun m => { m with badTrain := kvDel m.badTrain k })
    else
      let n := kvGet s.mem.badTrain k 0 + 1
      let s := s.withMem (fun m => { m with badTrain := kvSet m.badTrain k n })
      if 2 ≤ n then markStripe 0 stripe (s.withMem (fun m => { m with badTrain := kvDel m.badTrain k }))
      else beginRetrain stripe channel s

/-- PATROL_SCRUB_READ (R295): the next line of the pass. -/
def doPatrolScrubRead (errs : List SymbolError) (s : State) : State :=
  let pos := s.get .MEM_SCRUB_STATUS_POS
  if !s.on .MEM_SCRUB_CTL_ENABLE ∨ !(s.mode = Mode.frond ∨ s.mode = Mode.standby) ∨ s.memHolds pos false then s
  else
    let s := (readLine true pos (touchBank pos (addErrs pos errs s))).2
    if pos + 1 < dramLines then s.set .MEM_SCRUB_STATUS_POS (pos + 1)
    else
      let s := (s.set .MEM_SCRUB_STATUS_POS 0).set .MEM_SCRUB_STATUS_PASSES (s.get .MEM_SCRUB_STATUS_PASSES + 1)
      s.withMem (fun m => { m with passCorr := [] })

/-- JNL_STATUS.SINGLE: some block is written in one copy only. -/
def syncSingle (s : State) : State := s.set .JNL_STATUS_SINGLE (b2n (!s.jnl.oneCopy.isEmpty))

/-- Blocks of an area of the MRAM. DESIGN CHOICE, log entry 59. -/
def areaBlocks : MramArea → Nat
  | .journal => jnlSlots
  | .changeLog => 0x400000
  | .descLog => 0x200000
  | .custody => 0x100000
  | .device => 0x80000
  | .firmware => 0x80000

/-- The MRAM block number a capture holds, numbered as the journal window lays the areas out. DESIGN CHOICE, log entry 59. -/
def mramBlock (area : MramArea) (block : Nat) : Nat :=
  block + (match area with
    | .journal => 0
    | .changeLog => 0x60000000 / 64
    | .descLog => 0x70000000 / 64
    | .custody => 0x78000000 / 64
    | .device => 0x7C000000 / 64
    | .firmware => 0x7E000000 / 64)

/-- Whether a slot lies in the live range (R299). -/
def State.slotLive (s : State) (slot : Nat) : Bool :=
  let h := s.get .JNL_HEAD_COUNT
  decide ((slot + jnlSlots - h % jnlSlots) % jnlSlots < s.get .JNL_TAIL_COUNT - h)

/-- What a scrub read leaves in the copies of a journal slot. -/
def setSlot (slot : Nat) (a b : JCopy) (s : State) : State :=
  s.withJnl (fun j =>
    { j with slots := if a = .empty ∧ b = .empty then kvDel j.slots slot else kvSet j.slots slot { a := a, b := b } })

/-- JNL_SCRUB_READ (R306, R307): a copy on a die that is not usable is neither read nor rewritten. -/
def doJnlScrubRead (area : MramArea) (block : Nat) (badA badB : Bool) (s : State) : State :=
  if !s.on .JNL_SCRUB_CTL_ENABLE ∨ areaBlocks area ≤ block then s
  else
    let sl := if area = .journal then kvGet s.jnl.slots block { a := .empty, b := .empty } else { a := .empty, b := .empty }
    let okA := s.copyOk area block false
    let okB := s.copyOk area block true
    let gone := s.jnl.lost.contains (area, block)
    let a : JCopy := if badA || gone then .bad else sl.a
    let b : JCopy := if badB || gone then .bad else sl.b
    let goodA := okA && a != .bad
    let goodB := okB && b != .bad
    if goodA && goodB then s
    else if goodA || goodB then
      if okA && okB then
        let c := if goodA then a else b
        let s := if area = .journal then setSlot block c c s else s
        let s := syncSingle (s.withJnl (fun j => { j with oneCopy := j.oneCopy.filter (· != (area, block)) }))
        raiseCe 26 13 4 (mramBlock area block) 0 (s.bump .JNL_REPAIRED_COUNT)
      else if area = .journal then setSlot block a b s else s
    else
      let s := if area = .journal then setSlot block .bad .bad s
        else s.withJnl (fun j => { j with lost := if gone then j.lost else j.lost ++ [(area, block)] })
      let s := s.bump .JNL_LOST_COUNT
      let s := if area = .journal && s.slotLive block then s.bump .JNL_LOST_LIVE_COUNT else s
      raiseUe 26 1 13 4 (mramBlock area block) 0 s

/-- MRAM_DIE_FAIL (R307). -/
def doMramDieFail (die : Nat) (s : State) : State :=
  if 3 < die ∨ !s.dieOk die then s
  else
    let s := (s.setBitB .JNL_STATUS_DIES 0 die false).set .JNL_STATUS_SINGLE 1
    let partner := if die % 2 = 0 then die + 1 else die - 1
    raiseUe 26 (if s.dieOk partner then 1 else 3) 0 4 0 0 s

end Sys2Proof.Machine
end

