-- ==== Sys2Proof/Machine/Epb.lean ====
section
/-!
DEFINITION. The energy window (R35 to R37, ENG_EPB registers).
-/

namespace Sys2Proof.Machine

/-- The window conditions that stand rather than happen: DEGRADED while a stripe is marked failed, CALSTALE when the
calibration is over 1 h old or the die temperature has moved by more than 10 °C since, GUARD while an island is raised by
more than 25 steps of 0.1%, which R596 never lets happen. -/
def epbStanding (s : State) : State :=
  let s := if s.get .MEM_STRIPE_STATUS_FAILED = 0 then s else epbFlag .ENG_EPB_FLAGS_DEGRADED s
  let s := if s.mod_.age.any (fun q => decide (25 < q.2)) then epbFlag .ENG_EPB_FLAGS_GUARD s else s
  let now := sext (s.get .PWR_TEMP_TJ_MAX) 16
  let was := sext s.eng.epbCalTemp 16
  let stale := match s.eng.epbCalAt with
    | none => false
    | some t => decide (t + 3600000000000 < s.now) || decide (80 < (now - was).natAbs)
  if stale then epbFlag .ENG_EPB_FLAGS_CALSTALE s else s

/-- The standing conditions of a window that is open. -/
def epbWatch (s : State) : State := if s.on .ENG_EPB_CTL_OPEN then epbStanding s else s

/-- EPB_START. Until STOP the window's energy and time read 0. DESIGN CHOICE, log entry 58. -/
def doEpbStart (o : Origin) (s : State) : State :=
  reach o .ENG_EPB_CTL (fun s =>
    if s.on .ENG_EPB_CTL_CAL_BUSY then s
    else
      let s := (((s.set .ENG_EPB_BYTES_IN_BYTES 0).set .ENG_EPB_BYTES_MEDIA_BYTES 0).set .ENG_EPB_ENERGY_UJ 0).set .ENG_EPB_TIME_NS 0
      let s := [Fld.ENG_EPB_FLAGS_NONDEFAULT, .ENG_EPB_FLAGS_HITS, .ENG_EPB_FLAGS_RETRY, .ENG_EPB_FLAGS_DEGRADED,
        .ENG_EPB_FLAGS_CALSTALE, .ENG_EPB_FLAGS_COMPRESSED, .ENG_EPB_FLAGS_RESTORE, .ENG_EPB_FLAGS_GUARD].foldl
          (fun s f => s.set f 0) s
      epbStanding ((s.set .ENG_EPB_CTL_OPEN 1).withEng (fun e => { e with epbStart := s.now }))) s

/-- EPB_STOP; `uj` is what the energy monitors read over the window. -/
def doEpbStop (o : Origin) (uj : Nat) (s : State) : State :=
  reach o .ENG_EPB_CTL (fun s =>
    if s.on .ENG_EPB_CTL_OPEN then
      let s := epbStanding s
      ((s.set .ENG_EPB_CTL_OPEN 0).set .ENG_EPB_ENERGY_UJ uj).set .ENG_EPB_TIME_NS (s.now - s.eng.epbStart)
    else s) s

/-- EPB_CAL. -/
def doEpbCal (o : Origin) (s : State) : State :=
  reach o .ENG_EPB_CTL (fun s => s.set .ENG_EPB_CTL_CAL_BUSY 1) s

/-- EPB_CAL_DONE: `traffic` says whether data-path traffic occurred, `mw` the idle power measured. -/
def doEpbCalDone (traffic : Bool) (mw : Nat) (s : State) : State :=
  if s.on .ENG_EPB_CTL_CAL_BUSY then
    let s := s.set .ENG_EPB_CTL_CAL_BUSY 0
    if traffic then s.set .ENG_EPB_CTL_CAL_VALID 0
    else
      ((s.set .ENG_EPB_CTL_CAL_VALID 1).set .ENG_EPB_IDLE_MW mw).withEng (fun e =>
        { e with epbCalAt := some s.now, epbCalTemp := s.get .PWR_TEMP_TJ_MAX })
  else s

/-- Energy per byte in pJ/B, 24.8 fixed point, rounded down: of an energy in µJ, an idle power in mW, a time in ns and a
count of bytes (*ENG_EPB_RESULT*); a free value where the quantity is negative or does not fit. DESIGN CHOICE, log entry 58. -/
def epbRate (free uj mw ns n : Nat) : Nat :=
  let q := (uj * 1000000 - mw * ns) * 256 / n
  if uj * 1000000 < mw * ns ∨ 0xFFFFFFFF < q then Config.freeNat free % 2 ^ 32 else q

/-- ENG_EPB_RESULT as read. DESIGN CHOICE, log entry 58. -/
def State.epbResult (s : State) : Nat :=
  let n := s.get .ENG_EPB_BYTES_IN_BYTES
  if n = 0 ∨ !s.on .ENG_EPB_CTL_CAL_VALID then 0xFFFFFFFF
  else epbRate s.free (s.get .ENG_EPB_ENERGY_UJ) (s.get .ENG_EPB_IDLE_MW) (s.get .ENG_EPB_TIME_NS) n

/-- EPB_LIVE_UPDATE: the bytes that entered in the last second and the energy of it. DESIGN CHOICE, log entry 58. -/
def doEpbLiveUpdate (n uj : Nat) (s : State) : State :=
  if n < 1000000000 then s.set .ENG_EPB_LIVE_PJB 0
  else if !s.on .ENG_EPB_CTL_CAL_VALID then s.set .ENG_EPB_LIVE_PJB 0xFFFFFFFF
  else
    let (k, s) := s.draw
    s.set .ENG_EPB_LIVE_PJB (epbRate k uj (s.get .ENG_EPB_IDLE_MW) 1000000000 n)

end Sys2Proof.Machine
end

