-- ==== Sys2Proof/Machine/Journal.lean ====
section
/-!
DEFINITION. What journal records do: their durability and the actions that wait for it, retiring, carrying, replay and
re-drive (R129 to R144, R299 to R302, R521).
-/

namespace Sys2Proof.Machine

/-! ## Live and dead records -/

/-- Whether both words of a program are covered (R134). -/
def State.retiredProg (s : State) (sch token : Nat) : Bool :=
  s.jnl.covered.contains (0, sch, token) && s.jnl.covered.contains (3, sch, token)

/-- Whether a record is one of a program's. -/
def JRec.ofProg (r : JRec) : Bool :=
  match r.body with
  | .retire .. | .reset .. => false
  | _ => true

/-- Whether two records belong to the same program. -/
def JRec.sameProg (r q : JRec) : Bool := q.ofProg && r.sch == q.sch && r.token == q.token

/-- Whether a record opens a program's trail. -/
def JRec.isStart (r : JRec) : Bool :=
  match r.body with
  | .start .. => true
  | _ => false

/-- Whether the record in the slot of count `n` is dead (R134, R299, R300): its program is retired or was carried to a
later START, or a later RETIRE or RESET record stands for it. -/
def State.deadRec (s : State) (live : List (Nat × JRec)) (n : Nat) (r : JRec) : Bool :=
  let later := live.filter (fun q => decide (n < q.1))
  match r.body with
  | .retire cq _ => later.any (fun q => q.2.fn == r.fn && (match q.2.body with
      | .retire c _ => c == cq
      | _ => false))
  | .reset .. => later.any (fun q => q.2.fn == r.fn && (match q.2.body with
      | .reset .. => true
      | _ => false))
  | _ => s.retiredProg r.sch r.token || later.any (fun q => r.sameProg q.2 && q.2.isStart)

/-- JNL_HEAD steps over dead records (R134, R300). -/
def stepHead : Nat → State → State
  | 0, s => s
  | f + 1, s =>
    let h := s.get .JNL_HEAD_COUNT
    if h = s.get .JNL_TAIL_COUNT then s
    else match s.jnlRec h with
      | none => s
      | some r => if s.deadRec s.jnlLive h r then stepHead f (s.set .JNL_HEAD_COUNT (h + 1)) else s

/-- Brings CSS_JNL_FREE up to date; an episode without free slots ends at 65_536 (R299, R302). -/
def syncFree (s : State) : State :=
  let s := s.set .CSS_JNL_FREE_RECORDS s.jnlFree
  if 65536 ≤ s.jnlFree then s.withJnl (fun j => { j with noSlot := false }) else s

/-- Words that RETIRE records cover: the head steps on, and coverage of programs without records is forgotten. -/
def cover (words : List (Nat × Nat × Nat)) (s : State) : State :=
  let s := s.withJnl (fun j => { j with covered := j.covered ++ words.filter (fun w => !j.covered.contains w) })
  let s := stepHead (s.get .JNL_TAIL_COUNT - s.get .JNL_HEAD_COUNT) s
  let live := s.jnlLive
  syncFree (s.withJnl (fun j =>
    { j with covered := j.covered.filter (fun w => live.any (fun q => q.2.sch == w.2.1 && q.2.token == w.2.2)) }))

/-! ## Records and what waits for them -/

/-- Ends the trail of a program run for another node, once its final status is acknowledged or lost for good. -/
def coverExec (k token : Nat) (s : State) : State := cover [(0, k, token), (3, k, token)] s

/-- A START record is durable: the program may run. For a remote subchannel it is sent to its node (R101), unless the function
is being reset (R145). -/
def startDurable (k : Nat) (s : State) : State :=
  let s := modProg k (fun p => { p with journaled := true }) s
  let b := s.subAt k
  match b.prog with
  | some p =>
    if b.remote && !isExec k && !s.over k p then
      sendRemote 1 b.node (p.token % 65536) p.token 0 k b.fn 0 (leBytes 8 p.start) [] (setSt k .active s)
    else s
  | none => s

/-- A FINAL record is durable: the word is posted when its queue has room and no word waits before it, else the subchannel
enters STATUS PENDING (R119, R123, R124); on an executing node it is sent to the attached node (R103). One of a function reset
is retired at once (R147), and one that a function reset overtakes is not posted (R148). DESIGN CHOICE, log entry 76. -/
def finalDurable (k : Nat) (w : StatusWord) (posted : Bool) (s : State) : State :=
  let now := (s.progAt k).map (·.token) == some w.token
  if !posted then cover [(0, k, w.token), (1, k, w.token), (2, k, w.token), (3, k, w.token)] s
  else if isExec k then
    let s := sendStatus k w s
    if now then finishProg k s else s
  else
    let b := s.subAt k
    if b.st = .resetting then s
    else
      let s := queuePost b.fn b.cq { w := w, sch := k, kind := .final, cover := some 3 } s
      let s := if now then setSt k .statusPending s else s
      if (kvGet s.css.posts (cqKey b.fn b.cq) []).length = 1 then doStatusWordPost b.fn b.cq s else s

/-- One action that waited for a record. -/
def runAct (s : State) (a : JAct) : State :=
  match a with
  | .post fn cq w k n => queuePost fn cq { w := w, sch := k, kind := .reply, cover := some n } s
  | .retired l => cover l s
  | .started k => startDurable k s
  | .stageEnd k =>
    match (s.progAt k).bind (·.run) with
    | some r => if r.place = .stage then finishOrder k s else s
    | none => s
  | .stripe k id => stripeDurable k id s
  | .object k => objectDurable k s
  | .final k w posted => finalDurable k w posted s
  | .halted k kind => haltDurable k kind s

/-- The actions of a record, in order. -/
def runActs (l : List JAct) (s : State) : State := l.foldl runAct s

/-- What the mirror stream carries of a record: its bytes, and for STAGE the block the order named (DESIGN CHOICE, log entry 26). -/
def JRec.mirrorBytes (r : JRec) : List Byte :=
  r.bytes ++ (match r.body with
    | .stage _ _ block => block
    | _ => [])

/-- The words a RETIRE record covers, as the mirror stream carries them behind it (DESIGN CHOICE, log entry 26). -/
def coverBytes (l : List (Nat × Nat × Nat)) : List Byte :=
  l.flatMap (fun w => leBytes 2 w.1 ++ leBytes 6 w.2.1 ++ leBytes 8 w.2.2)

/-- What the mirror stream carries of a record asked for. DESIGN CHOICE, log entry 26. -/
def JPend.mirrorBytes (p : JPend) : List Byte :=
  p.record.mirrorBytes ++ p.acts.flatMap (fun a => match a with
    | .retired l => coverBytes l
    | _ => [])

/-- The START of a program whose token one before it had, that is retired: coverage of that one's words says nothing of the
new program's (R106, R134). -/
def freshStart (r : JRec) (s : State) : State :=
  if r.isStart && s.retiredProg r.sch r.token then
    s.withJnl (fun j => { j with covered := j.covered.filter (fun w => !(w.2.1 == r.sch && w.2.2 == r.token)) })
  else s

/-- Behind a RESET record no OBJECT record of the function's old programs is written (R146). -/
def afterReset (r : JRec) (s : State) : State :=
  match r.body with
  | .reset .. => s.withJnl (fun j => { j with pending := j.pending.filter (fun q =>
      !(q.record.fn == r.fn && !isExec q.record.sch && (match q.record.body with
        | .object .. => true
        | _ => false))) })
  | _ => s

/-- Writes a record and mirrors it; while the standby is in step its actions wait for the acknowledgement (R130, R521). -/
def recordDurable (p : JPend) (s : State) : State :=
  let s := afterReset p.record (jnlPut p.record (freshStart p.record s))
  let (q, s) := mirror pairJournal p.mirrorBytes s
  match q with
  | some n => if s.inStep then s.withCss (fun c => { c with mirrorWait := c.mirrorWait ++ [(n, p.acts)] }) else runActs p.acts s
  | none => runActs p.acts s

/-- The first element that `f` accepts, and the list without it. -/
def takeFirst {α : Type} (f : α → Bool) : List α → Option (α × List α)
  | [] => none
  | x :: t => if f x then some (x, t) else (takeFirst f t).map (fun q => (q.1, x :: q.2))

/-- JOURNAL_RECORD_DURABLE (R130, R302): the oldest record that may be written is written. Without a free slot every record
waits, and the CSS source is raised once an episode. -/
def doJournalRecordDurable (s : State) : State :=
  match takeFirst (fun p => s.jnlTakes p.record) s.jnl.pending with
  | some (p, rest) => recordDurable p (s.withJnl (fun j => { j with pending := rest }))
  | none =>
    if s.jnl.pending.isEmpty ∨ s.jnlFree ≠ 0 ∨ s.jnl.noSlot then s
    else raiseUe 27 1 0 0 0 0 (s.withJnl (fun j => { j with noSlot := true }))

/-- RETIRE_RECORD_WRITE (R134): one record covers every advance made before it. -/
def doRetireRecordWrite (fn cq : Nat) (s : State) : State :=
  let q := cqKey fn cq
  match kvGet? s.css.retire q with
  | none => s
  | some l =>
    let s := s.withCss (fun c => { c with retire := kvDel c.retire q })
    jnlAsk { sch := 0, token := 0, seq := 0, fn := fn, node := s.node, body := .retire cq (s.getB .FN_CQ_HEAD_HEAD q) }
      [.retired l] s

/-- What a carry copies of the program of a record: its live records without the STRIPE records before its latest OBJECT
record (R300). DEDUCED, log entry 32. -/
def carrySet (live : List (Nat × JRec)) (r : JRec) : List JRec :=
  let l := live.filter (fun q => r.sameProg q.2)
  let objs := l.filter (fun q => match q.2.body with
    | .object .. => true
    | _ => false)
  let last := (objs.getLast?.map (·.1)).getD 0
  (l.filter (fun q => match q.2.body with
    | .stripe .. => decide (last ≤ q.1)
    | _ => true)).map (·.2)

/-- JOURNAL_CARRY (R300, R302): the live record at the head, with its program's, is copied to the tail; then the head moves
on. DEDUCED, log entry 32. -/
def doJournalCarry (s : State) : State :=
  let s := syncFree (stepHead (s.get .JNL_TAIL_COUNT - s.get .JNL_HEAD_COUNT) s)
  let h := s.get .JNL_HEAD_COUNT
  match s.jnlRec h with
  | none => s
  | some r =>
    if h = s.get .JNL_TAIL_COUNT ∨ s.mode = Mode.spore ∨ s.on .JNL_STATUS_REFUSING then s
    else
      let l := if r.ofProg then carrySet s.jnlLive r else [r]
      if s.jnlFree < l.length then s
      else
        let s := l.foldl (fun s r => (mirror pairJournal r.mirrorBytes (jnlPut r s)).2) s
        let s := s.bump .JNL_CARRIED_COUNT
        syncFree (stepHead (s.get .JNL_TAIL_COUNT - h) (s.set .JNL_HEAD_COUNT (h + 1)))

/-! ## Replay -/

/-- What reconciling the copies of a slot gives (R135). -/
inductive Recon where
  | empty | found (r : JRec) | both (a b : JRec) | lost
  deriving DecidableEq, Repr

/-- A copy that passes its check, when its die is usable. -/
def State.copyRec (s : State) (slot : Nat) (second : Bool) (c : JCopy) : Option JRec :=
  if s.copyOk .journal slot second then c.rec? else none

/-- Reconciles a slot (R135). -/
def State.reconcile (s : State) (n : Nat) : Recon :=
  let slot := n % jnlSlots
  match kvGet? s.jnl.slots slot with
  | none => .empty
  | some sl =>
    match s.copyRec slot false sl.a, s.copyRec slot true sl.b with
    | none, none => if sl.a = .empty ∧ sl.b = .empty then .empty else .lost
    | some a, none => .found a
    | none, some b => .found b
    | some a, some b =>
      if a = b then .found a
      else if a.seq = b.seq then .both a b
      else .found (if a.seq < b.seq then b else a)

/-- The reconciled slots of the live range, with their counts. -/
def State.reconciled (s : State) : List (Nat × Recon) :=
  let h := s.get .JNL_HEAD_COUNT
  (List.range (s.get .JNL_TAIL_COUNT - h)).map (fun i => (h + i, s.reconcile (h + i)))

/-- Whether replay can read the journal (R135). -/
def State.journalReadable (s : State) : Bool := s.reconciled.all (fun q => q.2 != .lost)

/-- The records replay uses of one program, in order (R301): from its first START record up to a second one. -/
def usable (l : List JRec) : List JRec :=
  match l.dropWhile (fun r => !r.isStart) with
  | [] => []
  | r :: t => r :: t.takeWhile (fun r => !r.isStart)

/-- The FINAL word of a program's records. -/
def finalOf (l : List JRec) : Option StatusWord :=
  l.findSome? (fun r => match r.body with
    | .final w => some w
    | _ => none)

/-- Numbers without repeats, in order of first appearance, of the programs records name. -/
def progsOf (l : List JRec) : List (Nat × Nat) := ((l.filter JRec.ofProg).map (fun r => (r.sch, r.token))).eraseDups

/-- The latest OBJECT record of a program's records, with what stands before and after it; without one the START record
alone is the checkpoint (R138). -/
def atCheckpoint (l : List JRec) : Option JRec × List JRec × List JRec :=
  let isObj := fun (r : JRec) => match r.body with
    | .object .. => true
    | _ => false
  match (l.filter isObj).getLast? with
  | some o => (some o, l.takeWhile (· != o), (l.dropWhile (· != o)).drop 1)
  | none => (none, [], l.drop 1)

/-- The stage set that STAGE records build, and the keys they name (R138). -/
def stagesOf (l : List JRec) : StageSet × List Nat :=
  l.foldl (fun a r => match r.body with
    | .stage raw _ block =>
      let o := parseOrd raw
      (stageSet o block a.1, if (o.op = opSeal ∨ o.op = opUnseal) ∧ !a.2.contains o.pa then a.2 ++ [o.pa] else a.2)
    | _ => a) ({}, [])

/-- The stripes that records after a checkpoint name, those given up by an ABANDON record left out; a record read twice counts
once (R131, R138). -/
def stripesAfter (l : List JRec) : List Nat :=
  (l.foldl (fun (a : List Nat) q => match q.body with
    | .abandon .. => []
    | .stripe id .. => if a.contains id then a else a ++ [id]
    | _ => a) [])

/-- The program that a program's records describe, standing at its checkpoint; its stripes are those journaled after it
and not yet given up (R138, R139). -/
def progFrom (k : Nat) (l : List JRec) : Option (Prog × JRec) :=
  match l with
  | [] => none
  | r :: _ =>
    match r.body with
    | .start addr tag _ remote att =>
      let (o, before, after) := atCheckpoint l
      let (stages, keys) := stagesOf before
      let p : Prog :=
        { token := r.token, start := addr, tag := tag, attached := if remote then some att else none, journaled := true
          next := addr, fetchAt := none, stages := stages, keys := keys, stripes := stripesAfter after, redriven := true
          askFirst := isExec k }
      let ob : Option JBody := o.map (·.body)
      match ob with
      | some (.object _ ord _ next conds cursor _) =>
        some ({ p with next := next, conds := conds, obj := ord + 1, cursor := cursor
                       cursorGen := (stages.spread.map (·.gen)).getD 0 }, r)
      | _ => some (p, r)
    | _ => none

/-- The subchannel a START record's program is put back into: the function's own, or one of a program run for another
node. -/
def State.subFor (s : State) (k fn : Nat) : Option Sub :=
  if isExec k then
    some { fn := fn, rel := execSch k, cq := 0, remote := true, node := s.node }
  else match kvGet? s.css.subs k with
    | some b => if b.fn = fn then some b else none
    | none => none

/-- A reply posted again (R137): condition code 0, the token and host tag of the record, the program's address. -/
def State.oldReply (s : State) (b : Sub) (token tag addr : Nat) : StatusWord :=
  { sch := b.rel, flags := flCtl + flRepost, token := token, bits := 0, residual := tag, addr := addr
    node := s.execNodeOf b }

/-- The words replay posts again for one program, with their record sequences (R137). -/
def State.oldWords (s : State) (k : Nat) (b : Sub) (l : List JRec) : List (Nat × Post) :=
  let start := (l.head?.map (fun r => match r.body with
    | .start addr .. => addr
    | _ => 0)).getD 0
  let due := fun (n token : Nat) => !s.jnl.covered.contains (n, k, token)
  l.filterMap (fun r => match r.body with
    | .start addr tag .. =>
      if due 0 r.token then
        some (r.seq, { w := s.oldReply b r.token tag addr, sch := k, kind := .reply, cover := some 0 }) else none
    | .haltreq kind tag =>
      if due kind r.token then
        some (r.seq, { w := s.oldReply b r.token tag start, sch := k, kind := .reply, cover := some kind }) else none
    | .final w =>
      if due 3 r.token ∧ !(w.reason = 0x0506 ∧ w.bits.testBit 7) then
        some (r.seq, { w := { w with flags := w.flags ||| flRepost }, sch := k, kind := .final, cover := some 3 }) else none
    | _ => none)

/-- Puts a program back into its subchannel, unless a later program of it stands there: of an older one only words are left
(R138, R142). -/
def putBack (k : Nat) (b : Sub) (p : Prog) (st : SubState) (s : State) : State :=
  if (s.progAt k).any (fun q => decide (p.token / 65536 < q.token / 65536)) then s
  else
  let b := { b with prog := some p, st := st, seq := max b.seq (p.token / 65536) }
  s.withCss (fun c => { c with subs := kvSet c.subs k b })

/-- A program of an older generation, or whose subchannel is gone: a function reset was cut short (R147). -/
def replayReset (k : Nat) (r : JRec) (p : Prog) (s : State) : State :=
  let w : StatusWord :=
    { sch := 0, flags := flFinal, token := r.token, bits := stStop + stSettled, addr := p.next, reason := 0x0506, node := r.node }
  let rec_ := fun (b : JBody) => { r with body := b }
  let s := match p.stripes with
    | [] => s
    | id :: _ => (jnlAsk (rec_ (.abandon p.obj 0x0506 id p.stripes.length)) [] s).bump .CSS_ABANDONED_COUNT
  let s := dlogDrop k p 0x0506 s
  (jnlAsk (rec_ (.final w)) [.final k w false] s).bump .CSS_RESET_ENDED_COUNT

/-- The program that the records of one describe, or, where they hold no START, the little that the record of an
indeterminate slot that names it says (R136). -/
def progNamed (k : Nat) (l : List JRec) (undecided : Option JRec) : Option (Prog × JRec) :=
  (progFrom k l).or (undecided.map (fun r => (progFrom k [r]).getD
    ({ token := r.token, start := 0, tag := 0, journaled := true, next := 0, fetchAt := none, redriven := true }, r)))

/-- Replay of one program (R136 to R139): what it posts again, and the state of its subchannel. `undecided`: a record that
names it in an indeterminate slot. DEDUCED, log entry 87. -/
def replayProg (k : Nat) (l : List JRec) (undecided : Option JRec) (s : State) : List (Nat × Post) × State :=
  match progNamed k l undecided with
  | none => ([], s)
  | some (p, r) =>
    match s.subFor k r.fn with
    | none => ([], if (finalOf l).isSome then s else replayReset k r p s)
    | some b =>
      let words := if isExec k then [] else s.oldWords k b l
      match finalOf l with
      | some w =>
        let reset := w.reason == 0x0506 && w.bits.testBit 7
        if reset then (words, cover [(0, k, w.token), (1, k, w.token), (2, k, w.token), (3, k, w.token)] s)
        else if s.jnl.covered.contains (3, k, r.token) then (words, s)
        else if isExec k then (words, sendStatus k { w with flags := w.flags ||| flRepost } (putBack k b p .statusPending s))
        else (words, putBack k b { p with stripes := [], ending := some w } .statusPending s)
      | none =>
        if !isExec k ∧ r.token % 65536 ≠ s.gen r.fn then ([], replayReset k r p s)
        else if undecided.isSome then
          let w : StatusWord :=
            { sch := b.rel, flags := flFinal + flRepost, token := r.token, bits := stInd + stSettled, addr := p.start
              reason := 0x050C, node := s.node }
          let s := putBack k b { p with stripes := [], ending := some w } .statusPending s
          (words, (jnlAsk { r with body := .final w } [.final k w true] s).bump .CSS_IND_COUNT)
        else (words, putBack k b p .redrive s)

/-- Inserts by record sequence. -/
def insertSeq (x : Nat × Post) : List (Nat × Post) → List (Nat × Post)
  | [] => [x]
  | y :: t => if x.1 < y.1 then x :: y :: t else y :: insertSeq x t

/-- Queues up the words of replay in record-sequence order (R137). -/
def postOld (l : List (Nat × Post)) (s : State) : State :=
  (l.foldl (fun a x => insertSeq x a) []).foldl (fun s x =>
    let b := s.subAt x.2.sch
    queuePost b.fn b.cq x.2 s) s

/-- Functions that exist, the PF first. -/
def State.functions (s : State) : List Nat := (List.range 65).filter (fun f => (s.fnOf f).created)

/-- The recovery-complete notice on every queue of every function (R137); where the spec gives no value it names subchannel 0,
the function's generation and the own node. DESIGN CHOICE, log entry 45. -/
def postNotices (s : State) : State :=
  s.functions.foldl (fun s f => (List.range (s.ncqOf f)).foldl (fun s q =>
    queuePost f q
      { w := { sch := 0, flags := flCtl + flRepost, token := tokenOf 0 (s.gen f), bits := 0, addr := 0, reason := 0x0507, node := s.node }
        sch := 0, kind := .notice } s) s) s

/-- Step 5 of R212 at replay, for an object whose OBJECT record is durable and whose descriptor-log entries are not settled: its
stripes enter custody and the directory (R212, R225). What the index was to be told is lost with the pending table (R132). -/
def replayCustody (token obj : Nat) (s : State) : State :=
  let es := ((s.eng.dlog.filter (fun q => q.2.token == token && q.2.obj == obj && !q.2.settled)).map (·.2.data))
  let stripes := es.filter (fun d => fieldAt d 0 1 == 0x11)
  let s := stripes.foldl (fun s d =>
    let rest := (es.dropWhile (· != d)).drop 1
    let k := fieldAt d 1 1
    let m := fieldAt d 2 1
    let shards := (rest.filter (fun d => fieldAt d 0 1 == 0x12)).take (k + m)
    let chunks := es.filter (fun e => fieldAt e 0 1 == 0x13 && fieldAt e 16 8 == fieldAt d 8 8)
    dirPut (chunks.map (fun e => (fieldAt e 8 8, e))) (fieldAt d 8 8) (d :: shards).flatten
      (enterCustody
        { id := fieldAt d 8 8, k := k, m := m, repair := false, hashes := shards.map (fun d => bytesAt d 12 48) } s)) s
  coverBoth token obj s

/-- The purge slots after replay: a program that is re-driven counts as the program it was, no other is waited for (R170). -/
def purgesAfter (s : State) : State :=
  purgeDone (s.withEng (fun e => { e with purges := e.purges.map (fun q =>
    (q.1, { q.2 with waits := q.2.waits.filter (fun w => (s.progAt w.1).any (fun p => p.token == w.2)) })) }))

/-- Journal replay (R135 to R139, R225, R301), the journal being readable. -/
def replay (s : State) : State :=
  let rc := s.reconciled
  let recs := rc.filterMap (fun q => match q.2 with
    | .found r => some r
    | _ => none)
  let named := (rc.flatMap (fun q => match q.2 with
    | .both a b => [a, b]
    | _ => [])).filter JRec.ofProg
  let s := recs.foldl (fun s r => match r.body with
    | .object _ ord .. => if s.eng.cusLastObj < r.seq then replayCustody r.token ord s else s
    | _ => s) s
  let (words, s) : List (Nat × Post) × State := (progsOf (recs ++ named)).foldl (fun (a : List (Nat × Post) × State) p =>
    let l := usable (recs.filter (fun r => r.ofProg && r.sch == p.1 && r.token == p.2))
    let (w, s) := replayProg p.1 l (named.find? (fun r => r.sch == p.1 && r.token == p.2)) a.2
    (a.1 ++ w, s)) ([], s)
  postNotices (postOld words (purgesAfter s))

/-! ## Re-drive -/

/-- The control of a HALTREQ record of a program (R139): CLEAR before HALT. -/
def State.haltAsked (s : State) (k token : Nat) : Option Nat :=
  let l := s.jnlLive.filterMap (fun q => if q.2.sch = k ∧ q.2.token = token then (match q.2.body with
    | .haltreq kind _ => some kind
    | _ => none) else none)
  if l.contains 2 then some 2 else if l.contains 1 then some 1 else none

/-- What a program gives up when it goes on from its checkpoint: the object begun after it, in an ABANDON record and a DROP
entry (R138, R213). -/
def giveUp (k : Nat) (p : Prog) (s : State) : State :=
  let s := modProg k (fun p => { p with stripes := [], askFirst := false })
    (dlogDrop k p 0x050D (askAbandon k p 0x050D s))
  s.withJnl (fun j => { j with stopped := kvDel j.stopped p.token })

/-- A program in REDRIVE goes on (R119, R138, R139): a halted one ends at its checkpoint; a remote one is sent to its node
again; any other becomes ACTIVE once an order engine has room for it. -/
def redriveGo (k : Nat) (p : Prog) (s : State) : State :=
  match s.haltAsked k p.token with
  | some 1 => haltProg k p s
  | some _ => clearProg k p s
  | none =>
    if (s.subAt k).remote && !isExec k then startDurable k (giveUp k p s)
    else match s.freeEngine with
      | some e => if s.fnHasSlot k then seat k e (giveUp k p s) else modProg k (fun p => { p with askFirst := false }) s
      | none => modProg k (fun p => { p with askFirst := false }) s

/-- REDRIVE_START (R138, R139, R143): a program run for another node first asks whether its final was posted. -/
def doRedriveStart (k : Nat) (s : State) : State :=
  let b := s.subAt k
  match b.prog with
  | none => s
  | some p =>
    if b.st ≠ .redrive ∨ p.ending.isSome ∨ s.mode ≠ Mode.frond then s
    else if p.askFirst then
      sendRemote 7 (execNode k) (p.token % 65536) p.token 0 (execSch k) b.fn 0 [] [] s
    else redriveGo k p s

end Sys2Proof.Machine
end

