-- ==== Sys2Proof/Machine/Remote.lean ====
section
/-!
DEFINITION. What ring messages do once they are delivered: REMOTE messages (R101 to R103, R143, R483) and the mirror stream
on the standby (R521).
-/

namespace Sys2Proof.Machine

/-! ## The executing node -/

/-- Ends a program run for another node without a word of status: what it has not committed is abandoned (R143, R483). DESIGN CHOICE, log entry 76. -/
def dropExec (k bits reason : Nat) (s : State) : State :=
  match s.progAt k with
  | none => s
  | some p =>
    let s := dropObject k p (dlogDrop k p reason (askAbandon k p reason s))
    let s := unbindZones k (dlogMark 4 (dropRequests k p s))
    let w := s.word k p flFinal (bits + s.settledBit k p) 0 p.standsAt reason
    finishProg k (jnlAsk (s.jrec k p.token (.final w)) [.final k w false] s)

/-- REMOTE_START (R101): the program begins here under the key of its attached node; a message for one that is known
already has no effect. A program left over on the subchannel ends first. DESIGN CHOICE, log entry 76. -/
def doRemoteStart (h : RemoteHdr) (addr : Nat) (s : State) : State :=
  let k := execKey h.src h.sch
  if s.mode ≠ Mode.frond ∨ (s.progAt k).map (·.token) = some h.token then s
  else
    let s := dropExec k stRingf 0x0400 s
    let p : Prog := { token := h.token, start := addr, tag := 0, attached := some h.src, next := addr, fetchAt := none }
    let b : Sub :=
      { fn := h.fn, rel := h.sch % 4096, cq := 0, remote := true, node := s.node, st := .startPending, prog := some p }
    let s := s.withCss (fun c => { c with subs := kvSet c.subs k b })
    jnlAsk (s.jrec k h.token (.start addr 0 0 true h.src)) [.started k] s

/-- The key of a program run here for the sender of a message, when it is the one the message names. -/
def State.execOf (s : State) (h : RemoteHdr) : Option Nat :=
  let k := execKey h.src h.sch
  if (s.progAt k).map (·.token) = some h.token then some k else none

/-- REMOTE_CONTROL (R101): HALT 2, CLEAR 3, RESUME 4. -/
def doRemoteControl (h : RemoteHdr) (ctl tag : Nat) (s : State) : State :=
  match s.execOf h with
  | none => s
  | some k =>
    if ctl = 2 ∨ ctl = 3 then
      if (s.progAt k).any (fun p => p.ending.isSome) then s
      else jnlAsk (s.jrec k h.token (.haltreq (ctl - 1) tag)) [.halted k (ctl - 1)] s
    else if ctl = 4 then (resumeProg k s).2
    else s

/-- The blocks a MEDIA order at the front of a program run for another node still needs, after those it has: the next reads,
or none when it has all. -/
def mediaReads (p : Prog) (o : Ord) (k : Nat) (s : State) : Option (List (Nat × Nat)) :=
  let head := if p.join.isNone ∧ !o.dev then 1 else 0
  let list := if o.listReadable (s.subAt k).fn s ∧ !o.dev then 1 else 0
  let got := p.heldData.length
  if got < head then some [(o.pa, 128)]
  else if got < head + list then some [(o.addr, 16 * (o.pb % 65536))]
  else
    let bytes := fun (i : Nat) => match p.heldData[i]? with
      | some (.ok d) => d
      | _ => []
    let dir : Nat := match p.mediaJoin with
      | some m => m.dir
      | none => fieldAt (bytes 0) 33 1
    let segs : List (Nat × Nat) := limitSegs o.count (s.segsOf k o (bytes head))
    let outs : List (Nat × Nat) := if dir == 2 && !o.dev && (badList segs).isNone then segs else []
    if got < head + list + outs.length then (if got = head + list then some outs else some []) else none

/-- The data-out that reads of a program run for another node have brought. -/
def joinReads (l : List HostRead) : HostRead :=
  if l.any (fun r => match r with
    | .failed => true
    | _ => false) then .failed
  else .ok (l.flatMap (fun r => match r with
    | .ok d => d
    | _ => []))

/-- A block for the order at the front of a program run for another node (R101). -/
def feedBlock (k : Nat) (data : HostRead) (s : State) : State :=
  match s.progAt k with
  | none => s
  | some p =>
    match p.fetched with
    | [] => s
    | f :: _ =>
      let o := parseOrd f.raw
      if o.op = opIngest then doOrdIngest k data s
      else if o.op = opSpread then doOrdSpread k data s
      else if o.op = opGather then doOrdGather k data s
      else if o.op = opEmit then (let (n, s) := s.draw; doOrdEmit k data ((Config.freeNat n).testBit 0) s)
      else if o.op = opCall then doOrdCallCore k data s
      else if o.op = opMedia then
        let p := { p with heldData := p.heldData ++ [data] }
        let s := modProg k (fun _ => p) s
        match mediaReads p o k s with
        | some l => l.foldl (fun s q => askHost k 2 q.1 q.2 s) s
        | none =>
          let head := if p.join.isNone ∧ !o.dev then 1 else 0
          let list := if o.listReadable (s.subAt k).fn s ∧ !o.dev then 1 else 0
          doOrdMedia k (p.heldData.getD 0 .failed) (p.heldData.getD head .failed) (joinReads (p.heldData.drop (head + list))) s
      else s

/-- A part of a block that a program run for another node has asked for, at most 9152 bytes: with its last part the block is
whole (R101). -/
def feedPart (k : Nat) (data : HostRead) (s : State) : State :=
  match (s.progAt k).map (fun p => (p, p.blockAsks)) with
  | some (p, n :: t) =>
    let got := p.blockGot ++ [data]
    if got.length < max 1 (divUp n 9152) then modProg k (fun p => { p with blockGot := got }) s
    else feedBlock k (joinReads got) (modProg k (fun p => { p with blockAsks := t, blockGot := [] }) s)
  | _ => s

/-- READ_DATA (R101): what the attached node's host memory held, for the request it echoes: orders 1, a block 2, source
data 3. -/
def doReadData (h : RemoteHdr) (data : HostRead) (s : State) : State :=
  match s.execOf h with
  | none => s
  | some k =>
    if h.req = 1 then (if (s.progAt k).bind (·.fetchAt) = some h.addr then doOrderFetch k data s else s)
    else if h.req = 2 then feedPart k data s
    else if h.req = 3 then doHostReadCompletion k data s
    else s

/-- ANSWER (R143): a program whose final was posted runs no order; one whose final was not goes on. One that echoes request 6
says that the word of a NOTE or MARK is posted (R124). DESIGN CHOICE, log entry 76. -/
def doRemoteAnswer (h : RemoteHdr) (posted : Bool) (s : State) : State :=
  match s.execOf h with
  | none => s
  | some k =>
    match s.progAt k with
    | none => s
    | some p =>
      if h.req = 6 then noteposted k h.token s
      else if (s.subAt k).st ≠ .redrive ∨ !p.askFirst then s
      else if posted then dropExec k stRingf 0x0400 s
      else redriveGo k p s

/-- REMOTE_RESET (R483): the programs of the function's older generations end here. -/
def doRemoteReset (h : RemoteHdr) (gen : Nat) (s : State) : State :=
  let ks := (s.css.subs.filter (fun q => isExec q.1 && execNode q.1 == h.src && q.2.fn == h.fn && (match q.2.prog with
    | some p => p.token % 65536 != gen
    | none => false))).map (·.1)
  ks.foldl (fun s k => resetProg k s) s

/-! ## The attached node -/

/-- The subchannel of the attached node that a message from its executing node names. -/
def State.attachedOf (s : State) (h : RemoteHdr) : Option Nat :=
  let b := s.subAt h.sch
  if !isExec h.sch ∧ b.remote ∧ b.node = h.src ∧ b.prog.map (·.token) = some h.token then some h.sch else none

/-- REMOTE_READ (R101, R103): host memory is read with the function's identity and the answer sent; byte 32 of it is 3, the
high byte of reason 0x0300, for a read that failed. DESIGN CHOICE, log entry 76. -/
def doRemoteRead (h : RemoteHdr) (data : HostRead) (s : State) : State :=
  match s.attachedOf h with
  | none => s
  | some k =>
    if s.inD3 h.fn then s
    else
      let s := hostReadReq h.fn h.addr (min h.len 9152) s
      let (d, code) : List Byte × Nat := match data with
        | .ok d => (padTo (min h.len 9152) d, 0)
        | .failed => ([], 3)
      sendRemote 4 h.src (h.token % 65536) h.token h.addr k h.fn h.req (leBytes 1 code) d s

/-- Whether a message carries an old generation of its function (R146, R483). -/
def State.oldGen (s : State) (h : RemoteHdr) : Bool := h.gen != s.gen h.fn

/-- REMOTE_WRITE (R101, R483). -/
def doRemoteWrite (h : RemoteHdr) (bulk : Bool) (data : List Byte) (s : State) : State :=
  if s.oldGen h then s.bump .CSS_GEN_DROPPED_COUNT else hostWrite h.fn h.addr bulk (data.take 9152) s

/-- A status word from its bytes (*Subchannel status word*). -/
def parseWord (d : List Byte) : StatusWord :=
  { sch := fieldAt d 0 2, flags := fieldAt d 2 1, cond := fieldAt d 3 1, token := fieldAt d 4 8, bits := fieldAt d 12 4
    residual := fieldAt d 16 4, addr := fieldAt d 20 8, reason := fieldAt d 28 2, node := fieldAt d 30 1 }

/-- The state of a program that its executing node reports, as the attached node's subchannel shows it (R112). DESIGN CHOICE,
log entry 76. -/
def farState (k : Nat) (w : StatusWord) (s : State) : State :=
  let st : SubState := if w.residual = 4 then .waiting else if w.residual = 5 then .waitCore else .active
  if [SubState.active, .waiting, .waitCore].contains (s.subAt k).st then
    setSt k st (modProg k (fun p => { p with farWait := if w.residual = 4 then some w.cond else none }) s)
  else s

/-- REMOTE_STATUS (R103, R124, R140, R143, R483): a final is journaled and posted, once for its token; the word of a NOTE or
MARK is posted and then answered; a word without a flag reports a state. The subchannel number is the function's own, and a
re-driven program's words carry REPOST. -/
def doRemoteStatus (h : RemoteHdr) (word : List Byte) (s : State) : State :=
  if s.oldGen h then s.bump .CSS_GEN_DROPPED_COUNT
  else
    let again := (s.progAt h.sch).any (·.redriven)
    let w := parseWord word
    let w := { w with sch := (s.subAt h.sch).rel, flags := if again && w.flags != 0 then w.flags ||| flRepost else w.flags }
    match s.attachedOf h, (s.progAt h.sch).map (·.ending) with
    | some k, some none =>
      let b := s.subAt k
      if w.flags.testBit 0 then
        jnlAsk (s.jrec k h.token (.final w)) [.final k w true] (modProg k (fun p => { p with ending := some w }) s)
      else if w.flags = 0 then farState k w s
      else queuePost b.fn b.cq { w := w, sch := k, kind := .note } s
    | _, _ => if w.flags.testBit 0 then s.bump .CSS_REPOSTED_COUNT else s

/-- QUERY (R143): answered with whether the token has its final. -/
def doRemoteQuery (h : RemoteHdr) (s : State) : State :=
  let open_ := match s.attachedOf h, (s.progAt h.sch).map (·.ending) with
    | some _, some none => true
    | _, _ => false
  sendRemote 8 h.src (h.token % 65536) h.token 0 h.sch h.fn h.req (leBytes 1 (b2n (!open_))) [] s

/-! ## A message that fails -/

/-- A failed REMOTE message ends its program with RINGF (R103, R478). -/
def remoteFailed (dst : Nat) (f : Frame) (s : State) : State :=
  let token := fieldAt f.payload 0 8
  let sch := fieldAt f.payload 20 2
  let end_ := fun (k : Nat) (s : State) =>
    match s.progAt k with
    | some p =>
      if p.token = token then
        endProg k stRingf 0x0400 (match p.run with | some r => r.x.residual | none => 0) p.standsAt s
      else s
    | none => s
  if [1, 2, 4, 8, 9].contains f.kind then
    let b := s.subAt sch
    if b.remote ∧ b.node = dst ∧ f.kind ≠ 9 ∧ f.kind ≠ 8 then end_ sch s else s
  else
    let s := end_ (execKey dst sch) s
    if f.kind = 6 ∧ (fieldAt f.payload 66 1).testBit 0 then coverExec (execKey dst sch) token s else s

/-- Programs bound to a node that has left the node list end with RINGF (R478). -/
def endRemotes (node : Nat) (s : State) : State :=
  let ks := (s.css.subs.filter (fun q => !isExec q.1 && q.2.remote && q.2.node == node && (match q.2.prog with
    | some p => p.ending.isNone && p.journaled
    | none => false))).map (·.1)
  ks.foldl (fun s k => match s.progAt k with
    | some p => endProg k stRingf 0x0400 0 p.standsAt s
    | none => s) s

/-! ## The mirror stream on the standby -/

/-- Words that a RETIRE record covers, from what follows it in the stream. -/
def parseCover : Nat → List Byte → List (Nat × Nat × Nat)
  | 0, _ => []
  | n + 1, d => if d.length < 16 then [] else (fieldAt d 0 2, fieldAt d 2 6, fieldAt d 8 8) :: parseCover n (d.drop 16)

/-- The subchannel key of a mirrored record: programs that the active member runs for another node are told by the START
record of the same subchannel and token. -/
def State.mirrorKey (s : State) (src : Nat) (sch token : Nat) (body : JBody) : Nat :=
  match body with
  | .start _ _ _ remote att => if remote && att != src then execKey att sch else sch
  | _ =>
    let l := s.jnlLive.filter (fun q => q.2.isStart && q.2.token == token && q.2.sch % 4096 == sch)
    match l.getLast? with
    | some q => q.2.sch
    | none => sch

/-- The body of a record from its bytes and what follows them (R129). DESIGN CHOICE, log entry 26. -/
def parseBody (d rest : List Byte) : Option JBody :=
  let at_ := fun (o n : Nat) => fieldAt d (24 + o) n
  match fieldAt d 0 1 with
  | 1 => some (.start (at_ 0 8) (at_ 8 4) (at_ 12 2) (at_ 14 1 % 2 == 1) (at_ 15 1))
  | 2 => some (.stage (bytesAt d 24 28) (at_ 28 8) rest)
  | 3 => some (.stripe (at_ 0 8) (at_ 8 4) (at_ 12 4) (at_ 16 1) (at_ 17 1) (at_ 18 1) (at_ 19 1) (at_ 20 8))
  | 4 => some (.object (at_ 0 8) (at_ 8 4) (at_ 12 4) (at_ 16 8) (at_ 24 1) (at_ 28 4) (at_ 32 4))
  | 5 => some (.final (parseWord (bytesAt d 24 32)))
  | 6 => some (.retire (at_ 0 2) (at_ 4 4))
  | 7 => some (.reset (at_ 0 2) (at_ 2 2))
  | 8 => some (.abandon (at_ 0 4) (at_ 4 2) (at_ 8 8) (at_ 16 4))
  | 9 => some (.haltreq (at_ 0 1) (at_ 4 4))
  | _ => none

/-- A mirrored journal record is written in both copies (R521); a STRIPE record whose id is journaled already for the program
has no further effect, and no id that is journaled is used here (R131). -/
def mirrorRecord (src : Nat) (d : List Byte) (s : State) : State :=
  let head := bytesAt d 0 64
  let rest := d.drop 64
  match parseBody head rest with
  | none => s
  | some body =>
    let sch := fieldAt head 2 2
    let token := fieldAt head 4 8
    let r : JRec :=
      { sch := s.mirrorKey src sch token body, token := token, seq := 0, fn := fieldAt head 20 2, node := fieldAt head 22 1
        body := body }
    let l := ((s.jnlLive.filter (fun q => r.sameProg q.2)).map (·.2)).reverse.takeWhile (fun q => !q.isStart)
    let twice := match body with
      | .stripe id .. => l.any (fun q => match q.body with
        | .stripe j .. => j == id
        | _ => false)
      | _ => false
    let s := if twice then s else jnlPut r (freshStart r s)
    match body with
    | .stripe id .. => s.withCss (fun c => { c with nextStripe := max c.nextStripe (id + 1) })
    | .retire .. => cover (parseCover (rest.length / 16 + 1) rest) s
    | .final w =>
      if w.reason = 0x0506 ∧ w.bits.testBit 7 then
        cover [(0, r.sch, token), (1, r.sch, token), (2, r.sch, token), (3, r.sch, token)] s
      else s
    | _ => s

/-- A mirrored descriptor-log entry; SHARD and CHUNK entries belong to the STRIPE entry before them. -/
def mirrorDlog (d : List Byte) (s : State) : State :=
  let t := s.get .ENG_DLOG_CTL_TAIL
  let prev := kvGet s.eng.dlog ((t + dlogSize - 1) % dlogSize) { data := [], token := 0, obj := 0, settled := true }
  let e : DlogEnt := match fieldAt d 0 1 with
    | 0x11 => { data := padTo 64 d, token := fieldAt d 16 8, obj := fieldAt d 24 4, settled := false }
    | 0x12 | 0x13 => { data := padTo 64 d, token := prev.token, obj := prev.obj, settled := false }
    | 0x15 => { data := padTo 64 d, token := fieldAt d 16 8, obj := fieldAt d 4 4, settled := true }
    | _ => { data := padTo 64 d, token := 0, obj := 0, settled := true }
  let s := s.withEng (fun g => { g with dlog := kvSet g.dlog t e })
  let s := s.set .ENG_DLOG_CTL_TAIL ((t + 1) % dlogSize)
  if fieldAt d 0 1 = 0x15 then settleObject e.token e.obj s else dlogMark 1 s

/-- Mirrored custody state: a stripe, the close of the epoch, its end, where the epochs stand, an object covered (DESIGN CHOICE, log entry 26). -/
def mirrorCustody (d : List Byte) (s : State) : State :=
  match fieldAt d 0 1 with
  | 0 =>
    let k := fieldAt d 9 1
    let m := fieldAt d 10 1
    let c : CusStripe :=
      { id := fieldAt d 1 8, k := k, m := m, repair := fieldAt d 11 1 == 1
        hashes := (List.range (k + m)).map (fun i => bytesAt d (12 + 48 * i) 48) }
    countCustody (s.withEng (fun e => { e with cus := e.cus ++ [c] }))
  | 1 => closeEpoch (bytesAt d 1 256) (bytesAt d 257 48) s
  | 2 => match s.eng.cusClosed with
    | some c => endEpoch { c with header := bytesAt d 1 256 } s
    | none => s
  | 3 => (s.withEng (fun e => { e with cusPrev := bytesAt d 1 48 })).set .ENG_CUS_EPOCH_OPEN (fieldAt d 49 8)
  | 4 => coverObject (fieldAt d 1 8) (fieldAt d 9 4) s
  | _ => s

/-- The copy of a resynchronisation begins (R522): what the standby holds of the mirrored kinds is given up for it. -/
def mirrorBegin (s : State) : State :=
  let s := s.withEng (fun e => { e with dlog := [], cus := [], cusClosed := none, notices := [] })
  let s := s.set .ENG_DLOG_CTL_HEAD (s.get .ENG_DLOG_CTL_TAIL)
  let s := (s.set .ENG_CUS_STATUS_CLOSED_WAIT 0).set .ENG_CUS_STATUS_SIGNING 0
  let s := countCustody ({ s with tub := { s.tub with handles := [] } })
  let s := { s with pair := { s.pair with contexts := [] } }
  (s.set .JNL_HEAD_COUNT (s.get .JNL_TAIL_COUNT)).withJnl (fun j => { j with covered := [], stopped := [] })

/-- A mirrored reservation (R131, R162, R190, R544): the values below its end are never used here; an own higher one
stands. -/
def mirrorReserve (which upTo : Nat) (s : State) : State :=
  match which with
  | 0 => s.withEng (fun e => { e with nextLoc := max e.nextLoc upTo, locLimit := max e.locLimit upTo })
  | 1 =>
    let s := s.withEng (fun e => { e with invoke := max e.invoke upTo, invokeLimit := max e.invokeLimit upTo })
    s.set .ENG_SEAL_CTR_RESERVED s.eng.invokeLimit
  | 2 => { s with tub := { s.tub with nextHandle := max s.tub.nextHandle upTo } }
  | 3 => s.withCss (fun c => { c with nextStripe := max c.nextStripe upTo })
  | _ => s

/-- A key handle as the mirror stream carries it (DESIGN CHOICE, log entry 26). -/
def handleBytes (h : Nat) (x : Handle) : List Byte :=
  leBytes 8 h ++ leBytes 2 x.fn ++ leBytes 1 x.kek ++ leBytes 1 x.st ++ leBytes 4 x.seq ++ x.blob

/-- A mirrored key handle: its blob is unwrapped as it arrives, and one that does not unwrap is unusable (R545). -/
def mirrorHandle (d : List Byte) (s : State) : State :=
  let x : Handle := { fn := fieldAt d 8 2, kek := fieldAt d 10 1, st := fieldAt d 11 1, seq := fieldAt d 12 4, blob := d.drop 16 }
  let bad := x.st == 1 && (unwrapKey (kvGet s.tub.keks x.kek []) x.blob).isNone
  let (x, s) : Handle × State := if bad then ({ x with st := 4 }, s.bump .TMB_UNUSABLE_COUNT) else (x, s)
  { s with tub := { s.tub with handles := kvSet s.tub.handles (fieldAt d 0 8) x } }

/-- A PAIR message that carries what RETIRE records cover, in a resynchronisation. -/
def pairCover : Nat := 7

/-- A PAIR message that begins the copy of a resynchronisation. DESIGN CHOICE, log entry 73. -/
def pairBegin : Nat := 8

/-- A PAIR message that carries a subchannel's context. -/
def pairContext : Nat := 9

/-- A PAIR message that carries the function configuration digest, at the end of a copy. -/
def pairDigest : Nat := 10

/-- The function configuration digest (R522): created functions, NCQ, windows, subchannel assignments, device and domain
grants. Its layout is the model's (DESIGN CHOICE, log entry 26). -/
def State.cfgDigest (s : State) : List Byte :=
  let fns := s.functions.flatMap (fun f =>
    let x := s.fnOf f
    leBytes 1 f ++ leBytes 1 x.ncq ++ leBytes 4 x.winUnits ++ leBytes 8 x.winBase)
  let subs := s.css.subs.flatMap (fun q => if isExec q.1 then [] else
    leBytes 2 q.1 ++ leBytes 1 q.2.fn ++ leBytes 2 q.2.rel ++ leBytes 1 q.2.cq ++ leBytes 1 (b2n q.2.remote) ++ leBytes 1 q.2.node)
  let devs := s.regs.flatMap (fun c => if c.fld = .MPT_DEV_GRANT_VF ∧ c.val ≠ 0 then leBytes 2 c.bank ++ leBytes 8 c.val else [])
  let doms := s.eng.doms.flatMap (fun q => leBytes 2 q.1 ++ leBytes 1 (b2n q.2.pfGrant) ++ leBytes 8 q.2.vfGrant)
  sha384 (fns ++ subs ++ devs ++ doms)

/-- RESYNC_COMPLETE (R522 steps 3 and 4). -/
def doResyncComplete (peerDigest : List Byte) (s : State) : State :=
  if s.get .CLM_STATUS_SYNC ≠ 1 then s
  else if peerDigest = s.cfgDigest then
    let s := (s.set .CLM_STATUS_SYNC 2).set .CLM_STATUS_CFG_MISMATCH 0
    let s := { s with pair := { s.pair with sayResync := false } }
    if s.get .CLM_STATUS_ROLE = 2 then pairEvent .CLM_EVENT_IN_STEP s else s
  else
    let s := (s.set .CLM_STATUS_SYNC 0).set .CLM_STATUS_CFG_MISMATCH 1
    { s with pair := { s.pair with sayResync := false } }

/-- Applies one item of the mirror stream, the standby's part of R521; any other module takes none. -/
def applyMirror (src kind : Nat) (d : List Byte) (s : State) : State :=
  if s.get .CLM_STATUS_ROLE ≠ 2 then s
  else
    let s := s.bump .CLM_MIRROR_MSGS_COUNT
    if kind = pairJournal then mirrorRecord src d s
    else if kind = pairDlog then mirrorDlog d s
    else if kind = pairCustody then mirrorCustody d s
    else if kind = pairReserve then mirrorReserve (fieldAt d 0 1) (fieldAt d 8 8) s
    else if kind = pairHandle then mirrorHandle d s
    else if kind = pairGen then s.setB .VFM_FSTAT_GEN (fieldAt d 0 2) (fieldAt d 2 2)
    else if kind = pairCover then cover (parseCover (d.length / 16 + 1) d) s
    else if kind = pairContext then
      { s with pair := { s.pair with contexts := kvSet s.pair.contexts (fieldAt d 0 2) d } }
    else if kind = pairDigest then doResyncComplete d s
    else if kind = pairBegin then (mirrorBegin s).set .CLM_STATUS_SYNC 1
    else s

/-- The kind and payload of a mirror item. -/
def mirrorItem (m : MirrorItem) : Nat × List Byte :=
  match m with
  | .journal r => (pairJournal, r)
  | .descLog e => (pairDlog, e)
  | .custody d => (pairCustody, d)
  | .reservation w n => (pairReserve, reserveBytes w n)
  | .handle r => (pairHandle, r)

end Sys2Proof.Machine
end

