-- ==== Sys2Proof/Machine/Ring.lean ====
section
/-!
DEFINITION. The ring ports: the node list, flows as sender and receiver, frames in and out, wraps, insertion and injection
(R459 to R487), and what the claim block makes of the peer's presence (R524, R525).
-/

namespace Sys2Proof.Machine

/-! ## The pair's view of the ring -/

/-- The state with the pair block changed. -/
def State.withPair (s : State) (f : PairState → PairState) : State := { s with pair := f s.pair }

/-- The mode in which the peer's ANNOUNCE shows it, when it is in the node list. -/
def State.peerMode (s : State) : Option Nat := (s.peerNode.bind (kvGet? s.ring.heard)).map (·.mode)

/-- Whether a heartbeat is being received. -/
def State.hbValid (s : State) : Bool := s.pair.hbAt.isSome && !s.on .CLM_STATUS_HB_LOST

/-- Whether the module is the active member and has not detached. -/
def State.pairedActive (s : State) : Bool :=
  s.on .CLM_PAIR_PAIRED && s.get .CLM_STATUS_ROLE == 1 && (s.get .CLM_STATUS_SYNC == 1 || s.get .CLM_STATUS_SYNC == 2)

/-- Isolation hold begins (R524, R525). -/
def beginHold (s : State) : State :=
  if s.on .CLM_STATUS_HOLD then s
  else ((s.set .CLM_STATUS_HOLD 1).bump .CLM_HOLDS_COUNT).withPair (fun p => { p with holdAt := some s.now })

/-- Isolation hold ends. -/
def endHold (s : State) : State := (s.set .CLM_STATUS_HOLD 0).withPair (fun p => { p with holdAt := none })

/-- The active member's row of *Loss cases* (R524). -/
def pairLook (s : State) : State :=
  let s := s.set .CLM_STATUS_PEER_PRESENT (b2n (s.on .CLM_PAIR_PAIRED && s.peerNode.isSome))
  if !s.pairedActive then s
  else match s.hbValid, s.peerMode with
    | true, none => s.withPair (fun p => { p with sayDetach := true })
    | true, some _ => s
    | false, m =>
      if s.pair.hbAt.isNone ∨ m = some Mode.frond ∨ m = some Mode.maintenance then s else beginHold s

/-- A mirror message has failed (R522, R524). -/
def mirrorFailed (s : State) : State :=
  if s.pairedActive then s.withPair (fun p => { p with sayDetach := true }) else s

/-- The partner has acknowledged mirror messages: what waited for them goes on (R521). -/
def mirrorAcked (l : List Nat) (s : State) : State :=
  let acts := s.css.mirrorWait.filter (fun q => l.contains q.1)
  let s := s.withPair (fun p => { p with unacked := p.unacked.filter (fun q => !l.contains q) })
  let s := s.withCss (fun c => { c with mirrorWait := c.mirrorWait.filter (fun q => !l.contains q.1) })
  acts.foldl (fun s q => runActs q.2 s) s

/-! ## Flows -/

/-- A message fails (R478): it is counted and its block told. -/
def msgFailed (cls dst : Nat) (m : TxMsg) (s : State) : State :=
  let s := s.bump .RNG_MSG_FAILED_COUNT
  if cls = clsRemote then remoteFailed dst m.frame s
  else if cls = clsPair then mirrorFailed s
  else s

/-- Changes the sender's side of a flow. -/
def modTx (key : Nat) (f : TxFlow → TxFlow) (s : State) : State :=
  s.withRing (fun r => { r with tx := kvMod r.tx key f })

/-- Takes the frames of a flow that `f` picks by their sequence out of the own queues: what is acknowledged or has failed is
not sent again (R477). -/
def unqueue (cls dst : Nat) (f : Nat → Bool) (s : State) : State :=
  let keep := fun (x : Frame) => !(x.cls == cls && x.dst == dst && f x.seq)
  s.withRing (fun r => { r with own := r.own.map (fun q => (q.1, q.2.filter keep)) })

/-- All messages of a flow fail, sent or not. -/
def failFlow (cls dst : Nat) (s : State) : State :=
  let key := flowKey cls dst
  let f := kvGet s.ring.tx key {}
  let s := unqueue cls dst (fun _ => true) (modTx key (fun f => { f with unacked := [], waiting := [] }) s)
  (f.unacked ++ f.waiting).foldl (fun s m => msgFailed cls dst m s) s

/-- Whether an acknowledgement covers a sequence (R477). -/
def ackCovers (cum bitmap seq : Nat) : Bool :=
  let d := (seq + 2 ^ 32 - cum % 2 ^ 32) % 2 ^ 32
  d == 0 || decide (2 ^ 31 ≤ d) || (decide (d ≤ 64) && bitmap.testBit (d - 1))

/-- ACK (R477): covered messages are released, and waiting ones go out. -/
def doRingAck (src cls cum bitmap : Nat) (s : State) : State :=
  let key := flowKey cls src
  let f := kvGet s.ring.tx key {}
  let got := f.unacked.filter (fun m => ackCovers cum bitmap m.frame.seq)
  let s := modTx key (fun f => { f with unacked := f.unacked.filter (fun m => !ackCovers cum bitmap m.frame.seq) }) s
  let s := unqueue cls src (ackCovers cum bitmap) s
  let s := if cls = clsPair then mirrorAcked (got.map (·.frame.seq)) s else s
  let s := got.foldl (fun s m =>
    let p := m.frame.payload
    if cls = clsRemote ∧ m.frame.kind = 6 ∧ (fieldAt p 66 1).testBit 0 then
      coverExec (execKey src (fieldAt p 20 2)) (fieldAt p 0 8) s
    else s) s
  pumpFlow key 64 s

/-- CLAIM_NACK (R482): the message fails at once and the claim goes to the claim block. -/
def doClaimNack (src cls claim seq : Nat) (s : State) : State :=
  let key := flowKey cls src
  let f := kvGet s.ring.tx key {}
  let bad := f.unacked.filter (fun m => m.frame.seq == seq)
  let s := unqueue cls src (· == seq) (modTx key (fun f => { f with unacked := f.unacked.filter (fun m => m.frame.seq != seq) }) s)
  seeClaim seenNack claim (pumpFlow key 64 (bad.foldl (fun s m => msgFailed cls src m s) s))

/-- Bytes of forwarded frames that a port's egress SRAM keeps (R31). -/
def egressBytes : Nat := 2097152

/-- Whether a frame forwards host data of an attached node: a READ DATA message (R30). -/
def hostDataFrame (f : Frame) : Bool := f.cls == clsRemote && f.kind == 4

/-- The newest entries that fit into the egress SRAM. -/
def keepNewest : Nat → List (Nat × Nat × Nat) → List (Nat × Nat × Nat)
  | _, [] => []
  | room, q :: t => if q.2.2 ≤ room then q :: keepNewest (room - q.2.2) t else []

/-- A forwarded frame enters the egress SRAM of its port; the oldest give way (R31). -/
def keepEgress (port : Nat) (f : Frame) (s : State) : State :=
  if hostDataFrame f then
    let held := kvGet s.ring.egress port [] ++ [(flowKey f.cls f.dst, f.seq, 36 + f.payload.length)]
    s.withRing (fun r => { r with egress := kvSet r.egress port (keepNewest egressBytes held.reverse).reverse })
  else s

/-- A forwarded frame that its port's SRAM no longer holds is read again from host memory (R31). -/
def reread (port : Nat) (f : Frame) (s : State) : State :=
  let held := (kvGet s.ring.egress port []).any (fun q => q.1 == flowKey f.cls f.dst && q.2.1 == f.seq)
  if hostDataFrame f && !held then hostReadReq (fieldAt f.payload 22 2) (fieldAt f.payload 8 8) (fieldAt f.payload 16 4) s else s

/-- RETX_TIMEOUT (R31, R470, R477, R478): a try of a message has failed. -/
def doRetxTimeout (dst cls seq : Nat) (s : State) : State :=
  let key := flowKey cls dst
  let st := s.get .RNG_STATUS_STATE
  let port := s.route dst
  match (kvGet s.ring.tx key {}).unacked.find? (fun m => m.frame.seq == seq) with
  | none => s
  | some m =>
    if !(st = 3 ∨ st = 4) ∨ kvGet s.ring.credit (port * 4 + cls) 0 = 0 then s
    else if 3 ≤ m.tries then
      let s := modTx key (fun f => { f with unacked := f.unacked.filter (fun m => m.frame.seq != seq) }) s
      pumpFlow key 64 (msgFailed cls dst m (unqueue cls dst (· == seq) s))
    else
      let s := modTx key (fun f =>
        { f with unacked := f.unacked.map (fun x => if x.frame.seq = seq then { x with tries := x.tries + 1 } else x) }) s
      queueOwn (s.shortWay dst) { m.frame with retx := true }
        (reread port m.frame (epbFlag .ENG_EPB_FLAGS_RETRY (s.bump .RNG_RETX_COUNT)))

/-- A new session (R480): every flow starts afresh. The messages of the old one are lost: the pair's stream fails, and the
programs that REMOTE messages belong to end as under R103. DESIGN CHOICE, log entry 97. -/
def newSession (s : State) : State :=
  let s := s.set .RNG_SESSION_SESSION ((s.get .RNG_SESSION_SESSION + 1) % 2 ^ 32)
  let lost := s.ring.tx.flatMap (fun q => (q.2.unacked ++ q.2.waiting).map (·.frame))
  let pairLost := !s.pair.unacked.isEmpty
  let s := s.withRing (fun r => { r with tx := [], own := [] })
  let s := if pairLost then mirrorFailed (s.withPair (fun p => { p with unacked := [] })) else s
  (lost.filter (fun f => f.cls == clsRemote)).foldl (fun s f => remoteFailed f.dst f s) s

/-! ## Claims and the node list -/

/-- Keeps the highest claim of a pair id; one of the node's own pair id goes to the claim block (R481). -/
def keepClaim (src pairId claim : Nat) (s : State) : State :=
  let s :=
    if s.onB .RNG_CLAIM_VALID pairId ∧ claim ≤ s.getB .RNG_CLAIM_CLAIM pairId then s
    else ((s.setB .RNG_CLAIM_CLAIM pairId claim).setB .RNG_CLAIM_NODE pairId src).setB .RNG_CLAIM_VALID pairId 1
  if pairId = s.get .CLM_PAIR_PAIR_ID ∧ src ≠ s.node then seeClaim seenRing claim s else s

/-- Brings RNG_STATUS.STATE up to date (*Ring states*); the loopback test is begun and ended elsewhere. -/
def syncRing (s : State) : State :=
  if s.ring.bypass then (if s.get .RNG_STATUS_STATE = 1 then s else s.set .RNG_STATUS_STATE 0)
  else if !s.ring.lost.isEmpty then s.set .RNG_STATUS_STATE 5
  else if !s.ring.announced then s.set .RNG_STATUS_STATE 2
  else if s.wrapped 0 || s.wrapped 1 || s.ring.farWrap then s.set .RNG_STATUS_STATE 4
  else s.set .RNG_STATUS_STATE 3

/-- A higher session of a source: the receiver's state of its flows is discarded (R480). -/
def seeSession (src session : Nat) (s : State) : State :=
  if kvGet s.ring.sessions src 0 < session then
    s.withRing (fun r =>
      { r with sessions := kvSet r.sessions src session, rx := r.rx.filter (fun q => q.1 / 4 != src) })
  else s

/-- A node leaves the node list (R471): messages to it fail, programs bound to it end (R478). -/
def nodeGone (n : Nat) (s : State) : State :=
  if !s.present n then s
  else
    let s := (s.setBitB .RNG_NODES_PRESENT 0 n false).setBitB .RNG_NODES_DORMANT 0 n false
    let s := s.withRing (fun r => { r with heard := kvDel r.heard n })
    let s := [clsControl, clsPair, clsRemote].foldl (fun s c => failFlow c n s) s
    pairLook (endRemotes n s)

/-- The module serial number as a number of 128 bits. -/
def State.serial (s : State) : Nat := s.getB .FUS_SERIAL_ASCII 0 + s.getB .FUS_SERIAL_ASCII 1 * 2 ^ 64

/-- The first ANNOUNCE round is complete: the node's own ANNOUNCE has come back, or the next is due (DESIGN CHOICE, log entry 26). -/
def roundDone (s : State) : State := if s.ring.bypass then s else syncRing (s.withRing (fun r => { r with announced := true }))

/-- ANNOUNCE (R461, R471). -/
def doRingAnnounce (src mode serial pairId claim session : Nat) (s : State) : State :=
  if src = s.node then
    if serial = s.serial then roundDone s else s.set .RNG_STATUS_DUPLICATE 1
  else if s.get .RNG_STATUS_STATE = 5 ∨ 32 ≤ src then s
  else
    let back := !s.present src && pairId == s.get .CLM_PAIR_PAIR_ID
    let s := seeSession src session (keepClaim src pairId claim s)
    let s := (s.setBitB .RNG_NODES_PRESENT 0 src true).setBitB .RNG_NODES_DORMANT 0 src (mode == Mode.dormant)
    let s := s.withRing (fun r =>
      { r with heard := kvSet r.heard src { mode := mode, serial := serial, pairId := pairId, at_ := s.now } })
    pairLook (if back && s.on .CLM_STATUS_HOLD then endHold s else s)

/-- What an ANNOUNCE carries beside the frame's own claim, pair id and session (DESIGN CHOICE, log entry 26). -/
def State.announceBytes (s : State) : List Byte := leBytes 1 s.mode ++ leBytes 16 s.serial

/-- A LINK frame to every node. -/
def State.linkAll (s : State) (kind : Nat) (d : List Byte) : Frame :=
  { s.newFrame clsLink kind 0 d with broadcast := true }

/-- ANNOUNCE_TICK (R471). -/
def doAnnounceTick (s : State) : State :=
  if s.ring.bypass then s
  else
    let first := !s.ring.announced && s.get .RNG_STATUS_STATE == 2 && (kvGet s.ring.own 0 []).isEmpty
    let s := sendBoth (s.linkAll linkAnnounce s.announceBytes) s
    if first then s else roundDone s

/-- NODE_LIST_TIMEOUT (R471): only in STABLE or WRAPPED. -/
def doNodeListTimeout (node : Nat) (s : State) : State :=
  let st := s.get .RNG_STATUS_STATE
  if st = 3 ∨ st = 4 then nodeGone node s else s

/-! ## Wraps, insertion and bypass -/

/-- What stands at a port after it is wrapped goes out at the other, with WRAPPED set (R469). -/
def turnFrames (port : Nat) (s : State) : State :=
  let o := 1 - port
  let mark := fun (l : List Frame) => l.map (fun f => { f with wrapped := true })
  s.withRing (fun r =>
    { r with
      own := kvSet (kvDel r.own port) o (kvGet r.own o [] ++ mark (kvGet r.own port []))
      transit := kvSet (kvDel r.transit port) o
        (kvGet r.transit o [] ++ (kvGet r.transit port []).map (fun q => ({ q.1 with wrapped := true }, q.2))) })

/-- Sets or clears the wrap at a port. -/
def setWrap (port : Nat) (b : Bool) (s : State) : State :=
  if port = 0 then s.set .RNG_STATUS_WRAP_W (b2n b) else s.set .RNG_STATUS_WRAP_E (b2n b)

/-- Sets LIGHT, LOCK and LANES of a port. -/
def setLock (port : Nat) (b : Bool) (s : State) : State :=
  ((s.setB .RNG_PSTAT_LIGHT port (b2n b)).setB .RNG_PSTAT_LOCK port (b2n b)).setB .RNG_PSTAT_LANES port (if b then 15 else 0)

/-- The span of a port is lost no longer: it is wrapped or has relocked. -/
def spanSettled (port : Nat) (s : State) : State := s.withRing (fun r => { r with lost := kvDel r.lost port })

/-- The node wraps at a port (R469). -/
def wrapAt (port : Nat) (s : State) : State :=
  if s.ring.bypass ∨ s.wrapped port ∨ 1 < port then s
  else
    let s := (setWrap port true (spanSettled port s)).bumpB .RNG_WRAPS_COUNT port 1
    syncRing (if s.wrapped (1 - port) then s else turnFrames port s)

/-- The span of a port is lost: the node is DISTURBED, and wraps there within 1 ms, at a time the spec leaves open (R469,
R470, *Ring timing*). DESIGN CHOICE, log entry 30. -/
def loseSpan (port : Nat) (s : State) : State :=
  let s := setLock port false s
  if s.wrapped port ∨ kvHas s.ring.lost port then s
  else
    let (k, s) := s.draw
    syncRing (s.withRing (fun r => { r with lost := kvSet r.lost port (s.now + Config.freeNat k % 1000001) }))

/-- The wraps whose time has come are in force. -/
def wrapDue (s : State) : State :=
  (s.ring.lost.filter (fun q => decide (q.2 ≤ s.now))).foldl (fun s q => wrapAt q.1 s) s

/-- PORT_LOSS (R469): a link loss on the port's error source. -/
def doPortLoss (port : Nat) (s : State) : State :=
  if s.ring.bypass ∨ 1 < port then s
  else if s.wrapped port ∨ kvHas s.ring.lost port then setLock port false s
  else raiseUe (39 + port) 1 0 7 s.node 0 (loseSpan port s)

/-- SPAN_LOCK_TIMEOUT (R468): a span that has not locked is broken, and its ends wrap. -/
def doSpanLockTimeout (port : Nat) (s : State) : State :=
  if kvHas s.ring.lost port then wrapAt port s else doPortLoss port s

/-- PORT_UNWRAP (R469, R470): the span has stayed locked. -/
def doPortUnwrap (port : Nat) (s : State) : State :=
  if s.ring.bypass ∨ 1 < port ∨ !(s.wrapped port || kvHas s.ring.lost port) ∨ !s.pdOn (34 + port) then s
  else syncRing (setWrap port false (spanSettled port (setLock port true s)))

/-- Whether a node is the next one at a port. -/
def State.neighbour (s : State) (src port : Nat) : Bool := decide (s.hops (port == 1) src = 1)

/-- LEAVE (R465, R471): a neighbour's leave wraps the port toward it. -/
def doRingLeave (src port : Nat) (s : State) : State :=
  if src = s.node then s
  else
    let near := s.neighbour src port
    let s := nodeGone src s
    if near then wrapAt port s else s

/-- The node switches to bypass: it is out of the ring. -/
def goBypass (s : State) : State :=
  let s := (s.emit (.bypass true)).withRing (fun r =>
    { r with bypass := true, leaving := false, announced := false, own := [], transit := [], lost := [], farWrap := false })
  let s := setWrap 0 false (setWrap 1 false s)
  let s := (List.range 32).foldl (fun s n => nodeGone n s) s
  s.set .RNG_STATUS_STATE 0

/-- Leaving by command begins with a LEAVE both ways (R465). -/
def beginLeave (s : State) : State :=
  if s.ring.bypass ∨ s.ring.leaving then s
  else (sendBoth (s.linkAll linkLeave []) s).withRing (fun r => { r with leaving := true })

/-- Whether the mode has the node inserted (R463). -/
def State.ringMode (s : State) : Bool :=
  [Mode.fiddlehead, Mode.frond, Mode.dormant, Mode.standby, Mode.maintenance].contains s.mode

/-- Insertion begins with the loopback test (R464). -/
def beginInsert (s : State) : State :=
  if s.ring.bypass ∧ s.on .RNG_CTL_INSERT ∧ !s.ring.removed ∧ s.ringMode ∧ s.pdOn 34 ∧ s.pdOn 35 then s.set .RNG_STATUS_STATE 1
  else s

/-- LEAVE_BYPASS (R465); a node told meanwhile to be inserted again tests its optics and returns (R463, R464). -/
def doLeaveBypass (s : State) : State := if s.ring.leaving then beginInsert (goBypass s) else s

/-- LOOPBACK_TEST_COMPLETE (R464). -/
def doLoopbackTestComplete (passW passE : Bool) (s : State) : State :=
  if s.get .RNG_STATUS_STATE ≠ 1 then s
  else
    let s := (s.setB .RNG_PSTAT_LOOP_PASS 0 (b2n passW)).setB .RNG_PSTAT_LOOP_PASS 1 (b2n passE)
    if passW && passE then
      let s := (s.emit (.bypass false)).withRing (fun r => { r with bypass := false, announced := false })
      syncRing (setLock 0 true (setLock 1 true (s.set .RNG_STATUS_TEST_FAIL 0)))
    else
      let s := (s.set .RNG_STATUS_TEST_FAIL 1).set .RNG_STATUS_STATE 0
      let s := if passW then s else raiseUe 39 2 0 7 s.node 0 s
      if passE then s else raiseUe 40 2 0 7 s.node 0 s

/-- MEMS_POSITION_CHECK (R466). -/
def doMemsPositionCheck (sensedBypass : Bool) (s : State) : State :=
  let s := s.set .RNG_STATUS_BYPASS (b2n sensedBypass)
  if sensedBypass = s.ring.bypass then s else raiseUe 53 1 0 7 s.node 0 s

/-- What a change of RNG_CTL.INSERT sets off (R463, R465). DESIGN CHOICE, log entry 30. -/
def insertChanged (old : Nat) (s : State) : State :=
  if s.get .RNG_CTL_INSERT = 0 then beginLeave s
  else if old = 0 then
    if s.ring.leaving then s else beginInsert s
  else s

/-- RNG_INSERT_WRITE (R463, R465). -/
def doRngInsertWrite (o : Origin) (v : Nat) (s : State) : State :=
  reach o .RNG_CTL (fun s =>
    let old := s.get .RNG_CTL_INSERT
    logged o 1 (regBase .RNG_CTL) old (v % 2) id (fun s => insertChanged old (s.set .RNG_CTL_INSERT (v % 2))) s) s

/-- REMOVE (R465, R482): a node of the pair id leaves and stays bypassed until its next start. -/
def doRingRemove (src pairId : Nat) (s : State) : State :=
  if pairId = s.get .CLM_PAIR_PAIR_ID ∧ src ≠ s.node then
    (beginLeave s).withRing (fun r => { r with removed := true })
  else s

/-- CLAIM (R481). -/
def doRingClaim (src pairId claim : Nat) (s : State) : State := keepClaim src pairId claim s

/-! ## Frames out -/

/-- Whether the injection slots act (R485). -/
def State.injecting (s : State) : Bool := s.mode == Mode.maintenance || s.on .RNG_INJ_ARM_ARMED

/-- Whether slot `n` selects a frame, and the state with the frame counted. -/
def injSelects (n : Nat) (f : Frame) (s : State) : Bool × State :=
  let kind := s.getB .RNG_INJ_KIND n
  let trig := s.getB .RNG_INJ_N n
  if !s.injecting ∨ kind = 0 ∨ 4 < kind ∨ trig = 0 ∨ !s.bitB .RNG_INJ_CLASSES n f.cls ∨ (f.retx && !s.onB .RNG_INJ_ALL n) then (false, s)
  else
    let c := kvGet s.ring.injSeen n 0 + 1
    let s := s.withRing (fun r => { r with injSeen := kvSet r.injSeen n c })
    let (hit, s) : Bool × State :=
      if s.onB .RNG_INJ_MODE n then let (k, s) := s.draw; (Config.freeNat k % 2 ^ trig == 0, s)
      else (c % trig == 0, s)
    (hit, if hit then s.bumpB .RNG_INJ_HITS_COUNT n 1 else s)

/-- Bits of a frame on the wire. -/
def frameBits (f : Frame) : Nat := 8 * (32 + f.payload.length + 4)

/-- The frames a slot holds are sent, last in first out for REORDER, the first one for DELAY. -/
def releaseSlot (n : Nat) (s : State) : State :=
  let l := kvGet s.ring.injHeld n []
  let port := n / 2
  if s.getB .RNG_INJ_KIND n = 4 then
    match l with
    | [] => s
    | f :: t => (s.withRing (fun r => { r with injHeld := kvSet r.injHeld n t })).emit (.frame port f)
  else
    l.reverse.foldl (fun s f => s.emit (.frame port f)) (s.withRing (fun r => { r with injHeld := kvDel r.injHeld n }))

/-- What slot `n` does to a frame it selects (*Ring injection kinds*). -/
def injApply (n : Nat) (f : Frame) (s : State) : State :=
  let port := n / 2
  match s.getB .RNG_INJ_KIND n with
  | 1 => s
  | 2 =>
    let b := s.getB .RNG_INJ_PARAM n
    s.emit (if b < frameBits f then .badFrame port f b else .frame port f)
  | 3 =>
    let s := s.withRing (fun r => { r with injHeld := kvSet r.injHeld n (kvGet r.injHeld n [] ++ [f]) })
    if clamp 1 64 (s.getB .RNG_INJ_PARAM n) ≤ (kvGet s.ring.injHeld n []).length then releaseSlot n s else s
  | _ => s.withRing (fun r => { r with injHeld := kvSet r.injHeld n (kvGet r.injHeld n [] ++ [f]) })

/-- A frame leaves a port, through its two injection slots. -/
def frameOut (port : Nat) (f : Frame) (s : State) : State :=
  let (a, s) := injSelects (port * 2) f s
  if a then injApply (port * 2) f s
  else
    let (b, s) := injSelects (port * 2 + 1) f s
    if b then injApply (port * 2 + 1) f s else s.emit (.frame port f)

/-- RING_INJECT_RELEASE (R485): 1 ms, or the delay, has passed. -/
def doRingInjectRelease (slot : Nat) (s : State) : State := if slot < 4 then releaseSlot slot s else s

/-- Credit units a frame needs (R475). -/
def frameUnits (f : Frame) : Nat := divUp (32 + f.payload.length + 4) 256

/-- Returns the credit of a frame that has left the buffers of the port it came in by (R475). -/
def creditBack (port : Nat) (f : Frame) (s : State) : State := s.emit (.credit port f.cls (frameUnits f))

/-- The next entry of a queue whose frame has credit: the first of the lowest class (R475). -/
def State.nextFrame {α : Type} (s : State) (port : Nat) (frame : α → Frame) (l : List α) : Option (α × List α) :=
  ([0, 1, 2, 3].findSome? (fun c =>
    match takeFirst (fun x => (frame x).cls == c) l with
    | some (x, t) => if frameUnits (frame x) ≤ kvGet s.ring.credit (port * 4 + c) 0 then some (x, t) else none
    | none => none))

/-- The own frames a node may send (R461, R470): none while DISTURBED, with a duplicate address those of class LINK. -/
def State.ownReady (s : State) (port : Nat) : List Frame :=
  if s.get .RNG_STATUS_STATE = 5 then []
  else (kvGet s.ring.own port []).filter (fun f => !s.on .RNG_STATUS_DUPLICATE || f.cls == clsLink)

/-- Sends an own frame (R475). -/
def sendOwnFrame (port : Nat) (f : Frame) (s : State) : State :=
  let c := port * 4 + f.cls
  frameOut port f ((keepEgress port f s).withRing (fun r =>
    { r with
      own := kvSet r.own port ((kvGet r.own port []).erase f)
      since := kvSet r.since port 0
      credit := kvSet r.credit c (kvGet r.credit c 0 - frameUnits f) }))

/-- Sends a transit frame, and returns its credit to the hop it came from (R475). -/
def sendTransit (port : Nat) (q : Frame × Nat) (rest : List (Frame × Nat)) (s : State) : State :=
  let c := port * 4 + q.1.cls
  frameOut port q.1 ((creditBack q.2 q.1 s).withRing (fun r =>
    { r with
      transit := kvSet r.transit port rest
      since := kvSet r.since port (kvGet r.since port 0 + 1)
      credit := kvSet r.credit c (kvGet r.credit c 0 - frameUnits q.1) }))

/-- FRAME_TRANSMIT (R470, R475): a transit frame before a local one, but one local frame after every 4 of transit; through a
lost span none goes. -/
def doFrameTransmit (port : Nat) (s : State) : State :=
  if s.ring.bypass ∨ 1 < port ∨ s.wrapped port ∨ kvHas s.ring.lost port ∨ !s.pdOn (34 + port) then s
  else
    match s.nextFrame port (·.1) (kvGet s.ring.transit port []), s.nextFrame port id (s.ownReady port) with
    | some (q, t), some (g, _) => if 4 ≤ kvGet s.ring.since port 0 then sendOwnFrame port g s else sendTransit port q t s
    | some (q, t), none => sendTransit port q t s
    | none, some (g, _) => sendOwnFrame port g s
    | none, none => s

/-- CREDIT_RETURN (R475). DESIGN CHOICE, log entry 30. -/
def doCreditReturn (port cls units : Nat) (s : State) : State :=
  if 1 < port ∨ 3 < cls then s
  else s.withRing (fun r => { r with credit := kvSet r.credit (port * 4 + cls) (kvGet r.credit (port * 4 + cls) 0 + units) })

/-! ## Frames in -/

/-- The ACK payload for a flow (R477). -/
def RxFlow.ack (f : RxFlow) (cls : Nat) : List Byte :=
  let bm := (List.range 64).foldl (fun v i => if kvHas f.held ((f.cum + 1 + i) % 2 ^ 32) then setBit v i else v) 0
  leBytes 1 cls ++ zeros 3 ++ leBytes 4 f.cum ++ leBytes 8 bm

/-- Answers a flow with an ACK. -/
def sendAck (cls src : Nat) (s : State) : State :=
  let f := kvGet s.ring.rx (flowKey cls src) {}
  queueOwn (s.shortWay src) (s.newFrame clsLink linkAck src (f.ack cls)) s

/-- A REMOTE message from its frame. A READ is answered by the command REMOTE_READ, which brings what host memory held. -/
def remoteMsg (f : Frame) (s : State) : State :=
  let p := f.payload
  let h : RemoteHdr :=
    { src := f.src, token := fieldAt p 0 8, fn := fieldAt p 22 2, sch := fieldAt p 20 2, gen := f.gen, addr := fieldAt p 8 8
      len := fieldAt p 16 4, req := fieldAt p 24 8 }
  let d := (p.drop 64).take h.len
  match f.kind with
  | 1 => doRemoteStart h (fieldAt p 32 8) s
  | 2 => doRemoteControl h (fieldAt p 32 1) (fieldAt p 36 4) s
  | 4 => doReadData h (if fieldAt p 32 1 = 0 then .ok d else .failed) s
  | 5 => doRemoteWrite h (fieldAt p 32 1 == 1) d s
  | 6 => doRemoteStatus h d s
  | 7 => doRemoteQuery h s
  | 8 => doRemoteAnswer h (fieldAt p 32 1 == 1) s
  | 9 => doRemoteReset h (fieldAt p 32 2) s
  | _ => s

/-- A reliable message is delivered (R479); in DORMANT a REMOTE message is held and wakes the module (R484). -/
def deliverMsg (f : Frame) (s : State) : State :=
  let s := s.bump .RNG_RX_MSGS_COUNT
  if f.cls = clsControl then (if f.kind = 2 then doRingRemove f.src f.pairId s else s)
  else if f.cls = clsPair then applyMirror f.src f.kind f.payload s
  else if s.mode = Mode.dormant then s.withRing (fun r => { r with dormantHeld := r.dormantHeld ++ [f] })
  else remoteMsg f s

/-- Delivers the messages held behind a gap that is now filled. -/
def deliverHeld (key : Nat) : Nat → State → State
  | 0, s => s
  | n + 1, s =>
    let f := kvGet s.ring.rx key {}
    let q := (f.cum + 1) % 2 ^ 32
    match kvGet? f.held q with
    | none => s
    | some m =>
      let s := s.withRing (fun r => { r with rx := kvSet r.rx key { f with cum := q, held := kvDel f.held q } })
      deliverHeld key n (deliverMsg m s)

/-- A reliable message arrives (R479): in sequence it is delivered, ahead of it held, else it is a duplicate. -/
def acceptMsg (f : Frame) (s : State) : State :=
  let key := flowKey f.cls f.src
  let rx := kvGet s.ring.rx key {}
  let d := (f.seq + 2 ^ 32 - rx.cum) % 2 ^ 32
  if d = 0 ∨ 64 < d ∨ kvHas rx.held f.seq then sendAck f.cls f.src (s.bump .RNG_DUP_COUNT)
  else
    let s := s.withRing (fun r => { r with rx := kvSet r.rx key { rx with held := kvSet rx.held f.seq f } })
    sendAck f.cls f.src (deliverHeld key 65 s)

/-- A CONTROL or PAIR frame of a claim below the highest kept for its pair id is answered with a CLAIM-NACK (R482). -/
def claimLow (f : Frame) (s : State) : Bool :=
  (f.cls == clsControl || f.cls == clsPair) && s.onB .RNG_CLAIM_VALID f.pairId && decide (f.claim < s.getB .RNG_CLAIM_CLAIM f.pairId)

/-- A frame for this node (R479, R480, R482). -/
def deliverFrame (port : Nat) (f : Frame) (s : State) : State :=
  if f.session < kvGet s.ring.sessions f.src 0 then s.bump .RNG_STALE_COUNT
  else
    let s := seeSession f.src f.session s
    if f.cls = clsLink then
      let p := f.payload
      match f.kind with
      | 1 => doRingAnnounce f.src (fieldAt p 0 1) (fieldAt p 1 16) f.pairId f.claim f.session s
      | 2 => doRingLeave f.src port s
      | 3 => doRingAck f.src (fieldAt p 0 1) (fieldAt p 4 4) (fieldAt p 8 8) s
      | 4 => doClaimNack f.src (fieldAt p 8 1) (fieldAt p 0 4) (fieldAt p 4 4) s
      | _ => s
    else if claimLow f s then
      let d := leBytes 4 (s.getB .RNG_CLAIM_CLAIM f.pairId) ++ leBytes 4 f.seq ++ leBytes 1 f.cls
      queueOwn (s.shortWay f.src) (s.newFrame clsLink linkClaimNack f.src d) (s.bump .RNG_CLAIM_DROP_COUNT)
    else acceptMsg f s

/-- Passes a transit frame on to the other port, or back when that one is wrapped (R469, R474). -/
def passOn (port : Nat) (f : Frame) (s : State) : State :=
  let out := 1 - port
  let f := { f with hops := f.hops + 1 }
  let (out, f) := if s.wrapped out then (port, { f with wrapped := true }) else (out, f)
  s.withRing (fun r => { r with transit := kvSet r.transit out (kvGet r.transit out [] ++ [(f, port)]) })

/-- A frame that the node has taken off the ring leaves its buffer: its credit is returned, but not that of a REMOTE message
that fills the hold buffer of a DORMANT node (R475, R484). -/
def takeOff (port : Nat) (f : Frame) (s : State) : State :=
  let held := s.ring.dormantHeld.foldl (fun n x => n + 256 * frameUnits x) 0
  if s.mode = Mode.dormant ∧ f.cls = clsRemote ∧ Config.dormantBuffer ≤ held then
    s.withRing (fun r => { r with owed := kvSet r.owed port (kvGet r.owed port 0 + frameUnits f) })
  else creditBack port f s

/-- Whether a frame is malformed beside its header check (R473). DESIGN CHOICE, log entry 30. -/
def frameBad (f : Frame) : Bool :=
  decide (9216 < f.payload.length) || decide (3 < f.cls) || decide (64 ≤ f.hops) || decide (32 ≤ f.dst) || decide (32 ≤ f.src) ||
  (f.broadcast && f.cls != clsLink) || (f.cls == clsControl && f.kind != 1 && f.kind != 2)

/-- RING_FRAME_RECEIVE (R469, R473, R474, R481). An own broadcast that comes back says whether a wrap turned it. -/
def doRingFrameReceive (port : Nat) (f : Frame) (crcOk hdrOk : Bool) (s : State) : State :=
  if s.ring.bypass ∨ 1 < port ∨ !s.pdOn (34 + port) then s
  else if !hdrOk || frameBad f then creditBack port f (s.bumpB .RNG_MALFORMED_COUNT port 1)
  else if !crcOk then creditBack port f (raiseCe (39 + port) 11 7 f.src 0 (s.bumpB .RNG_CRC_DROP_COUNT port 1))
  else
    let s := keepClaim f.src f.pairId f.claim s
    if f.src = s.node then
      takeOff port f (if f.broadcast then deliverFrame port f (s.withRing (fun r => { r with farWrap := f.wrapped })) else s)
    else if f.broadcast then passOn port f (deliverFrame port f s)
    else if f.dst = s.node then takeOff port f (deliverFrame port f s)
    else passOn port f s

/-- MIRROR_MESSAGE (R479, R482, R521): one of the active member's mirror messages arrives at the standby. -/
def doMirrorMessage (src seq : Nat) (m : MirrorItem) (s : State) : State :=
  let (kind, d) := mirrorItem m
  acceptMsg
    { dst := s.node, src := src, cls := clsPair, seq := seq, claim := s.getB .RNG_CLAIM_CLAIM (s.get .CLM_PAIR_PAIR_ID)
      pairId := s.get .CLM_PAIR_PAIR_ID, session := kvGet s.ring.sessions src 0, kind := kind, payload := d } s

/-- REMOTE messages held in DORMANT are delivered once the module is in FROND (R484). DESIGN CHOICE, log entry 30. -/
def deliverDormant (s : State) : State :=
  let l := s.ring.dormantHeld
  let s := s.ring.owed.foldl (fun s q => s.emit (.credit q.1 clsRemote q.2)) s
  l.foldl (fun s f => remoteMsg f s) (s.withRing (fun r => { r with dormantHeld := [], owed := [] }))

end Sys2Proof.Machine
end

