-- ==== Sys2Proof/Machine/HostPort.lean ====
section
/-!
DEFINITION. The host port and the function manager: function reset, VFM commands, queue registers, mailboxes, dirty logging,
the link and configuration space (R145 to R148, R488 to R515).
-/

namespace Sys2Proof.Machine

/-- The state with the host port changed. -/
def State.withHst (s : State) (f : HstState → HstState) : State := { s with hst := f s.hst }

/-! ## Function reset -/

/-- Clears the mailbox of a VF on both sides (R507). -/
def clearMailbox (fn : Nat) (s : State) : State :=
  let fs : List Fld := [.VFM_MBX_CTL_BUSY, .VFM_MBX_CTL_FULL, .FN_MBX_CTL_BUSY, .FN_MBX_CTL_FULL]
  fs.foldl (fun s f => s.setB f fn 0) s

/-- Clears the queue control of a function (*Kinds of function reset*): every word that waits for a queue goes with it. -/
def clearQueues (fn : Nat) (s : State) : State :=
  (List.range 32).foldl (fun s i =>
    let q := cqKey fn i
    let fs : List Fld := [.FN_CQ_CFG_ENABLE, .FN_CQ_BASE_BASE, .FN_CQ_HEAD_HEAD, .FN_CQ_HEAD_TAIL]
    (fs.foldl (fun s f => s.setB f q 0) s).withCss (fun c =>
      { c with posts := kvDel c.posts q, coal := kvDel c.coal q, sent := kvDel c.sent q })) s

/-- The words of a function's programs that wait for a queue go; replies stay where the queues keep running (R147, R508). DESIGN CHOICE, log entry 45. -/
def dropPosts (fn : Nat) (s : State) : State :=
  let left := s.css.posts.map (fun q => if q.1 / 32 = fn then (q.1, q.2.filter (fun p => p.kind == .reply)) else q)
  s.withCss (fun c => { c with posts := left.filter (fun q => !q.2.isEmpty) })

/-- Drops the DMA writes that a function in D3hot holds back (R146). -/
def dropHeld (fn : Nat) (s : State) : State :=
  let n := (s.hst.heldWrites.filter (fun w => w.fn == fn)).length
  (s.withHst (fun h => { h with heldWrites := h.heldWrites.filter (fun w => w.fn != fn) })).bumpN .CSS_GEN_DROPPED_COUNT n

/-- Sends RESET to every node that runs a program of a function (R483). -/
def tellNodes (fn gen : Nat) (s : State) : State :=
  let nodes := ((s.subsOf fn).filterMap (fun q => if q.2.remote && (q.2.prog.map (·.journaled)).getD false then some q.2.node
    else none)).eraseDups
  nodes.foldl (fun s n => sendRemote 9 n gen 0 0 0 fn 0 (leBytes 2 gen) [] s) s

/-- Advances a function's generation (R18, R505): kept in MRAM and mirrored. DESIGN CHOICE, log entry 45. -/
def advanceGen (fn : Nat) (s : State) : State :=
  let g := nextGen (s.gen fn)
  (mirror pairGen (leBytes 2 fn ++ leBytes 2 g) (s.setB .VFM_FSTAT_GEN fn g)).2

/-- FINAL records of a function's programs that are asked for and not yet written are not written: the reset writes its own
(R147, R148). -/
def dropFinals (fn : Nat) (s : State) : State :=
  s.withJnl (fun j => { j with pending := j.pending.filter (fun q =>
    !(q.record.fn == fn && !isExec q.record.sch && q.acts.any (fun a => match a with
      | .final _ _ posted => posted
      | _ => false))) })

/-- A function reset begins, or joins the one that runs (R145, R148, R508, R509). DESIGN CHOICE, log entry 45. DEDUCED, log entry 90. -/
def beginReset (fn : Nat) (clear : Bool) (s : State) : State :=
  let running := kvHas s.css.resets fn
  let s :=
    if running then s
    else
      let old := s.gen fn
      let r : JRec := { sch := 0, token := 0, seq := 0, fn := fn, node := s.node, body := .reset old (nextGen old) }
      let s := dropFinals fn (tellNodes fn (nextGen old) (advanceGen fn (jnlAsk r [] s)))
      let s := (s.subsOf fn).foldl (fun s q =>
        setSt q.1 .resetting (match q.2.prog with | some p => dropRequests q.1 p s | none => s)) s
      let s := s.withCss (fun c => { c with ctl := kvDel c.ctl fn })
      dropPosts fn (dropHeld fn (clearMailbox fn (s.setFn fn { s.fnOf fn with paused := false })))
  let s := s.withCss (fun c => { c with resets := kvSet c.resets fn (kvGet c.resets fn false || clear) })
  if clear then clearQueues fn s else s

/-- FUNCTION_RESET (R145). -/
def doFunctionReset (fn : Nat) (clear : Bool) (s : State) : State :=
  if (s.fnOf fn).created then beginReset fn clear s else s

/-- Tuber revokes a handle (R193, R545): it is revoking until no program that used it is left; an unusable one is revoked at
once. The change is mirrored. -/
def revokeHandle (h : Nat) (s : State) : State :=
  match kvGet? s.tub.handles h with
  | none => s
  | some x =>
    let x := if x.st = 1 then { x with st := 2 } else if x.st = 4 then { x with st := 3 } else x
    let s := zeroiseKeys [h] { s with tub := { s.tub with handles := kvSet s.tub.handles h x } }
    match kvGet? s.tub.handles h with
    | some y => (mirror pairHandle (handleBytes h y) s).2
    | none => s

/-- The handles of a function that a DESTROY revokes. -/
def State.handlesOf (s : State) (fn : Nat) : List Nat :=
  (s.tub.handles.filter (fun q => q.2.fn == fn && (q.2.st == 1 || q.2.st == 4))).map (·.1)

/-- Tuber revokes a handle for a DESTROY, its entry made in the room that was reserved (R504). -/
def revokeLogged (h : Nat) (s : State) : State := revokeHandle h (checkLogFull (logRaw 0x5000 7 0x12 h 0 s))

/-- Steps 2 to 5 of DESTROY (R504). DESIGN CHOICE, log entry 19. DEDUCED, log entry 90. -/
def destroyRest (fn : Nat) (s : State) : State :=
  let s := releaseSubs ((s.subsOf fn).map (·.1)) s
  let s := (List.range 1024).foldl (fun s d =>
    if s.bitB .MPT_DEV_GRANT_VF d (fn - 1) then s.setBitB .MPT_DEV_GRANT_VF d (fn - 1) false else s) s
  let s := s.eng.doms.foldl (fun s q => s.setBitB .ENG_DOM_GRANT_VF q.1 (fn - 1) false) s
  let s := s.withEng (fun e => { e with doms := e.doms.map (fun q => (q.1, { q.2 with vfGrant := clearBit q.2.vfGrant (fn - 1) })) })
  let s := (s.handlesOf fn).foldl (fun s h => revokeLogged h s) s
  let s := (s.setFn fn { d3 := (s.fnOf fn).d3 }).setB .VFM_DIRTY_CTL_ENABLE fn 0
  (s.withHst (fun h => { h with destroying := none })).set .VFM_CMD_BUSY 0

/-- An FLR of a VF is complete (R508). -/
def flrDone (fn : Nat) (s : State) : State :=
  raiseVec 0 (s.get .VFM_CTL_VECTOR) (s.setBitB .VFM_EVENT_FLR 0 (fn - 1) true)

/-- Whether the RESET record of a function is not yet durable. -/
def State.resetPending (s : State) (fn : Nat) : Bool :=
  s.jnl.pending.any (fun p => p.record.fn == fn && (match p.record.body with
    | .reset .. => true
    | _ => false))

/-- FUNCTION_RESET_COMPLETE (R146, R147): the engines have finished their blocks; old-generation programs end, the
subchannels are IDLE, and what asked for the reset is told. -/
def doFunctionResetComplete (fn : Nat) (s : State) : State :=
  if !kvHas s.css.resets fn ∨ s.resetPending fn then s
  else
    let s := (s.subsOf fn).foldl (fun s q => resetProg q.1 s) s
    let s := (s.subsOf fn).foldl (fun s q => setSt q.1 .idle s) s
    let s := s.withCss (fun c => { c with resets := kvDel c.resets fn })
    let s := if s.hst.destroying = some fn then destroyRest fn s else s
    let s := if s.hst.vfmReset = some fn then (s.withHst (fun h => { h with vfmReset := none })).set .VFM_CMD_BUSY 0 else s
    if s.hst.flrs.contains fn then flrDone fn (s.withHst (fun h => { h with flrs := h.flrs.filter (· != fn) })) else s

/-! ## Configuration space and the link -/

/-- The configuration space of a function returns to its defaults, with its MSI-X table and pending bits. -/
def resetConfig (fn : Nat) (s : State) : State :=
  let s := s.setFn fn { s.fnOf fn with d3 := false }
  s.withHst (fun h =>
    { h with
      config := h.config.filter (fun q => q.1 / 4096 != fn)
      msix := h.msix.filter (fun q => q.1 / 64 != fn)
      msixOn := h.msixOn.filter (· != fn)
      msixMask := h.msixMask.filter (· != fn) })

/-- FLR of a VF (R508, R509). -/
def doFlr (vf : Nat) (s : State) : State :=
  if vf = 0 ∨ 64 < vf ∨ !s.hst.vfEnable then s
  else
    let s := resetConfig vf s
    if (s.fnOf vf).created then
      beginReset vf true (s.withHst (fun h => { h with flrs := if h.flrs.contains vf then h.flrs else h.flrs ++ [vf] }))
    else flrDone vf s

/-- The VFs that exist. -/
def State.vfs (s : State) : List Nat := ((List.range 64).map (· + 1)).filter (fun f => (s.fnOf f).created)

/-- VF_ENABLE_CLEAR (R508): every created VF is reset, and the VFs leave configuration space. -/
def doVfEnableClear (s : State) : State :=
  let s := s.vfs.foldl (fun s f => beginReset f true s) (s.withHst (fun h => { h with vfEnable := false, vfMse := false }))
  (List.range 64).foldl (fun s i => resetConfig (i + 1) s) s

/-- Whether the mode allows the full link (*Link by mode*). -/
def State.fullLink (s : State) : Bool := [Mode.fiddlehead, Mode.frond, Mode.standby, Mode.maintenance, Mode.dormant].contains s.mode

/-- The link follows the mode (*Link by mode*, R490): SPORE and CRUST hold it to x4 at 8 GT/s. -/
def linkByMode (s : State) : State :=
  if s.fullLink then
    let w := if s.on .HST_LINK_UPCFG || decide (4 < s.get .HST_LINK_WIDTH) then 16 else 4
    (s.set .HST_LINK_MAX_SPEED 5).set .HST_LINK_MAX_WIDTH w
  else
    let s := (s.set .HST_LINK_MAX_SPEED 3).set .HST_LINK_MAX_WIDTH 4
    (s.set .HST_LINK_SPEED (min 3 (s.get .HST_LINK_SPEED))).set .HST_LINK_WIDTH (min 4 (s.get .HST_LINK_WIDTH))

/-- The link trains (R488, R584): speed, width and the partner's upconfiguration are the partner's, free values here. DESIGN CHOICE, log entry 92. -/
def trainLink (refclk : Bool) (s : State) : State :=
  let (a, s) := s.draw
  let (b, s) := s.draw
  let (c, s) := s.draw
  let full := s.fullLink
  let speed := if full then 3 + Config.freeNat a % 3 else 3
  let width := if full then 4 * 2 ^ (Config.freeNat b % 3) else 4
  let s := (s.set .HST_LINK_UP 1).set .HST_LINK_UPCFG (Config.freeNat c % 2)
  let s := (s.set .HST_LINK_SPEED speed).set .HST_LINK_WIDTH width
  linkByMode (s.withHst (fun h => { h with commonClk := refclk }))

/-- HOST_PORT_RESET (R492, R584): PERST#, a hot reset or a Link Down, and the training after it. -/
def doHostPortReset (wasUp refclk : Bool) (s : State) : State :=
  if s.mode = Mode.off then s
  else
    let s := if wasUp then s.bump .HST_LINK_DOWNS_COUNT else s
    let s := (0 :: s.vfs).foldl (fun s f => beginReset f true s) s
    let s := (List.range 65).foldl (fun s f => resetConfig f s) s
    trainLink refclk (s.withHst (fun h => { h with vfEnable := false, vfMse := false }))

/-- LINK_UPCONFIGURE (R490). -/
def doLinkUpconfigure (upcfg : Bool) (speed width : Nat) (s : State) : State :=
  if !s.fullLink then s
  else
    let s := (s.set .HST_LINK_UPCFG (b2n upcfg)).set .HST_LINK_SPEED (min speed 5)
    linkByMode ((s.set .HST_LINK_WIDTH (if upcfg then min width 16 else s.get .HST_LINK_WIDTH)).set .HST_LINK_UP 1)

/-- MSI-X messages that wait are sent when nothing masks them any more (R500, R501). -/
def sendPending (fn : Nat) (s : State) : State :=
  (List.range (vectorsOf fn)).foldl (fun s v =>
    let m := s.msixAt fn v
    if m.pending && !m.masked && !s.hst.msixMask.contains fn && !s.inD3 fn && s.hst.msixOn.contains fn then
      (s.setMsix fn v { m with pending := false }).emit (.msix fn v m.addr m.data)
    else s) s

/-- POWER_STATE_CHANGE (R501): on return to D0 the DMA and interrupts held back go out. -/
def doPowerStateChange (fn : Nat) (d3 : Bool) (s : State) : State :=
  if 64 < fn ∨ (0 < fn ∧ !s.hst.vfEnable) then s
  else
    let s := s.setFn fn { s.fnOf fn with d3 := d3 }
    if d3 then s
    else
      let l := s.hst.heldWrites.filter (fun w => w.fn == fn)
      let s := s.withHst (fun h => { h with heldWrites := h.heldWrites.filter (fun w => w.fn != fn) })
      sendPending fn (l.foldl (fun s w => hostWrite w.fn w.addr w.bulk w.data s) s)

/-- Puts a function into a list, or takes it out. -/
def member (l : List Nat) (fn : Nat) (b : Bool) : List Nat := if b then (if l.contains fn then l else l ++ [fn]) else l.filter (· != fn)

/-- A configuration write (R488): the capability bits the block acts on take effect. DESIGN CHOICE, log entry 44. -/
def configWrite (fn reg v : Nat) (s : State) : State :=
  let s := s.withHst (fun h => { h with config := kvSet h.config (fn * 4096 + reg) v })
  if reg = Config.msixCap then
    sendPending fn (s.withHst (fun h =>
      { h with msixOn := member h.msixOn fn (v.testBit 31), msixMask := member h.msixMask fn (v.testBit 30) }))
  else if reg = Config.pmcsr then doPowerStateChange fn (v % 4 == 3) s
  else if reg = Config.sriovCtl ∧ fn = 0 then
    if v.testBit 0 then s.withHst (fun h => { h with vfEnable := true, vfMse := v.testBit 3 })
    else if s.hst.vfEnable then doVfEnableClear s
    else s
  else s

/-- A configuration read: the identity of R488, else the last write, else a value the spec does not give. DESIGN CHOICE, log entry 44. -/
def configRead (fn reg : Nat) (s : State) : Nat × State :=
  if reg = 0 then ((if fn = 0 then 0x72105756 else 0x72115756), s)
  else if reg = 8 then (0x01800000 + s.get .HST_ID_REV, s)
  else if reg = 0x3C then (0, s)
  else match kvGet? s.hst.config (fn * 4096 + reg) with
    | some v => (v, s)
    | none => let (k, s) := s.draw; (Config.freeNat k % 2 ^ 32, s)

/-- CONFIG_REQUEST (R488, R491): completed successfully; a function that is not enabled is not there. -/
def doConfigRequest (fn reg : Nat) (wr : Option Nat) (s : State) : State :=
  if s.mode = Mode.off then s
  else if 64 < fn ∨ (0 < fn ∧ !s.hst.vfEnable) then s.emit (.completion none)
  else match wr with
    | some v => (configWrite fn reg (v % 2 ^ 32) s).emit (.completion (some 0))
    | none => let (v, s) := configRead fn reg s; s.emit (.completion (some v))

/-! ## Queue registers -/

/-- An access of the host to a function's own page: VF Enable and MSE off leave a VF's range unclaimed, a VF that is not
created discards and counts writes, a dark channel subsystem answers as R493 (R496). -/
def fnPage (fn : Nat) (act : State → State) (s : State) : State :=
  if s.mode = Mode.off ∨ 64 < fn ∨ (0 < fn ∧ (!s.hst.vfEnable || !s.hst.vfMse)) then s
  else
    let s := dropLatch s
    if !(s.fnOf fn).created then s.bump .HST_NOFUNC_COUNT
    else if !s.pdOn 30 then darkAccess s
    else act s

/-- Whether BASE and LOG2 of a queue may be written (R498). -/
def State.cqOpen (s : State) (q : Nat) : Bool :=
  !s.onB .FN_CQ_CFG_ENABLE q && s.getB .FN_CQ_HEAD_HEAD q == s.getB .FN_CQ_HEAD_TAIL q

/-- A field of a queue that is writable only while `cqOpen`: any other write that would change it sets CFGERR (R498). -/
def cqSet (q : Nat) (f : Fld) (v : Nat) (s : State) : State :=
  if v = s.getB f q then s
  else if s.cqOpen q then s.setB f q v
  else s.setB .FN_CQ_CFG_CFGERR q 1

/-- A write to FN_CQ_CFG of queue `q` (R498). -/
def cqConfig (q v : Nat) (s : State) : State :=
  let s := if v.testBit 33 then s.setB .FN_CQ_CFG_HEADERR q 0 else s
  let s := if v.testBit 34 then s.setB .FN_CQ_CFG_CFGERR q 0 else s
  let s := cqSet q .FN_CQ_CFG_LOG2 (bits v 5 1) s
  let s := (s.setB .FN_CQ_CFG_VECTOR q (bits v 11 6)).setB .FN_CQ_CFG_COAL_COUNT q (bits v 19 12)
  let s := s.setB .FN_CQ_CFG_COAL_US q (bits v 31 20)
  if !v.testBit 0 then s.setB .FN_CQ_CFG_ENABLE q 0
  else if s.onB .FN_CQ_CFG_ENABLE q then s
  else
    let l := s.getB .FN_CQ_CFG_LOG2 q
    if 6 ≤ l ∧ l ≤ 16 then s.setB .FN_CQ_CFG_ENABLE q 1 else s.setB .FN_CQ_CFG_CFGERR q 1

/-- FN_CQ_CFG_WRITE (R498): a write to FN_CQ_BASE or FN_CQ_CFG. -/
def doFnCqCfgWrite (fn cq : Nat) (base : Bool) (v : Nat) (s : State) : State :=
  fnPage fn (fun s =>
    if s.ncqOf fn ≤ cq then s
    else if base then cqSet (cqKey fn cq) .FN_CQ_BASE_BASE (bits v 63 12) s
    else cqConfig (cqKey fn cq) v s) s

/-- FN_CQ_HEAD_WRITE (R134, R499): an advance within the ring passes its words; any other value sets HEADERR. -/
def doFnCqHeadWrite (fn cq v : Nat) (s : State) : State :=
  fnPage fn (fun s =>
    if s.ncqOf fn ≤ cq then s
    else
      let q := cqKey fn cq
      let size := s.cqSize q
      let h := s.getB .FN_CQ_HEAD_HEAD q
      let v := v % 65536
      let d := (v + size - h % size) % size
      if size ≤ v ∨ (s.getB .FN_CQ_HEAD_TAIL q + size - h % size) % size < d then s.setB .FN_CQ_CFG_HEADERR q 1
      else if d = 0 then s
      else
        let l := kvGet s.css.sent q []
        (s.setB .FN_CQ_HEAD_HEAD q v).withCss (fun c =>
          { c with sent := kvSet c.sent q (l.drop d)
                   retire := kvSet c.retire q (kvGet c.retire q [] ++ (l.take d).filterMap id) })) s

/-! ## VFM commands -/

/-- The function VFM_SEL names. -/
def State.vfmSel (s : State) : Nat := s.get .VFM_SEL_FUNCTION

/-- The window VFM_WIN holds for a function: its base and units. -/
def State.vfmWin (s : State) (fn : Nat) : Nat × Nat := (s.getB .VFM_WIN_BASE fn * 2 ^ 21, s.getB .VFM_WIN_UNITS fn)

/-- Whether a window leaves DRAM or overlaps another function's (R502). -/
def State.badWin (s : State) (fn : Nat) : Bool :=
  let (base, n) := s.vfmWin fn
  decide (0 < n) && (decide (dramSize < base + n * 2 ^ 21) || (List.range 65).any (fun g =>
    let f := s.fnOf g
    g != fn && f.created && decide (0 < f.winUnits) && decide (base < f.winBase + f.winUnits * 2 ^ 21) &&
      decide (f.winBase < base + n * 2 ^ 21)))

/-- A VFM_CMD command (R601, R602). DESIGN CHOICE, log entry 17. -/
def vfmCommand (o : Origin) (op : Nat) (checks : List (Bool × Nat)) (act : State → State) (s : State) : State :=
  busyCommand o .VFM_CMD .VFM_CMD_BUSY op .VFM_CMD_RESULT 7 checks act s

/-- VF_CREATE (R502, R505). -/
def doVfCreate (o : Origin) (w : Nat) (s : State) : State :=
  let fn := s.vfmSel
  let ncq := s.getB .VFM_CFG_NCQ fn
  vfmCommand o w [(fn == 0 || decide (64 < fn), 1), ((s.fnOf fn).created, 2), (ncq == 0 || decide (8 < ncq), 3), (s.badWin fn, 4)]
    (fun s =>
      let (base, n) := s.vfmWin fn
      let s := logBy o 6 fn (s.gen fn) (nextGen (s.gen fn)) s
      advanceGen fn (s.setFn fn { s.fnOf fn with created := true, paused := false, ncq := ncq, winUnits := n, winBase := base })) s

/-- Whether the change log has room for `n` more entries of the manager (R504, R552). -/
def State.logFits (s : State) (o : Origin) (n : Nat) : Bool :=
  originCode o == 0 || originCode o == 0x8000 || (!s.logFull && decide (s.logUnexported + n ≤ logCapacity - 65536))

/-- The generation before one. -/
def prevGen (g : Nat) : Nat := if g = 1 then 0xFFFF else g - 1

/-- VF_DESTROY (R504, R505, R509): a reset that runs serves as its first step. -/
def doVfDestroy (o : Origin) (w : Nat) (s : State) : State :=
  let fn := s.vfmSel
  vfmCommand o w [(fn == 0 || decide (64 < fn), 1), (!(s.fnOf fn).created, 2), (s.eng.doms.any (fun q => q.2.owner == fn), 5),
      (!s.logFits o (2 + (s.handlesOf fn).length), 7)]
    (fun s =>
      let running := kvHas s.css.resets fn
      let g := s.gen fn
      let s := if running then logBy o 6 fn (prevGen g) g s else logBy o 6 fn g (nextGen g) s
      let s := (s.withHst (fun h => { h with destroying := some fn })).set .VFM_CMD_BUSY 1
      beginReset fn true s) s

/-- VFM_RESET (R508, R509): BUSY until the reset is complete. -/
def doVfmReset (o : Origin) (w : Nat) (s : State) : State :=
  let fn := s.vfmSel
  vfmCommand o w [(decide (64 < fn), 1), (!(s.fnOf fn).created, 2)]
    (fun s => beginReset fn false ((s.withHst (fun h => { h with vfmReset := some fn })).set .VFM_CMD_BUSY 1)) s

/-- PAUSE (R510). -/
def doVfmPause (o : Origin) (w : Nat) (s : State) : State :=
  let fn := s.vfmSel
  vfmCommand o w [(decide (64 < fn), 1), (!(s.fnOf fn).created, 2)] (fun s => s.setFn fn { s.fnOf fn with paused := true }) s

/-- UNPAUSE (R510). -/
def doVfmUnpause (o : Origin) (w : Nat) (s : State) : State :=
  let fn := s.vfmSel
  vfmCommand o w [(decide (64 < fn), 1), (!(s.fnOf fn).created, 2)] (fun s => s.setFn fn { s.fnOf fn with paused := false }) s

/-- SETWIN (R502). -/
def doVfmSetwin (o : Origin) (w : Nat) (s : State) : State :=
  let fn := s.vfmSel
  vfmCommand o w [(decide (64 < fn), 1), (!(s.fnOf fn).created, 2), (s.badWin fn, 4), ((s.subsOf fn).any (fun q => q.2.st != .idle), 6)]
    (fun s =>
      let (base, n) := s.vfmWin fn
      s.setFn fn { s.fnOf fn with winUnits := n, winBase := base }) s

/-! ## Mailboxes and dirty logging -/

/-- A buffer of 256 bytes with the first `n` replaced. -/
def bufferWith (old new : List Byte) (n : Nat) : List Byte := new.take n ++ (padTo 256 old).drop n

/-- An access to the mailbox of a VF: the PF's through its registers, the VF's on its own page (R495, R496). -/
def mailboxPage (fromPf : Bool) (vf : Nat) (act : State → State) (s : State) : State :=
  if vf = 0 ∨ 64 < vf then s
  else if fromPf then reach .pf .VFM_MBX_CTL act s
  else fnPage vf act s

/-- The message of a sender's buffer appears in the receiver's, whose vector is raised (R506). -/
def sendMail (fromPf : Bool) (vf len : Nat) (s : State) : State :=
  if fromPf then
    let d := leBytes 256 (s.getB .VFM_MBX_OUT_DATA vf)
    let s := (s.setB .VFM_MBX_CTL_LEN vf len).setB .VFM_MBX_CTL_BUSY vf 1
    let s := s.withHst (fun h => { h with vfIn := kvSet h.vfIn vf (bufferWith (kvGet h.vfIn vf []) d len) })
    let s := (s.setB .FN_MBX_CTL_FULL vf 1).setB .FN_MBX_CTL_IN_LEN vf len
    raiseVec vf (s.getB .FN_MBX_CTL_VECTOR vf) s
  else
    let d := padTo 256 (kvGet s.hst.vfOut vf [])
    let s := (s.setB .FN_MBX_CTL_LEN vf len).setB .FN_MBX_CTL_BUSY vf 1
    let s := s.setB .VFM_MBX_IN_DATA vf (leNat (bufferWith (leBytes 256 (s.getB .VFM_MBX_IN_DATA vf)) d len))
    let s := (s.setB .VFM_MBX_CTL_FULL vf 1).setB .VFM_MBX_CTL_IN_LEN vf len
    raiseVec 0 (s.get .VFM_CTL_VECTOR) s

/-- MAILBOX_SEND (R506, R507). -/
def doMailboxSend (fromPf : Bool) (vf len : Nat) (s : State) : State :=
  mailboxPage fromPf vf (fun s =>
    let busy := if fromPf then s.onB .VFM_MBX_CTL_BUSY vf else s.onB .FN_MBX_CTL_BUSY vf
    if !(s.fnOf vf).created then s
    else if busy ∨ len = 0 ∨ 256 < len ∨ (!fromPf ∧ s.onB .VFM_MBX_CTL_BLOCK vf) then s.bump .HST_MBX_REFUSED_COUNT
    else sendMail fromPf vf len s) s

/-- MAILBOX_ACK (R506): the receiver `fromPf` names takes its message. -/
def doMailboxAck (fromPf : Bool) (vf : Nat) (s : State) : State :=
  mailboxPage fromPf vf (fun s =>
    if fromPf then
      if s.onB .VFM_MBX_CTL_FULL vf then (s.setB .VFM_MBX_CTL_FULL vf 0).setB .FN_MBX_CTL_BUSY vf 0 else s
    else if s.onB .FN_MBX_CTL_FULL vf then (s.setB .FN_MBX_CTL_FULL vf 0).setB .VFM_MBX_CTL_BUSY vf 0
    else s) s

/-- DIRTY_SYNC (R514, R602). -/
def doDirtySync (o : Origin) (s : State) : State :=
  reach o .VFM_DIRTY_CMD (fun s =>
    let fn := s.vfmSel
    if s.onB .VFM_DIRTY_CMD_BUSY fn then s.setB .VFM_DIRTY_CMD_RESULT fn 2
    else if !s.onB .VFM_DIRTY_CTL_ENABLE fn then s.setB .VFM_DIRTY_CMD_RESULT fn 1
    else
      let s := s.setB .VFM_DIRTY_CTL_ACTIVE fn (1 - s.getB .VFM_DIRTY_CTL_ACTIVE fn)
      (s.setB .VFM_DIRTY_CMD_BUSY fn 1).setB .VFM_DIRTY_CMD_RESULT fn 0) s

/-- DIRTY_SYNC_COMPLETE (R514): a write is marked as it is issued, so every earlier one stands in the old map. -/
def doDirtySyncComplete (fn : Nat) (s : State) : State := s.setB .VFM_DIRTY_CMD_BUSY fn 0

end Sys2Proof.Machine
end

