-- ==== Sys2Proof/Machine/ModeBase.lean ====
section
/-!
DEFINITION. The mode controller's own acts: what a mode change writes, the power domains of each mode, what a restart loses
and keeps, and how a start fails (R557 to R562, R568, R572 to R575).
-/

namespace Sys2Proof.Machine

/-- The state with the mode controller changed. -/
def State.withMod (s : State) (f : ModState → ModState) : State := { s with mod_ := f s.mod_ }

/-- The state with Tuber changed. -/
def State.withTub (s : State) (f : TubState → TubState) : State := { s with tub := f s.tub }

/-! ## Domains by mode -/

/-- The mask with the given bits set. -/
def maskOf (l : List Nat) : Nat := l.foldl setBit 0

/-- Domains of the pods that are not FAILED. -/
def State.podDomains (s : State) : List Nat := ((List.range 16).filter (fun n => s.physState n != 2)).map (· + 2)

/-- Domains of the spares. -/
def State.spareDomains (s : State) : List Nat := ((List.range 16).filter (fun n => s.physState n == 1)).map (· + 2)

/-- Domains of the stripes that are not marked failed (R284). -/
def State.stripeDomains (s : State) : List Nat :=
  ((List.range 6).filter (fun k => !(s.get .MEM_STRIPE_STATUS_FAILED).testBit k)).map (· + 20)

/-- *Domain states by mode*: the domains that are on and clocked, and those with their clock stopped, in retention or in
self-refresh. CRUST begins with PD1 on, for Tuber to verify its firmware; its stripes and its pod come on as they pass. -/
def State.domainsOf (s : State) (mode : Nat) : List Nat × List Nat :=
  if mode = Mode.fiddlehead then ([0, 1, 18, 19, 30, 31, 32, 33, 34, 35] ++ s.podDomains ++ s.stripeDomains, [])
  else if mode = Mode.frond then
    ([0, 1, 18, 19, 26, 27, 28, 29, 30, 31, 32, 33, 34, 35] ++ s.stripeDomains ++
      s.podDomains.filter (fun d => !s.spareDomains.contains d), s.spareDomains)
  else if mode = Mode.dormant then ([0, 1, 33, 34, 35], 30 :: s.stripeDomains)
  else if mode = Mode.standby then
    ([0, 1, 18, 19, 30, 31, 32, 33, 34, 35] ++ s.stripeDomains ++
      s.podDomains.filter (fun d => !s.spareDomains.contains d), s.spareDomains)
  else if mode = Mode.crust then ([0, 1, 33], [])
  else if mode = Mode.maintenance then
    ([0, 1, 18, 19, 26, 27, 28, 29, 30, 31, 32, 33, 34, 35] ++ s.podDomains ++ s.stripeDomains, [])
  else if mode = Mode.spore then ([0, 33], [])
  else ([], [])

/-- Key slots of a domain that goes off are zeroised (R550, *Power-down of a domain* step 4). -/
def domainDark (d : Nat) (s : State) : State :=
  if d = 28 then s.withEng (fun e => { e with slots := [] })
  else if d = 29 then s.withEng (fun e => { e with probeOut := kvKeys e.doms })
  else s

/-- The frequency a pod runs at: PWR_POD_MHZ within its limits and the age limit (R566, R597). -/
def State.podStep (s : State) (p : Nat) : Nat :=
  min (clamp 8 32 (s.getB .PWR_POD_MHZ_STEP p)) (kvGet s.mod_.fmax (2 + s.physPod p) 32)

/-- PWR_POD_MHZ.NOW of every logical pod: 800 MHz in CRUST; with throttling no running pod is raised (R593). -/
def syncMhz (s : State) : State :=
  (List.range 16).foldl (fun s p =>
    let on := decide (p < s.get .POD_SPARES_LOGICAL) && s.pdOn (2 + s.physPod p)
    let now := s.getB .PWR_POD_MHZ_NOW p
    let f := if s.on .PWR_TEMP_THROTTLE && now != 0 then min now (s.podStep p) else s.podStep p
    s.setB .PWR_POD_MHZ_NOW p (if on then (if s.mode = Mode.crust then 8 else f) else 0)) s

/-- Brings every domain to the state of a mode (R562). -/
def setDomains (mode : Nat) (s : State) : State :=
  let d := s.domainsOf mode
  let s := if d.1.contains 28 then s else domainDark 28 s
  let s := if d.1.contains 29 then s else domainDark 29 s
  (s.set .PWR_STATE_ON (maskOf d.1)).set .PWR_CLKSTOP_STOPPED (maskOf d.2)

/-- The debug unlock ends on leaving MAINTENANCE and at any restart (R555). DESIGN CHOICE, log entry 70. -/
def endUnlock (s : State) : State :=
  (((s.set .DBG_STATUS_GRANTED 0).set .TMB_STATUS_DEBUG 0).set .DBG_STATUS_CHAL_VALID 0).withTub (fun t => { t with challenge := [] })

/-- A mode change (R557, R558, R562): MOD_CAUSE and the kind-4 entry first, then the new mode and its domains, the link
and the vector of MOD_CTL. A change is not refused once its command has been logged. DESIGN CHOICE, log entry 18. -/
def changeMode (to_ cause origin : Nat) (s : State) : State :=
  let old := s.mode
  let s := checkLogFull (logRaw origin 4 (cause + origin * 65536) old to_ s)
  let s := (s.set .MOD_CAUSE_CODE cause).set .MOD_CAUSE_ORIGIN origin
  let s := if old = Mode.maintenance then endUnlock s else s
  let up := fun (m : Nat) => m == Mode.frond || m == Mode.standby
  let s := s.withMod (fun m =>
    { m with
      modeAt := s.now
      upAt := if up old && up to_ then m.upAt else s.now
      smbAddr := if to_ = Mode.spore then s.get .MOD_MCTP_ADDR else m.smbAddr })
  let s := if to_ = Mode.off then s.withMod (fun m => { m with off := true })
    else (s.withMod (fun m => { m with off := false })).set .MOD_STATE_MODE to_
  let s := syncMhz (linkByMode (setDomains to_ (s.set .MOD_STATE_PENDING 0)))
  if to_ = Mode.off then s else raiseVec 0 (s.get .MOD_CTL_VECTOR) s

/-! ## What a restart loses -/

/-- What durable records retire stays retired: a restart carries nothing else out (R134, R147). -/
def retireActs (l : List JAct) (s : State) : State :=
  runActs (l.filter (fun a => match a with
    | .retired _ | .final _ _ false => true
    | _ => false)) s

/-- The journal before a restart: a free number of the records asked for were accepted and complete in both copies; the
others are lost (R308, R449). With `flush` the outcome is recorded in JNL_FLUSH and JNL_REFUSED. DESIGN CHOICE, log entry 92. -/
def flushJournal (flush : Bool) (s : State) : State :=
  let (a, s) := s.draw
  let (b, s) := s.draw
  let l := s.jnl.pending
  let n := Config.freeNat a % (l.length + 1)
  let w := s.jnl.writes
  let s := (l.take n).foldl (fun s p => if s.jnlTakes p.record then retireActs p.acts (jnlPut p.record s) else s) s
  let s := s.withJnl (fun j => { j with pending := [], writes := 0 })
  if flush then
    let s := (s.set .JNL_FLUSH_WRITES (min 256 (n + w))).set .JNL_FLUSH_CLEAN 1
    ((s.set .JNL_FLUSH_US (Config.freeNat b)).set .JNL_REFUSED_COUNT (l.length - n)).set .JNL_STATUS_REFUSING 0
  else s

/-- Stripes of a program's stopped object that have no STRIPE record in the journal: what its end says when it has one, or what
a halt has counted. -/
def State.leftBy (s : State) (p : Prog) : Nat :=
  match p.ending with
  | some w => if w.bits.testBit 7 then w.residual else 0
  | none =>
    if p.stripes.isEmpty then p.halt.getD 0
    else (p.stripes.filter (fun id => !s.jnlLive.any (fun q => match q.2.body with
      | .stripe j .. => j == id
      | _ => false))).length

/-- The stripes of the open objects of live programs that were not journaled, for R118 and R139. DEDUCED, log entry 31. -/
def keepStopped (s : State) : State :=
  s.css.subs.foldl (fun s q => match q.2.prog with
    | some p => if q.2.st = .redrive then s else s.withJnl (fun j => { j with stopped := kvSet j.stopped p.token (s.leftBy p) })
    | none => s) s

/-- The channel subsystem after a restart: the function of each subchannel is kept; programs and queues are not. -/
def CssState.afterRestart (c : CssState) : CssState :=
  { subs := (c.subs.filter (fun q => !isExec q.1)).map (fun q =>
      (q.1, { q.2 with st := if q.2.st = .unassigned then .unassigned else .idle, prog := none }))
    nextStripe := c.nextStripe }

/-- The engines after a restart: what lies in MRAM is kept, the purge slots among it; reservations go on from their limits
(R170, R190). -/
def EngState.afterRestart (e : EngState) : EngState :=
  { doms := e.doms, probeOut := kvKeys e.doms, purges := e.purges, dlog := e.dlog, cus := e.cus, cusOpened := e.cusOpened
    cusClosed := e.cusClosed.map (fun c => { c with signed := false, sigs := [] })
    cusPrev := e.cusPrev, cusLastObj := e.cusLastObj, notices := e.notices, mpos := e.mpos
    nextLoc := e.locLimit, locLimit := e.locLimit, invoke := e.invokeLimit, invokeLimit := e.invokeLimit }

/-- The media ports after a restart: only the places of the media scrub are kept. -/
def MptState.afterRestart (m : MptState) : MptState :=
  { devs := (m.devs.filter (fun q => q.2.scrubPos != 0)).map (fun q => (q.1, { scrubPos := q.2.scrubPos })) }

/-- DRAM after a restart: kept in self-refresh under RETAIN, else lost (R308, R561). -/
def MemState.afterRestart (retain : Bool) (m : MemState) : MemState :=
  if retain then { dram := m.dram, poison := m.poison, errs := m.errs, clearNext := m.clearNext }
  else { clearNext := m.clearNext }

/-- Resets of functions that run are completed: their records are durable or asked for again by nobody, and the functions
stand as after them (R145, R504). -/
def endResets (s : State) : State :=
  let s := match s.hst.destroying with
    | some fn => destroyRest fn s
    | none => s
  let fs := s.hst.flrs
  let s := s.withHst (fun h => { h with flrs := [], vfmReset := none, heldWrites := [], latch := none })
  let s := fs.foldl (fun s f => flrDone f s) s
  ((List.range 65).foldl (fun s f => s.setB .VFM_DIRTY_CMD_BUSY f 0) s).set .VFM_CMD_BUSY 0

/-- The fields of CLM_STATUS return to 0 at a restart. -/
def clearPair (s : State) : State :=
  let fs : List Fld := [.CLM_STATUS_ROLE, .CLM_STATUS_SYNC, .CLM_STATUS_HB_LOST, .CLM_STATUS_PEER_PRESENT,
    .CLM_STATUS_CFG_MISMATCH, .CLM_STATUS_WAIT_PEER, .CLM_STATUS_HOLD, .CLM_CMD_BUSY, .CLM_SWITCHBACK_BUSY]
  { fs.foldl (fun s f => s.set f 0) s with pair := {} }

/-- The ring ports after a restart: out of the ring, the mirrors bypassing (R463). A frame of a message not yet sent is
lost. -/
def leaveRing (s : State) : State :=
  let s := if s.ring.bypass then s else s.emit (.bypass true)
  { s with ring := {} }

/-- The registers after a restart: those of domains that SPORE switches off return to their reset values; the node address
is the shelf's (R459) and stays. DEDUCED, log entry 31. -/
def restartFields (s : State) : State :=
  let node := s.node
  (s.restartRegs (fun k => k != .no)).set .RNG_STATUS_NODE node

/-- What every restart loses (R308, R458, R561, R562). DEDUCED, log entry 31. -/
def forgetVolatile (retain flush : Bool) (s : State) : State :=
  let idx := s.get .ENG_IDX_CTL_STATE
  let order := s.get .MEM_CFG_ORDER
  let s := keepStopped (flushJournal flush s)
  let s := clearPair (endResets s)
  let s := leaveRing s
  let s := { s with css := s.css.afterRestart, eng := s.eng.afterRestart, mpt := s.mpt.afterRestart }
  let s := { s with mem := s.mem.afterRestart retain, coh := {}, cores := [], pods := [] }
  let s := s.withTub (fun t =>
    { bootBank := t.bootBank, banks := t.banks, romKeys := t.romKeys, handles := t.handles, nextHandle := t.nextHandle,
      keks := t.keks, aliasTag := t.aliasTag })
  let s := { s with flt := { clearAtStart := s.flt.clearAtStart } }
  let s := s.withMod (fun m =>
    { m with role := none, drainPaused := [], cmdBy := 0, waking := false, pwr := none, pwrRun := [], sporeReady := false })
  let fs : List Fld := [.MOD_CMD_BUSY, .MOD_STATE_PENDING, .MOD_STATE_STEPS, .PWR_RESULT_BUSY, .PWR_RESULT_DEFERRED]
  let s := restartFields (fs.foldl (fun s f => s.set f 0) s)
  let s := s.set .PWR_REFRESH_RUNNING 0
  if retain then (s.set .ENG_IDX_CTL_STATE idx).set .MEM_CFG_ORDER order else emptyIndex s

/-- Leaves a mode for SPORE. -/
def enterSpore (cause origin : Nat) (retain retry : Bool) (s : State) : State :=
  let s := changeMode Mode.spore cause origin s
  let s := forgetVolatile retain false s
  (s.withMod (fun m => { m with retryWait := retry })).set .MOD_STATE_RETAINED (b2n retain)

/-- Enters CRUST from any mode. DESIGN CHOICE, log entry 65. -/
def enterCrust (cause : Nat) (s : State) : State :=
  tuberReset (forgetVolatile false false ((changeMode Mode.crust cause 0 s).set .MOD_STATE_RETAINED 0))

/-- Counts a failed start (R572). DESIGN CHOICE, log entry 65. -/
def countFail (cause : Nat) (s : State) : State :=
  let s := s.set .MOD_START_COUNT_COUNT (min 255 (s.get .MOD_START_COUNT_COUNT + 1))
  let s := s.set .MOD_FAIL_HIST_OLDEST (s.get .MOD_FAIL_HIST_PREV)
  (s.set .MOD_FAIL_HIST_PREV (s.get .MOD_FAIL_HIST_LAST)).set .MOD_FAIL_HIST_LAST cause

/-- A start or a wake fails (R572, R574, R580): SPORE, and CRUST at the third failure in a row. DESIGN CHOICE, log entry 65. -/
def failStart (cause : Nat) (s : State) : State :=
  let s := enterSpore cause 0 false true (countFail cause s)
  if 3 ≤ s.get .MOD_START_COUNT_COUNT then enterCrust cause s else s

/-- The module loses 12 V or is held in RESET_N (R308, R572, R586): what lies in MRAM remains. -/
def losePower (s : State) : State :=
  let inStart := s.mode == Mode.fiddlehead
  let keep := s.flt.clearAtStart
  let node := s.node
  let flt := s.regs.filter (fun c =>
    [Fld.FLT_STATUS_SRC, .FLT_PLEVEL_LEVEL, .FLT_FIRST_ADDR_ADDR, .FLT_FIRST_MASTER_ORIGIN, .FLT_FIRST_TYPE_SOURCE,
      .FLT_FIRST_TYPE_LEVEL, .FLT_FIRST_TYPE_UE, .FLT_FIRST_TYPE_ESCALATED, .FLT_FIRST_TYPE_INJECTED,
      .FLT_FIRST_TYPE_ACCESS, .FLT_FIRST_TYPE_KIND, .FLT_FIRST_TYPE_DETAIL, .FLT_FIRST_TYPE_VALID,
      .FLT_FIRST_TIME_NS].contains c.fld)
  let s := changeMode Mode.off 0x0A00 0 s
  let s := forgetVolatile false true s
  let s := s.restartRegs (fun k => k == .mram)
  let s := if keep then flt.foldl (fun s c => s.setB c.fld c.bank c.val) s else s
  let s := ((s.set .PWR_STATE_ON 0).set .RNG_STATUS_NODE node).withMod (fun m =>
    { m with off := true, lossInStart := m.lossInStart || inStart, retryWait := false })
  let fns := s.hst.fns.map (fun q => (q.1, { q.2 with paused := false, d3 := false }))
  { s with hst := { fns := fns } }

/-- Power comes (R568, R586, R587, R600): SPORE is entered from OFF, with the time going on from its saved value plus
1 ms; POS_ID gives the node address (R459). A start that the loss cut short is counted now (R572). DESIGN CHOICE, log entry 66. -/
def powerOn (posId : Nat) (s : State) : State :=
  let s := s.set .TIM_NOW_NS (s.mod_.savedNow + 1000000)
  let cause := if s.mod_.lossInStart then 0x0A00 else 0
  let s := if s.mod_.lossInStart then countFail 0x0A00 s else s
  let s := changeMode Mode.spore cause 0 (s.withMod (fun m => { m with lossInStart := false, supplyLost := false }))
  let s := (s.bump .PWR_LIFE_CYCLES_COUNT).set .RNG_STATUS_NODE posId
  s.withMod (fun m => { m with sporeReady := false, retryWait := false })

/-! ## Faults that stop the module -/

/-- Whether the module runs mode steps of a start. -/
def State.starting (s : State) : Bool := s.mode == Mode.fiddlehead

/-- MOD_CAUSE of a checkstop (R450, R451, R575). DESIGN CHOICE, log entry 66. -/
def stopCause (e : FaultIn) : Nat :=
  if e.source = 50 then 0x0900
  else if e.source = 47 then 0x0A01
  else if e.source = 48 then 0x0A00
  else if e.source = 49 ∧ e.rail = some 0 then 0x0A02
  else 0x0B00 + e.source % 256

end Sys2Proof.Machine
end

