-- ==== Sys2Proof/Machine/Pair.lean ====
section
/-!
DEFINITION. The redundant pair: heartbeat, mirroring and resynchronisation, loss cases, takeover and switch-back (R516 to R529).
-/

namespace Sys2Proof.Machine

/-! ## Roles and what FROND begins with -/

/-- The last step of CRC-8 with polynomial 0x07 over one byte. -/
def crc8Bits : Nat → Nat → Nat
  | 0, c => c
  | n + 1, c => crc8Bits n (if c.testBit 7 then (2 * c ^^^ 0x07) % 256 else 2 * c % 256)

/-- CRC-8, polynomial 0x07, initial value 0 (*Heartbeat frame*). PRESUMED, log entry 8. -/
def crc8 (l : List Byte) : Nat := l.foldl (fun c b => crc8Bits 8 (c ^^^ b.toNat)) 0

/-- Whether no core is in a world other than 0 (R334). -/
def State.worldsOut (s : State) : Bool := s.cores.all (fun q => stWorld q.2.status == 0)

/-- Gives up the contents and the VALID bit of one enclave range (R334); lines of it that are cached go too. -/
def clearEnclave (s : State) (n : Nat) : State :=
  if !s.onB .COH_ENC_VALID n then s
  else
    let a := s.getB .COH_ENC_BASE n * 2 ^ 21
    let len := (s.getB .COH_ENC_SIZE n + 1) * 2 ^ 21
    let inside := fun (l : Nat) => decide (a ≤ l * 128) && decide (l * 128 < a + len)
    let ls := (kvKeys s.coh.l2).map (· % 2 ^ 31) ++ kvKeys s.coh.l3
    let s := (ls.filter inside).foldl (fun s l => purgeLine false l s) s
    (clearDram a len s).setB .COH_ENC_VALID n 0

/-- The enclave clearing of R334 and R559. -/
def clearEnclaves (s : State) : State := (List.range 8).foldl clearEnclave s

/-- Whether the module runs as the active member of a pair or unpaired. -/
def State.serving (s : State) : Bool := !s.on .CLM_PAIR_PAIRED || s.get .CLM_STATUS_ROLE == 1

/-! ## The mirror stream and resynchronisation -/

/-- The actions that waited for the standby are released (R524, R525). -/
def releaseHeldActs (s : State) : State := mirrorAcked (s.pair.unacked ++ s.css.mirrorWait.map (·.1)) s

/-- The active member runs detached (R524). -/
def runDetached (s : State) : State :=
  let s := (endHold s).withPair (fun p => { p with sayDetach := false })
  releaseHeldActs (pairEvent .CLM_EVENT_DETACHED (s.set .CLM_STATUS_SYNC 3))

/-- Sends one item of the copy. -/
def sendItem (kind : Nat) (payload : List Byte) (s : State) : State := (mirror kind payload s).2

/-- The words of a RETIRE record's coverage go with the copy, 500 to a message. -/
def sendCover (l : List (Nat × Nat × Nat)) (s : State) : State :=
  (pieces 500 l).foldl (fun s p => sendItem pairCover (coverBytes p) s) s

/-- The bytes of one stripe of a custody epoch in the mirror stream. -/
def custodyItem (c : CusStripe) : List Byte :=
  leBytes 1 0 ++ leBytes 8 c.id ++ leBytes 1 c.k ++ leBytes 1 c.m ++ leBytes 1 (b2n c.repair) ++ c.hashes.flatten

/-- The part of a program's context that the mirror stream carries: state, token, the address of the current order, and the
checkpoint's object ordinal, stripe cursor and condition bits (*Context block*). DESIGN CHOICE, log entry 26. -/
def contextBytes (k : Nat) (b : Sub) : List Byte :=
  let p := fun (f : Prog → Nat) => ((b.prog.map f).getD 0)
  leBytes 2 k ++ leBytes 1 b.st.code ++ leBytes 1 0 ++ leBytes 8 (p (·.token)) ++ leBytes 8 (p (·.standsAt)) ++
    leBytes 4 (p (·.obj)) ++ leBytes 4 (p (·.cursor)) ++ leBytes 4 (p (·.conds))

/-- Contexts that have changed since they were last sent are mirrored (*Mirror contents*). -/
def mirrorContexts (s : State) : State :=
  if s.mirroring then
    s.css.subs.foldl (fun s q =>
      let d := contextBytes q.1 q.2
      if kvGet? s.pair.contexts q.1 = some d then s
      else sendItem pairContext d (s.withPair (fun p => { p with contexts := kvSet p.contexts q.1 d }))) s
  else s

/-- The copy of a resynchronisation (R522 step 1): live journal, unfreed descriptor log, custody, reservations, key handles
and generations; the contexts, and the digest the standby compares at its end. DESIGN CHOICE, log entry 73. -/
def sendCopy (s : State) : State :=
  let s := sendItem pairBegin [] (s.withPair (fun p => { p with contexts := [] }))
  let s := s.jnlLive.foldl (fun s q => sendItem pairJournal q.2.mirrorBytes s) s
  let s := sendCover s.jnl.covered s
  let h := s.get .ENG_DLOG_CTL_HEAD
  let n := (s.get .ENG_DLOG_CTL_TAIL + dlogSize - h) % dlogSize
  let es := (List.range n).filterMap (fun i => kvGet? s.eng.dlog ((h + i) % dlogSize))
  let s := es.foldl (fun s e => sendItem pairDlog e.data s) s
  let done := ((es.filter (·.settled)).map (fun e => (e.token, e.obj))).eraseDups
  let s := done.foldl (fun s q => sendItem pairCustody (leBytes 1 4 ++ leBytes 8 q.1 ++ leBytes 4 q.2) s) s
  let closed := match s.eng.cusClosed with
    | some c => c.stripes.map custodyItem ++ [leBytes 1 1 ++ c.header ++ c.root]
    | none => []
  let first := match s.eng.cusClosed with
    | some c => c.number
    | none => s.get .ENG_CUS_EPOCH_OPEN
  let s := sendItem pairCustody (leBytes 1 3 ++ s.eng.cusPrev ++ leBytes 8 first) s
  let s := (closed ++ s.eng.cus.map custodyItem).foldl (fun s d => sendItem pairCustody d s) s
  let s := sendItem pairReserve (reserveBytes 0 s.eng.locLimit) s
  let s := sendItem pairReserve (reserveBytes 1 s.eng.invokeLimit) s
  let s := sendItem pairReserve (reserveBytes 2 s.tub.nextHandle) s
  let s := sendItem pairReserve (reserveBytes 3 s.css.nextStripe) s
  let s := s.tub.handles.foldl (fun s q => sendItem pairHandle (handleBytes q.1 q.2) s) s
  let s := s.functions.foldl (fun s f => sendItem pairGen (leBytes 2 f ++ leBytes 2 (s.gen f)) s) s
  sendItem pairDigest s.cfgDigest (mirrorContexts s)

/-- The active member starts a resynchronisation of the standby (R522). What waited for the old mirror stream goes on: the
standby is out of step. DESIGN CHOICE, log entry 73. -/
def beginCopy (s : State) : State :=
  if s.get .CLM_STATUS_ROLE = 1 ∧ s.peerNode.isSome ∧ s.get .CLM_STATUS_SYNC ≠ 1 then
    sendCopy ((releaseHeldActs (endHold s)).set .CLM_STATUS_SYNC 1)
  else s

/-- The standby leaves step and asks to be resynchronised (R522). -/
def leaveStep (s : State) : State :=
  ((s.set .CLM_STATUS_SYNC 0).set .CLM_STATUS_CFG_MISMATCH 0).withPair (fun p => { p with sayResync := true })

/-! ## Takeover -/

/-- Empties the stripe directory and the dedup index of a survivor (R173, *Takeover sequence*). -/
def emptyTables (s : State) : State :=
  let s := emptyIndex s
  if s.on .ENG_DIR_CTL_ENABLE then clearDram (s.addrB .ENG_DIR_BASE_BASE 0) (s.dirSets * 512 + s.dirSlots * 4160) s else s

/-- The claim row of *Takeover sequence* and the drives' row: a new claim, CLAIM to every node, REMOVE to the peer where it
is listed, keys registered and drives preempted, affiliations cleared (R257, R259, R260, R482, R526). DESIGN CHOICE, log entry 72. -/
def beginTakeover (by_ : Nat) (s : State) : State :=
  let old := prKey (s.get .CLM_PAIR_PAIR_ID) (s.get .CLM_PEER_CLAIM_CLAIM)
  let s := takeClaim s
  let s := s.withPair (fun p => { p with taking := true, takeBy := by_ })
  let nodes := (List.range 32).filter (fun n => s.present n && n != s.node)
  let s := nodes.foldl (fun s n => sendMsg clsControl 1 n 0 0 0 [] s) s
  let s := match s.peerNode with
    | some n => sendMsg clsControl 2 n 0 0 0 [] s
    | none => s
  let s := (List.range 1024).foldl (fun s d =>
    if s.devState d == devPresent && s.isSsp d then modDev d (fun v => { v with holder := some old }) s else s) s
  clearAffiliations (rekey (s.set .MOD_STATE_PENDING Mode.frond))

/-- Whether a takeover may begin: an in-step standby (R523). -/
def State.canTake (s : State) : Bool :=
  s.mode == Mode.standby && s.get .CLM_STATUS_ROLE == 2 && s.get .CLM_STATUS_SYNC == 2 && !s.pair.taking

/-- TAKEOVER_CONFIRM (R524): within 5 ms of the loss the second condition of the standby's row holds. -/
def doTakeoverConfirm (s : State) : State :=
  let soon : Bool := match s.pair.lostAt with
    | some t => decide (s.now ≤ t + 5000000)
    | none => false
  if s.canTake ∧ s.on .CLM_STATUS_HB_LOST ∧ soon ∧ s.peerMode ≠ some Mode.frond ∧ s.peerMode ≠ some Mode.maintenance then
    beginTakeover 0 s
  else s

/-- FROND is entered: what every way into it does. DESIGN CHOICE, log entry 72. -/
def toFrond (cause origin : Nat) (s : State) : State :=
  changeMode Mode.frond cause origin (clearEnclaves s)

/-- Whether a command is a reservation command of the device's own. -/
def CmdFor.isReserve : CmdFor → Bool
  | .reserve _ => true
  | _ => false

/-- TAKEOVER_COMPLETE (R135, R526, R527): the drives are the survivor's and the mirrored journal is replayed; gates open. A
journal that cannot be read fails the replay and with it the takeover. DESIGN CHOICE, log entry 72. -/
def doTakeoverComplete (s : State) : State :=
  let busy := s.mpt.cmds.any (fun q => q.2.use.isReserve) || s.mpt.waiting.any (fun w => w.use.isReserve)
  if !s.pair.taking ∨ busy ∨ !s.worldsOut ∨ s.mode ≠ Mode.standby then s
  else
    let by_ := s.pair.takeBy
    if !s.journalReadable then enterSpore 0x0700 by_ false false s
    else
    let s := emptyTables s
    let s := ((s.set .CLM_STATUS_ROLE 1).set .CLM_STATUS_SYNC 0).set .CLM_STATUS_WAIT_PEER 0
    let s := (s.set .CLM_CMD_BUSY 0).withPair (fun p => { p with taking := false, takeBy := 0, sayResync := false })
    let s := toFrond 0x1200 by_ s
    let s := replay s
    pairEvent .CLM_EVENT_TAKEOVER (s.bump .CLM_TAKEOVERS_COUNT)

/-! ## Heartbeat -/

/-- Whether the member sends and judges heartbeats (R520). -/
def State.beats (s : State) : Bool :=
  s.on .CLM_PAIR_PAIRED && [Mode.fiddlehead, Mode.frond, Mode.standby, Mode.maintenance].contains s.mode

/-- The flags of the heartbeat frame. -/
def State.beatFlags (s : State) : Nat :=
  b2n (s.get .CLM_STATUS_SYNC == 2) + 2 * b2n s.pair.sayDetach + 4 * b2n s.pair.sayDetachAck + 8 * b2n s.pair.sayResync +
  16 * b2n s.pair.sayYield

/-- The heartbeat frame a member sends now. -/
def State.beat (s : State) : List Byte :=
  let d := leBytes 4 (s.get .CLM_CLAIM_CLAIM) ++ leBytes 1 s.mode ++ leBytes 1 s.beatFlags ++ leBytes 1 (s.get .CLM_PAIR_PAIR_ID)
  d ++ leBytes 1 (crc8 d)

/-- HEARTBEAT_SEND (R520). -/
def doHeartbeatSend (s : State) : State :=
  if s.beats then (s.emit (.heartbeat s.beat)).withPair (fun p => { p with sayDetachAck := false }) else s

/-- What a standby does on the flags of the active member's frame (R522, R524, R529). -/
def standbyHears (flags : Nat) (s : State) : State :=
  let s := if flags.testBit 1 then
      let s := s.withPair (fun p => { p with sayDetachAck := true })
      if s.get .CLM_STATUS_SYNC = 0 then s else leaveStep s
    else s
  if flags.testBit 4 ∧ s.canTake then beginTakeover 0 s else s

/-- What the active member does on the flags of the standby's frame (R521, R522, R524). -/
def activeHears (flags : Nat) (s : State) : State :=
  let s := if flags.testBit 2 ∧ s.pair.sayDetach then runDetached s else s
  let s := if flags.testBit 0 ∧ s.get .CLM_STATUS_SYNC = 1 then s.set .CLM_STATUS_SYNC 2 else s
  if flags.testBit 3 then beginCopy s else s

/-- HEARTBEAT_RECEIVE (R518, R520): a frame with a bad CRC or of another pair id is ignored. DESIGN CHOICE, log entry 72. -/
def doHeartbeatReceive (frame : List Byte) (s : State) : State :=
  let d := frame.take 7
  if s.mode = Mode.off ∨ !s.on .CLM_PAIR_PAIRED ∨ frame.length ≠ 8 ∨ crc8 d ≠ fieldAt frame 7 1 ∨
      fieldAt frame 6 1 ≠ s.get .CLM_PAIR_PAIR_ID % 256 then s
  else
    let flags := fieldAt frame 5 1
    let s := s.withPair (fun p =>
      { p with hbAt := some s.now, hbMode := fieldAt frame 4 1 % 16, hbFlags := flags, lostAt := none })
    let s := s.set .CLM_STATUS_HB_LOST 0
    let s := if s.on .CLM_STATUS_HOLD then endHold s else s
    let s := seeClaim seenHeartbeat (fieldAt frame 0 4) s
    let s := match s.get .CLM_STATUS_ROLE with
      | 1 => activeHears flags s
      | 2 => standbyHears flags s
      | _ => s
    pairLook s

/-- HEARTBEAT_LOSS (R520, R524): no valid frame for 1 ms. -/
def doHeartbeatLoss (s : State) : State :=
  if !s.beats ∨ s.pair.hbAt.isNone ∨ s.on .CLM_STATUS_HB_LOST then s
  else
    let s := (s.set .CLM_STATUS_HB_LOST 1).bump .CLM_HB_LOSSES_COUNT
    let s := s.withPair (fun p => { p with lostAt := some s.now })
    pairLook (pairEvent .CLM_EVENT_HB_LOST (raiseUe 43 1 0 0 0 0 s))

/-- ISOLATION_CHECK (R525): after FENCE_MS the reservation of the lowest-numbered present SSP device decides. DESIGN CHOICE, log entry 72. -/
def doIsolationCheck (holder : Option Nat) (s : State) : State :=
  let ssp := (List.range 1024).any (fun d => s.devState d == devPresent && s.isSsp d)
  if !s.on .CLM_STATUS_HOLD ∨ !ssp then s
  else
  let s := timeTo ((s.pair.holdAt.getD s.now) + max 3500 (s.get .CLM_CTL_FENCE_MS) * 1000000) s
  match holder with
    | none => s
    | some h =>
      if h = s.ownKey then runDetached s
      else if h / 2 ^ 32 = s.ownKey / 2 ^ 32 then seeClaim seenHolder (h % 2 ^ 32) s
      else s

/-! ## Commands -/

/-- A CLM_CMD command (R601, R602). DESIGN CHOICE, log entry 17. -/
def clmCommand (o : Origin) (op : Nat) (checks : List (Bool × Nat)) (act : State → State) (s : State) : State :=
  busyCommand o .CLM_CMD .CLM_CMD_BUSY op .CLM_CMD_RESULT 4 ((!s.on .CLM_PAIR_PAIRED, 3) :: checks) act s

/-- CLM_TAKEOVER (R527). -/
def doClmTakeover (o : Origin) (w : Nat) (s : State) : State :=
  clmCommand o w [(s.get .CLM_STATUS_ROLE != 2 || s.mode != Mode.standby || s.pair.taking, 1), (s.get .CLM_STATUS_SYNC != 2, 2)]
    (fun s => beginTakeover (originCode o) (s.set .CLM_CMD_BUSY 1)) s

/-- FORCE_ACTIVE (R519): a member that waits for its peer becomes active on its own journal. DESIGN CHOICE, log entry 72. -/
def doForceActive (o : Origin) (w : Nat) (s : State) : State :=
  clmCommand o w [(s.get .CLM_STATUS_ROLE != 2 || !s.on .CLM_STATUS_WAIT_PEER || s.mode != Mode.standby || s.pair.taking, 1)]
    (fun s => beginTakeover (originCode o) (s.set .CLM_CMD_BUSY 1)) s

/-- DETACH (R524, R525): with the heartbeat the standby is told first. -/
def doClmDetach (o : Origin) (w : Nat) (s : State) : State :=
  clmCommand o w [(s.get .CLM_STATUS_ROLE != 1, 1)]
    (fun s =>
      if !s.pairedActive then s
      else if s.hbValid && !s.on .CLM_STATUS_HOLD then s.withPair (fun p => { p with sayDetach := true })
      else runDetached s) s

/-- RESYNC (R522). DESIGN CHOICE, log entry 72. -/
def doClmResync (o : Origin) (w : Nat) (s : State) : State :=
  clmCommand o w [(s.get .CLM_STATUS_ROLE != 1 && s.get .CLM_STATUS_ROLE != 2, 1)]
    (fun s => if s.get .CLM_STATUS_ROLE = 1 then beginCopy s else leaveStep s) s

/-- SWITCHBACK (R529): YIELD goes out once every mirror message is acknowledged (`yieldLook`). -/
def doSwitchback (o : Origin) (w : Nat) (s : State) : State :=
  busyCommand o .CLM_SWITCHBACK .CLM_SWITCHBACK_BUSY w .CLM_SWITCHBACK_RESULT 3
    [(s.get .CLM_STATUS_ROLE != 1, 1), (s.get .CLM_STATUS_SYNC != 2, 2)]
    (fun s => (s.set .CLM_SWITCHBACK_BUSY 1).withPair (fun p => { p with yielding := true })) s

/-- The second and third step of a switch-back (R529). -/
def yieldLook (s : State) : State :=
  if s.pair.yielding ∧ s.pair.unacked.isEmpty ∧ s.jnl.pending.isEmpty then s.withPair (fun p => { p with sayYield := true })
  else s

end Sys2Proof.Machine
end

