-- ==== Sys2Proof/Machine/Tuber.lean ====
section
/-!
DEFINITION. Tuber: the mailbox services, key handles, fuses, the solo restart, the entropy source and debug unlock (R530 to
R548, R555, R556).
-/

namespace Sys2Proof.Machine

/-! ## The mailbox -/

/-- Results of *Response (64 bytes)*. -/
def rspOk : Nat := 0
def rspRetry : Nat := 1
def rspRefused : Nat := 2
def rspBadArg : Nat := 3
def rspLogFull : Nat := 4
def rspNoSpace : Nat := 6

/-- Entries of a mailbox ring. -/
def ringSize (log2 : Nat) : Nat := 2 ^ (min 8 log2 + 4)

/-- Whether bytes lie inside the TMB_DMA window. -/
def State.inTmbWindow (s : State) (a n : Nat) : Bool :=
  decide (s.addrB .TMB_DMA_BASE_ADDR 0 ≤ a) && decide (a + n ≤ s.addrB .TMB_DMA_LIMIT_ADDR 0)

/-- Tuber writes memory, inside its window only (R546). DESIGN CHOICE, log entry 69. -/
def tmbWrite (a : Nat) (d : List Byte) (s : State) : State := if s.inTmbWindow a d.length then (devWrite a d s).2 else s

/-- Answers a request: the response goes into its ring and the request is taken from its own. DESIGN CHOICE, log entry 69. -/
def respond (code result tag written : Nat) (results : List Byte) (s : State) : State :=
  let size := ringSize (s.get .TMB_RSP_CTL_LOG2)
  let d := leBytes 2 code ++ leBytes 2 result ++ leBytes 4 tag ++ leBytes 4 written ++ zeros 4 ++ padTo 48 results
  let at_ := s.get .TMB_RSP_CTL_PROD % size
  let s := tmbWrite (s.addrB .TMB_RSP_BASE_BASE 0 + at_ * 64) d s
  let s := s.set .TMB_RSP_CTL_PROD ((at_ + 1) % size)
  let n := ringSize (s.get .TMB_REQ_CTL_LOG2)
  if s.get .TMB_REQ_CTL_CONS % n = s.get .TMB_REQ_CTL_PROD % n then s
  else s.set .TMB_REQ_CTL_CONS ((s.get .TMB_REQ_CTL_CONS + 1) % n)

/-- The modes of *Services*. -/
def State.workMode (s : State) : Bool := s.mode == Mode.frond || s.mode == Mode.maintenance
def State.careMode (s : State) : Bool := s.mode == Mode.maintenance

/-- Bytes that Tuber reads from memory, when they can be read. -/
def tmbRead (a n : Nat) (s : State) : Option (List Byte) × State :=
  match devRead a n s with
  | (.ok d, s) => (some d, s)
  | (_, s) => (none, s)

/-- The bytes of the request at the front of the ring (R546): none while the ring is empty, or lies where Tuber cannot read. -/
def frontRequest (s : State) : Option (List Byte) × State :=
  let n := ringSize (s.get .TMB_REQ_CTL_LOG2)
  let c := s.get .TMB_REQ_CTL_CONS % n
  let a := s.addrB .TMB_REQ_BASE_BASE 0 + c * 64
  if c = s.get .TMB_REQ_CTL_PROD % n ∨ !s.inTmbWindow a 64 then (none, s) else tmbRead a 64 s

/-- A request from its bytes (*Request (64 bytes)*). -/
def parseReq (d : List Byte) : TubReq :=
  { code := fieldAt d 0 2, tag := fieldAt d 4 4, buf := fieldAt d 8 8, len := fieldAt d 16 4, args := bytesAt d 24 32 }

/-- Serves a request (R546): during a solo restart the mailbox answers RETRY (R547); then mode, buffer and the service's own
checks, the first that fails giving the result. DESIGN CHOICE, log entry 17. -/
def tubServe (mode : Bool) (need : Nat) (q : TubReq) (checks : List (Bool × Nat)) (act : State → State) (s : State) : State :=
  if s.on .TMB_STATUS_RESTARTING then respond q.code rspRetry q.tag 0 [] s
  else if !s.on .TMB_STATUS_RUNNING then s
  else if !mode then respond q.code rspRefused q.tag 0 [] s
  else if decide (0 < need) && (decide (q.len < need) || !s.inTmbWindow q.buf need) then respond q.code rspBadArg q.tag 0 [] s
  else match checks.find? (·.1) with
    | some (_, r) => respond q.code r q.tag 0 [] s
    | none => act s

/-- The codes of *Services*. -/
def serviceCodes : List Nat := [0x01, 0x02, 0x03, 0x10, 0x11, 0x12, 0x13, 0x20, 0x21, 0x22, 0x23]

/-- A service (R546): requests are served in ring order, so it runs when its request is at the front; with PD1 off nothing
answers. A request for no service of the table is refused. DESIGN CHOICE, log entry 69. -/
def service (code : Nat) (run : TubReq → State → State) (s : State) : State :=
  if !s.pdOn 1 then s
  else match frontRequest s with
    | (none, _) => s
    | (some d, t) =>
      if (parseReq d).code = code then run (parseReq d) t
      else if serviceCodes.contains (parseReq d).code then s
      else tubServe false 0 (parseReq d) [] id t

/-- A service that is logged: LOG_FULL where its entry is refused (R546). DESIGN CHOICE, log entry 19. -/
def serviceLogged (code kind target old new tag : Nat) (act : State → State) (s : State) : State :=
  logged .tuber kind target old new (fun s => respond code rspLogFull tag 0 [] s) act s

/-- Draws bytes from the DRBG. -/
def drbg (n : Nat) (s : State) : List Byte × State :=
  let (k, s) := s.draw
  (Config.randomBytes k n, s)

/-! ## Attestation -/

/-- The attestation report's first 256 bytes (*Attestation report*). -/
def State.report (s : State) (nonce : List Byte) : List Byte :=
  let fw := s.tub.fw.getD { svn := 0, version := 0, slot := 0, measurement := [] }
  let mn := s.tub.main.getD { svn := 0, version := 0, slot := 0, measurement := [] }
  let flags := b2n s.tub.dbg + 2 * s.get .FUS_STATE_DEBUG_KILL + 4 * s.get .CLM_PAIR_PAIRED + 8 * s.get .TMB_STATUS_BANK
  leBytes 4 0x52415657 ++ leBytes 2 1 ++ leBytes 1 s.mode ++ leBytes 1 flags ++ padTo 32 nonce ++
  padTo 48 fw.measurement ++ padTo 48 mn.measurement ++ leBytes 4 fw.svn ++ leBytes 4 mn.svn ++
  leBytes 1 (s.get .FUS_ROLLBACK_FUSED) ++ leBytes 1 mn.slot ++
  leBytes 1 (s.get .FUS_STATE_SLOT_PROG + 16 * s.get .FUS_STATE_SLOT_REVOKED) ++ zeros 1 ++
  leBytes 4 (s.get .TMB_STATUS_RESTARTS) ++ leBytes 8 s.now ++ leBytes 8 s.epoch ++ leBytes 16 s.serial ++
  leBytes 2 (s.get .CLM_PAIR_PAIR_ID) ++ leBytes 1 s.node ++ leBytes 1 (s.get .CLM_PAIR_MEMBER) ++ zeros 4 ++
  sha384 s.aliasKeys ++ leBytes 8 (s.get .LOG_SEQ_SEQ) ++ zeros 8

/-- ATTEST (R541). -/
def doTmbAttest (s : State) : State :=
  service 0x01 (fun q => tubServe true 16864 q [] (fun s =>
    let r := s.report q.args
    respond 0x01 rspOk q.tag 16864 [] (tmbWrite q.buf (r ++ s.aliasSign 0 r ++ s.aliasSign 1 r) s))) s

/-- What `Config.derive` is asked for: DeviceID certificates, alias certificates, cdi_t, cdi_m. -/
def deriveDevCerts : Nat := 1
def deriveAliasCerts : Nat := 2
def deriveCdiT : Nat := 4
def deriveCdiM : Nat := 5

/-- CERTS (R539): the DeviceID certificates, then the alias certificates of this start. -/
def doTmbCerts (s : State) : State :=
  service 0x02 (fun q => tubServe true 16384 q [] (fun s =>
    let d := (Config.derive deriveDevCerts [] ++ Config.derive deriveAliasCerts s.tub.aliasTag).take 16384
    respond 0x02 rspOk q.tag d.length [] (tmbWrite q.buf d s))) s

/-- RANDOM (R531). -/
def doTmbRandom (s : State) : State :=
  service 0x03 (fun q s =>
    let count := fieldAt q.args 0 4
    tubServe true count q [(decide (4096 < count), rspBadArg), (!s.on .TMB_STATUS_DRBG_OK, rspRetry)] (fun s =>
      let (d, s) := drbg count s
      respond 0x03 rspOk q.tag count [] (tmbWrite q.buf d s)) s) s

/-! ## Key handles -/

/-- A KEK slot's key, when it holds one. -/
def State.kek? (s : State) (n : Nat) : Option (List Byte) := kvGet? s.tub.keks n

/-- Handles that count against the 65_536 of R544. -/
def State.handleCount (s : State) : Nat := (s.tub.handles.filter (fun q => q.2.st != 3)).length

/-- Allocates a handle for a key (R543, R544): its record and the counter are carried to the partner. -/
def newHandle (fn kek : Nat) (blob : Nat → List Byte) (s : State) : Nat × State :=
  let h := s.tub.nextHandle
  let x : Handle := { fn := fn, kek := kek, st := 1, seq := 1, blob := padTo 48 (blob h) }
  let s := s.withTub (fun t => { t with nextHandle := h + 1, handles := kvSet t.handles h x })
  let s := sendItem pairReserve (reserveBytes 2 (h + 1)) s
  (h, sendItem pairHandle (handleBytes h x) s)

/-- Whether a function and a KEK slot of a key request exist (R543). -/
def State.badKeyArgs (s : State) (fn kek : Nat) : Bool := decide (64 < fn) || !(s.fnOf fn).created || (s.kek? kek).isNone

/-- KEY_CREATE (R543, R544, R546). -/
def doTmbKeyCreate (s : State) : State :=
  service 0x10 (fun q s =>
    let fn := fieldAt q.args 0 2
    let kek := fieldAt q.args 2 1
    tubServe s.workMode 48 q [(s.badKeyArgs fn kek, rspBadArg), (decide (65536 ≤ s.handleCount), rspNoSpace),
        (!s.on .TMB_STATUS_DRBG_OK, rspRetry)] (fun s =>
      serviceLogged 0x10 7 0x10 0 s.tub.nextHandle q.tag (fun s =>
        let (key, s) := drbg 32 s
        let (h, s) := newHandle fn kek (fun h => wrapKey ((s.kek? kek).getD []) (key ++ leBytes 8 h)) s
        let blob := ((kvGet? s.tub.handles h).map (·.blob)).getD []
        respond 0x10 rspOk q.tag 48 (leBytes 8 h) (tmbWrite q.buf blob s)) s) s) s

/-- KEY_IMPORT (R543). -/
def doTmbKeyImport (s : State) : State :=
  service 0x11 (fun q s =>
    let fn := fieldAt q.args 0 2
    let kek := fieldAt q.args 2 1
    tubServe s.workMode 48 q [(s.badKeyArgs fn kek, rspBadArg), (decide (65536 ≤ s.handleCount), rspNoSpace)] (fun s =>
      let (d, s) := tmbRead q.buf 48 s
      match d with
      | none => respond 0x11 rspBadArg q.tag 0 [] s
      | some blob =>
        if (unwrapKey ((s.kek? kek).getD []) blob).isNone then respond 0x11 rspBadArg q.tag 0 [] s
        else
          serviceLogged 0x11 7 0x11 0 s.tub.nextHandle q.tag (fun s =>
            let (h, s) := newHandle fn kek (fun _ => blob) s
            respond 0x11 rspOk q.tag 0 (leBytes 8 h) s) s) s) s

/-- KEY_REVOKE (R193, R545). -/
def doTmbKeyRevoke (s : State) : State :=
  service 0x12 (fun q s =>
    let handle := fieldAt q.args 0 8
    tubServe s.workMode 0 q [] (fun s =>
      match kvGet? s.tub.handles handle with
      | none => respond 0x12 rspBadArg q.tag 0 [] s
      | some x =>
        if x.st = 2 ∨ x.st = 3 then respond 0x12 rspOk q.tag 0 [] s
        else
          serviceLogged 0x12 7 0x12 handle 0 q.tag (fun s => respond 0x12 rspOk q.tag 0 [] (revokeHandle handle s)) s) s) s

/-- The check value of a KEK (R542). -/
def kekCheck (kek : List Byte) : List Byte := (hmacSha256 kek (ascii "WV KCV")).take 8

/-- KEK_PROVISION (R542): refused while a live or revoking handle uses a loaded slot. -/
def doTmbKekProvision (s : State) : State :=
  service 0x13 (fun q s =>
    let slot := fieldAt q.args 0 1
    let used := (s.kek? slot).isSome && s.tub.handles.any (fun p => p.2.kek == slot && (p.2.st == 1 || p.2.st == 2))
    tubServe s.careMode 32 q [(decide (4 ≤ slot), rspBadArg), (used, rspRefused)] (fun s =>
      let (d, s) := tmbRead q.buf 32 s
      match d with
      | none => respond 0x13 rspBadArg q.tag 0 [] s
      | some kek =>
        let old := match s.kek? slot with
          | some k => leNat (kekCheck k)
          | none => 0
        serviceLogged 0x13 7 0x13 old (leNat (kekCheck kek)) q.tag (fun s =>
          respond 0x13 rspOk q.tag 0 (kekCheck kek) (s.withTub (fun t => { t with keks := kvSet t.keks slot kek }))) s) s) s

/-! ## Fuses -/

/-- The bytes of a DER object at the start of a zero-padded field: its header says how many. -/
def derBytes (d : List Byte) : List Byte :=
  let b := fieldAt d 1 1
  let n := if b = 0x82 then 4 + beNat (bytesAt d 2 2) else if b = 0x81 then 3 + fieldAt d 2 1 else 2 + b
  d.take (min n 512)

/-- The key hash of an envelope's bytes 256 to 815 (*Image envelope*). -/
def keyHash (keys : List Byte) : List Byte := sha384 (derBytes (bytesAt keys 0 512) ++ bytesAt keys 512 48)

/-- The key hash a slot holds. -/
def State.slotHash (s : State) (n : Nat) : List Byte := (List.range 6).flatMap (fun w => leBytes 8 (s.getB .FUS_SLOT_HASH_HASH (n * 8 + w)))

/-- FUSE_SLOT (R536): a slot is programmed once. DESIGN CHOICE, log entry 69. -/
def doTmbFuseSlot (s : State) : State :=
  service 0x20 (fun q s =>
    let slot := fieldAt q.args 0 1
    let prog := s.get .FUS_STATE_SLOT_PROG
    tubServe s.careMode 560 q [(decide (4 ≤ slot) || prog.testBit slot, rspBadArg)] (fun s =>
      let (d, s) := tmbRead q.buf 560 s
      match d with
      | none => respond 0x20 rspBadArg q.tag 0 [] s
      | some keys =>
        let h := keyHash keys
        let old := s.regRaw .FUS_STATE 0
        serviceLogged 0x20 2 0x40000 old (setBit old (2 + slot)) q.tag (fun s =>
          let s := (List.range 6).foldl (fun s w => s.setB .FUS_SLOT_HASH_HASH (slot * 8 + w) (fieldAt h (8 * w) 8)) s
          respond 0x20 rspOk q.tag 0 h (s.set .FUS_STATE_SLOT_PROG (setBit prog slot))) s) s) s

/-- FUSE_REVOKE (R536): refused when no programmed, unrevoked slot would be left. -/
def doTmbFuseRevoke (s : State) : State :=
  service 0x21 (fun q s =>
    let slot := fieldAt q.args 0 1
    let revoked := setBit (s.get .FUS_STATE_SLOT_REVOKED) slot
    let left := andNot (s.get .FUS_STATE_SLOT_PROG) revoked
    tubServe s.careMode 0 q [(decide (4 ≤ slot) || left == 0, rspBadArg)] (fun s =>
      let old := s.regRaw .FUS_STATE 0
      serviceLogged 0x21 2 0x40000 old (setBit old (6 + slot)) q.tag (fun s =>
        respond 0x21 rspOk q.tag 0 [] (s.set .FUS_STATE_SLOT_REVOKED revoked)) s) s) s

/-- ROLLBACK (R537): the mirror is written before the fuses; a value not above the fused one changes nothing. -/
def doTmbRollback (s : State) : State :=
  service 0x22 (fun q s =>
    let target := fieldAt q.args 0 1
    let fused := s.get .FUS_ROLLBACK_FUSED
    let limit := min ((s.tub.fw.map (·.svn)).getD 0) ((s.tub.main.map (·.svn)).getD 0)
    tubServe s.workMode 0 q [(decide (limit < target) || decide (64 < target), rspBadArg)] (fun s =>
      if target ≤ fused then respond 0x22 rspOk q.tag 0 (leBytes 1 fused) s
      else
        serviceLogged 0x22 2 0x40008 fused target q.tag (fun s =>
          respond 0x22 rspOk q.tag 0 (leBytes 1 target)
            ((s.set .FUS_ROLLBACK_MIRROR target).set .FUS_ROLLBACK_FUSED target)) s) s) s

/-- DEBUG_KILL (R556). -/
def doTmbDebugKill (s : State) : State :=
  service 0x23 (fun q s => tubServe s.careMode 0 q [] (fun s =>
    let old := s.regRaw .FUS_STATE 0
    serviceLogged 0x23 2 0x40000 old (setBit old 0) q.tag (fun s =>
      let fresh := s.tub.killFresh || !s.on .FUS_STATE_DEBUG_KILL
      respond 0x23 rspOk q.tag 0 [] ((s.set .FUS_STATE_DEBUG_KILL 1).withTub (fun t => { t with killFresh := fresh }))) s) s) s

/-! ## Images -/

/-- Bytes of an envelope before the body (*Image envelope*). -/
def envelopeSize : Nat := 20480

/-- The bytes of an image: its envelope and the body of the length that names. -/
def imageSize (d : List Byte) : Nat := envelopeSize + fieldAt d 16 8

/-- The body of an image. -/
def imageBody (d : List Byte) : List Byte := (d.drop envelopeSize).take (fieldAt d 16 8)

/-- An image of the NAND, by bank × 2 + (0 Tuber firmware, 1 main image). -/
def State.bankImage (s : State) (n : Nat) : List Byte := (kvGet? s.tub.banks n).getD (Config.factoryImage n)

/-- The trusted key that the signer key hash matches (R533 step 2): a ROM key set that is not revoked, or an owner slot that is
programmed and not revoked. -/
def State.trustedKey (s : State) (kind : Nat) (d : List Byte) : Option Nat :=
  let h := bytesAt d 96 48
  if kind = 1 then
    (List.range 2).find? (fun n => !(n == 0 && s.on .FUS_STATE_ROM_PRIMARY_REVOKED) && s.tub.romKeys.getD n [] == h)
  else
    let live := andNot (s.get .FUS_STATE_SLOT_PROG) (s.get .FUS_STATE_SLOT_REVOKED)
    (List.range 4).find? (fun n => live.testBit n && s.slotHash n == h)

/-- Steps 1 to 5 of R533. -/
def State.imageSound (s : State) (kind : Nat) (d : List Byte) : Bool :=
  fieldAt d 0 4 == 0x45495657 && fieldAt d 4 2 == 1 && fieldAt d 6 1 == kind && decide (imageSize d ≤ 2 ^ 30) &&
  decide (imageSize d ≤ d.length) && (s.trustedKey kind d).isSome && keyHash (bytesAt d 256 560) == bytesAt d 96 48 &&
  decide (s.get .FUS_ROLLBACK_FUSED ≤ fieldAt d 8 4) && sha384 (imageBody d) == bytesAt d 48 48

/-- What the checker says of an image (R533): 0 passed, 1 RSA failed, 2 SLH-DSA failed, 3 both failed. -/
def State.verdict (s : State) (kind : Nat) (d : List Byte) : Nat :=
  let rsa := Config.verify 0 (derBytes (bytesAt d 256 512)) (d.take 256) (bytesAt d 832 384)
  let slh := Config.verify 1 (bytesAt d 768 48) (d.take 256) (bytesAt d 1216 16224)
  if !s.imageSound kind d then 1
  else if !rsa && !slh then 3
  else if !rsa then 1
  else if !slh then 2
  else 0

/-- The checker on an image of a bank: one that the NAND does not read back as written fails. DESIGN CHOICE, log entry 77. -/
def State.bankVerdict (s : State) (bank kind : Nat) (readOk : Bool) : Nat :=
  if readOk then s.verdict kind (s.bankImage (bank * 2 + kind - 1)) else 1

/-- An image as it runs (R532). -/
def State.runImage (s : State) (kind : Nat) (d : List Byte) : RunImage :=
  { svn := fieldAt d 8 4, version := fieldAt d 40 8, slot := (s.trustedKey kind d).getD 0, measurement := sha384 (d.take 256) }

/-- cdi_t of Tuber firmware (*Identity and attestation*). -/
def RunImage.cdiT (i : RunImage) : List Byte := Config.derive deriveCdiT (i.measurement ++ leBytes 4 i.svn)

/-- Tuber's core enters the firmware of an image (R534). -/
def enterFirmware (d : List Byte) (s : State) : State := tuberEnter (fieldAt d 32 8) (fieldAt d 24 8) (imageBody d) s

/-! ## Solo restart and entropy -/

/-- TMB_KICK (R547): a write of Tuber; those of the cores are ignored. -/
def doTmbKick (o : Origin) (s : State) : State :=
  if o = .tuber ∧ s.on .TMB_STATUS_RUNNING then s.withTub (fun t => { t with kickAt := s.now }) else s

/-- Answers RETRY to the requests in the ring that have no response (R547). -/
def retryRing : Nat → State → State
  | 0, s => s
  | n + 1, s =>
    match frontRequest s with
    | (none, _) => s
    | (some d, t) => retryRing n (respond (parseReq d).code rspRetry (parseReq d).tag 0 [] t)

/-- A solo restart of Tuber begins (R547): PD1 alone is reset, its SRAM zeroised. DESIGN CHOICE, log entry 70. -/
def soloRestart (s : State) : State :=
  if !s.on .TMB_STATUS_RUNNING then s
  else
    let s := (endUnlock s).set .TMB_STATUS_RUNNING 0
    let s := s.set .TMB_STATUS_RESTARTS (s.get .TMB_STATUS_RESTARTS + 1)
    retryRing 4096 (tuberReset (s.set .TMB_STATUS_RESTARTING 1))

/-- TUBER_WATCHDOG_EXPIRE (R547): a level-2 event of source 41, whose restart is the solo restart; repeated hangs escalate. DESIGN CHOICE, log entry 69. -/
def doTuberWatchdogExpire (s : State) : State :=
  if s.on .TMB_STATUS_RUNNING then raiseUe 41 2 0 0 0 0 (timeTo (s.tub.kickAt + 500000000) s) else s

/-- TUBER_RESTART_COMPLETE (R547, R548): the firmware of the running bank is verified again and cdi_t recomputed. -/
def doTuberRestartComplete (readOk : Bool) (s : State) : State :=
  let bank := s.get .TMB_STATUS_BANK
  let d := s.bankImage (bank * 2)
  if !s.on .TMB_STATUS_RESTARTING then s
  else if s.bankVerdict bank 1 readOk = 0 ∧ (s.runImage 1 d).cdiT = s.tub.cdi then
    let s := (((enterFirmware d s).set .TMB_STATUS_RESTARTING 0).set .TMB_STATUS_RUNNING 1).set .TMB_STATUS_DRBG_OK 1
    { s.withTub (fun t => { t with kickAt := s.now }) with
      flt := { s.flt with restarting := s.flt.restarting.filter (· != .tuber) } }
  else raiseUe 41 3 0 0 0 0 s

/-- ENTROPY_HEALTH_FAIL (R531): DRBG output stops; source 41 at the one level its row gives. DESIGN CHOICE, log entry 69. -/
def doEntropyHealthFail (s : State) : State :=
  if s.on .TMB_STATUS_RUNNING then raiseUe 41 2 0 0 0 0 (s.set .TMB_STATUS_DRBG_OK 0) else s

/-- ENTROPY_START_UP_TEST_PASS (R531). -/
def doEntropyStartUpTestPass (s : State) : State := if s.on .TMB_STATUS_RUNNING then s.set .TMB_STATUS_DRBG_OK 1 else s

/-! ## Debug unlock -/

/-- DEBUG_REQ (R555 step 1). -/
def doDebugReq (o : Origin) (level : Nat) (s : State) : State :=
  if !s.dbgReach o ∨ s.mode = Mode.off then s
  else
    let s := s.set .DBG_CTL_LEVEL level
    if s.mode ≠ Mode.maintenance ∨ !s.on .TMB_STATUS_RUNNING ∨ !s.on .TMB_STATUS_DRBG_OK ∨ 3 ≤ s.get .DBG_STATUS_FAILS ∨
        !(s.get .DBG_CTL_LEVEL == 1 || s.get .DBG_CTL_LEVEL == 2) then s
    else
      let (d, s) := drbg 32 s
      let s := (List.range 4).foldl (fun s i => s.setB .DBG_CHAL_BYTES i (fieldAt d (8 * i) 8)) s
      (s.set .DBG_STATUS_CHAL_VALID 1).withTub (fun t => { t with challenge := d, challengeAt := s.now })

/-- Whether a response unlocks (R555 steps 2 and 3): a key of a programmed, unrevoked slot and both signatures. DESIGN CHOICE, log entry 70. -/
def State.unlocks (s : State) (response : List Byte) : Bool :=
  let keys := bytesAt response 0 560
  let h := keyHash keys
  let m := ascii "WVDU" ++ s.tub.challenge ++ leBytes 16 s.serial ++ leBytes 1 (s.get .DBG_CTL_LEVEL)
  let live := andNot (s.get .FUS_STATE_SLOT_PROG) (s.get .FUS_STATE_SLOT_REVOKED)
  response.length == 17168 && (List.range 4).any (fun n => live.testBit n && s.slotHash n == h) &&
  Config.verify 0 (derBytes (bytesAt keys 0 512)) m (bytesAt response 560 384) &&
  Config.verify 1 (bytesAt keys 512 48) m (bytesAt response 944 16224)

/-- DEBUG_CHECK (R555 step 3): the entry first; a pass zeroises the key slots, grants the level and marks the start. -/
def doDebugCheck (o : Origin) (response : List Byte) (s : State) : State :=
  if !s.dbgReach o ∨ s.mode ≠ Mode.maintenance ∨ !s.on .TMB_STATUS_RUNNING ∨ !s.on .DBG_STATUS_CHAL_VALID ∨
      3 ≤ s.get .DBG_STATUS_FAILS then s
  else
    let level := s.get .DBG_CTL_LEVEL
    let pass := s.unlocks response
    logged o 9 level 0 (b2n pass) id (fun s =>
      if pass then
        let s := s.withEng (fun e => { e with slots := [], probeOut := kvKeys e.doms })
        ((s.set .DBG_STATUS_GRANTED level).set .TMB_STATUS_DEBUG level).withTub (fun t => { t with dbg := true })
      else raiseUe 54 1 0 0 0 0 (s.set .DBG_STATUS_FAILS (s.get .DBG_STATUS_FAILS + 1))) s

/-- DEBUG_CHALLENGE_EXPIRE (R555): 60 s after the challenge. -/
def doDebugChallengeExpire (s : State) : State :=
  if s.on .DBG_STATUS_CHAL_VALID then
    ((timeTo (s.tub.challengeAt + 60000000000) s).set .DBG_STATUS_CHAL_VALID 0).withTub (fun t => { t with challenge := [] })
  else s

end Sys2Proof.Machine
end

