-- ==== Sys2Proof/Machine/ChangeLog.lean ====
section
/-!
DEFINITION. Export of the change log and its checkpoints (R552 to R554).
-/

namespace Sys2Proof.Machine

/-- The state with the change log's own data changed. -/
def State.withLog (s : State) (f : LogState → LogState) : State := { s with log := f s.log }

/-- LOG_EXPORTED_WRITE (R552, R553): the PF only; a lower value is ignored, one above LOG_SEQ is LOG_SEQ. -/
def doLogExportedWrite (o : Origin) (v : Nat) (s : State) : State :=
  if o ≠ .pf ∨ s.mode = Mode.off then s
  else
    let s := dropLatch s
    if v ≤ s.get .LOG_EXPORTED_SEQ then s
    else checkLogFull (s.set .LOG_EXPORTED_SEQ (min v (s.get .LOG_SEQ_SEQ)))

/-- Entries of the export ring (*LOG_XQ_CTL*). -/
def State.exportSize (s : State) : Nat := 2 ^ clamp 6 22 (s.get .LOG_XQ_CTL_LOG2)

/-- LOG_EXPORT_ENABLE (R10, R553): a logged write of LOG_XQ_CTL; setting ENABLE starts at entry LOG_EXPORTED + 1. -/
def doLogExportEnable (o : Origin) (v : Nat) (s : State) : State :=
  reach o .LOG_XQ_CTL (fun s =>
    let was := s.on .LOG_XQ_CTL_ENABLE
    let old := s.regRaw .LOG_XQ_CTL 0
    let t := (s.set .LOG_XQ_CTL_ENABLE (v % 2)).set .LOG_XQ_CTL_LOG2 (bits v 12 8)
    logged o 1 (regBase .LOG_XQ_CTL) old (t.regRaw .LOG_XQ_CTL 0) id (fun s =>
      let s := (s.set .LOG_XQ_CTL_ENABLE (v % 2)).set .LOG_XQ_CTL_LOG2 (bits v 12 8)
      if v.testBit 0 ∧ !was then s.withLog (fun l => { l with exportNext := s.get .LOG_EXPORTED_SEQ + 1 }) else s) s) s

/-- LOG_ENTRY_EXPORT (R553): the next entry goes to its slot of the PF's ring while there is room. -/
def doLogEntryExport (s : State) : State :=
  let n := s.log.exportNext
  if !s.on .LOG_XQ_CTL_ENABLE ∨ s.mode = Mode.off ∨ s.get .LOG_SEQ_SEQ < n ∨ s.get .LOG_EXPORTED_SEQ + s.exportSize < n then s
  else
    let s := s.withLog (fun l => { l with exportNext := n + 1 })
    match kvGet? s.log.entries ((n - 1) % logCapacity) with
    | some e => hostWrite 0 (s.addrB .LOG_XQ_BASE_BASE 0 + n % s.exportSize * 64) false e.bytes s
    | none => s

/-- The header of a checkpoint over entries `first` to `last` (*Checkpoint header*). DESIGN CHOICE, log entry 71. -/
def State.ckptHeader (s : State) (first last : Nat) (bad : Option Nat) : List Byte :=
  let slots := s.log.entries.filter (fun q => decide (first ≤ q.2.seq) && decide (q.2.seq ≤ last))
  let flags := b2n bad.isSome + 2 * b2n (slots.any (fun q => q.2.kind == 13))
  let prev := if s.log.lastHeader.isEmpty then zeros 48 else sha384 s.log.lastHeader
  let lastChain := match slots.find? (fun q => q.2.seq == last) with
    | some q => q.2.chain
    | none => []
  leBytes 4 0x434C5657 ++ leBytes 2 1 ++ leBytes 1 flags ++ zeros 1 ++ leBytes 8 first ++ leBytes 8 last ++ padTo 16 lastChain ++
  leBytes 8 (bad.getD 0) ++ leBytes 8 s.now ++ leBytes 8 s.epoch ++ prev ++ sha384 s.aliasKeys ++ leBytes 16 s.serial ++ zeros 80

/-- Whether Tuber serves. -/
def State.tuberRuns (s : State) : Bool := s.on .TMB_STATUS_RUNNING && !s.on .TMB_STATUS_RESTARTING

/-- The first entry from `first` on whose chain is not the one its bytes and the entry before it give (R551, R554), `n`
entries looked at. -/
def chainBad (l : KV LogEntry) : Nat → Nat → List Byte → Option Nat
  | 0, _, _ => none
  | n + 1, seq, prev =>
    match kvGet? l ((seq - 1) % logCapacity) with
    | none => none
    | some e => if (sha384 (prev ++ e.body)).take 16 = e.chain then chainBad l n (seq + 1) e.chain else some seq

/-- What the recomputation of the chain finds, from the entries as the log holds them. -/
def State.chainLook (s : State) (first last : Nat) : Option Nat :=
  let prev := match kvGet? s.log.entries ((first - 2) % logCapacity) with
    | some e => if first ≤ 1 then zeros 16 else e.chain
    | none => zeros 16
  chainBad s.log.entries (last + 1 - first) first prev

/-- CHECKPOINT_CLOSE (R554): by entries or by time; the operand is an entry that the MRAM does not give back as written, which
the recomputation of the chain finds as well as one that does not chain. DESIGN CHOICE, log entry 71. -/
def doCheckpointClose (badSeq : Option Nat) (s : State) : State :=
  let first := s.get .LOG_CKPT_SEQ_SEQ + 1
  let last := s.get .LOG_SEQ_SEQ
  let many := decide (2 ^ clamp 10 20 (s.get .LOG_CTL_CKPT_LOG2) ≤ last + 1 - first)
  let due := s.log.lastCkptTime + max 1 (s.get .LOG_CTL_CKPT_SEC) * 1000000000
  let room := decide (s.get .LOG_CKPT_EXPORTED_MADE - s.get .LOG_CKPT_EXPORTED_COUNT < 512)
  if !s.tuberRuns ∨ s.log.closing.isSome ∨ last < first ∨ !room then s
  else
    let s := if many then s else timeTo due s
    let badSeq := (s.chainLook first last).or badSeq
    let c : LogCkpt := { first := first, last := last, header := s.ckptHeader first last badSeq, signed := false }
    let s := (s.withLog (fun l => { l with closing := some c })).set .LOG_STATUS_SIGNING 1
    match badSeq with
    | some _ => raiseUe 44 1 0 0 0 0 (s.set .LOG_STATUS_CHAIN_BROKEN 1)
    | none => s

/-- CHECKPOINT_SIGNED (R554): the slot is filled, then the kind-14 entry is made. -/
def doCheckpointSigned (s : State) : State :=
  match s.log.closing with
  | none => s
  | some c =>
    if !s.tuberRuns then s
    else
      let made := s.get .LOG_CKPT_EXPORTED_MADE
      let s := s.withLog (fun l =>
        { l with closing := none, lastHeader := c.header, lastCkptTime := s.now,
                 ckpts := kvSet l.ckpts (made % 512) { c with signed := true } })
      let s := (s.set .LOG_CKPT_EXPORTED_MADE ((made + 1) % 2 ^ 32)).set .LOG_CKPT_SEQ_SEQ c.last
      let s := checkLogFull (logRaw 0 14 (made % 512) c.first c.last (s.set .LOG_STATUS_SIGNING 0))
      raiseVec 0 (s.get .LOG_CTL_VECTOR) s

/-- LOG_CKPT_EXPORTED_WRITE (R552, R554): the PF only; the count goes up to the checkpoints made. DESIGN CHOICE, log entry 71. -/
def doLogCkptExportedWrite (o : Origin) (v : Nat) (s : State) : State :=
  let v := v % 2 ^ 32
  if o ≠ .pf ∨ s.mode = Mode.off then s
  else
    let s := dropLatch s
    if v ≤ s.get .LOG_CKPT_EXPORTED_COUNT then s
    else checkLogFull (s.set .LOG_CKPT_EXPORTED_COUNT (min v (s.get .LOG_CKPT_EXPORTED_MADE)))

end Sys2Proof.Machine
end

