-- ==== Sys2Proof/Machine/Modes.lean ====
section
/-!
DEFINITION. The modes and the staged start: SPORE, the start steps, CRUST, DORMANT and its wake, MAINTENANCE, install, and the
supply and RESET_N (R557 to R561, R570 to R580, R586 to R588, and the start rules of the other chapters).
-/

namespace Sys2Proof.Machine

/-! ## SPORE and FIDDLEHEAD -/

/-- The capture and status registers return to their reset values at the start after an L3_ACTION (R458). -/
def clearFaults (s : State) : State :=
  if s.flt.clearAtStart then
    let fs : List Fld := [.FLT_STATUS_SRC, .FLT_PLEVEL_LEVEL, .FLT_FIRST_ADDR_ADDR, .FLT_FIRST_MASTER_ORIGIN,
      .FLT_FIRST_TYPE_SOURCE, .FLT_FIRST_TYPE_LEVEL, .FLT_FIRST_TYPE_UE, .FLT_FIRST_TYPE_ESCALATED,
      .FLT_FIRST_TYPE_INJECTED, .FLT_FIRST_TYPE_ACCESS, .FLT_FIRST_TYPE_KIND, .FLT_FIRST_TYPE_DETAIL,
      .FLT_FIRST_TYPE_VALID, .FLT_FIRST_TIME_NS]
    let s := (fs.foldl (fun s f => s.set f 0) s).setB .FLT_PLEVEL_LEVEL 1 0
    { s with flt := { s.flt with clearAtStart := false } }
  else s

/-- The address order is taken from MEM_ORDER_NEXT, and logged, at a start that does not retain DRAM (R286). -/
def takeOrderNext (s : State) : State :=
  if s.on .MOD_STATE_RETAINED then s
  else
    let n := min 2 (s.get .MEM_ORDER_NEXT_ORDER)
    (logRecord 0x140000 (s.get .MEM_CFG_ORDER) n s).set .MEM_CFG_ORDER n

/-- The active front end of a start (R274). -/
def setFrontEnd (s : State) : State :=
  match s.nextFrontEnd with
  | some n => s.set .MEM_STRIPE_STATUS_FE_ACTIVE n
  | none => s

/-- The custody registers as the MRAM holds the epochs (R225). -/
def loadCustody (s : State) : State :=
  let b := b2n s.eng.cusClosed.isSome
  countCustody ((s.set .ENG_CUS_STATUS_CLOSED_WAIT b).set .ENG_CUS_STATUS_SIGNING b)

/-- FIDDLEHEAD is entered (R442, R458, R562, R570, R571): counters return to 0, every engine is online, the steps begin. -/
def enterFiddlehead (s : State) : State :=
  let s := changeMode Mode.fiddlehead (s.get .MOD_CAUSE_CODE) (s.get .MOD_CAUSE_ORIGIN) s
  let s := s.restartRegs (fun k => k != .ctr)
  let s := (List.range 7).foldl (fun s i => s.setB .MOD_STEP_TIME_US i 0) (s.set .MOD_STATE_STEPS 0)
  let s := s.withMod (fun m => { m with startAt := s.now, retryWait := false, role := none })
  let s := setFrontEnd (takeOrderNext (s.set .MEM_CFG_RETAINED (s.get .MOD_STATE_RETAINED)))
  let s := s.setFn 0 { s.fnOf 0 with ncq := clamp 1 32 (s.getB .VFM_CFG_NCQ 0) }
  let s := ((s.set .ENG_ONLINE_CHUNK 0xFF).set .ENG_ONLINE_PROBE 0x3FF).set .ENG_ONLINE_PACK 0xFF
  let s := (s.set .DBG_STATUS_FAILS 0).withTub (fun t => { t with dbg := false })
  tuberReset (startDiscovery (beginInsert (newSession (syncFree (loadCustody (clearFaults s))))))

/-- SPORE is left by the count of failed starts (R574). DESIGN CHOICE, log entry 66. -/
def leaveSpore (s : State) : State :=
  if 3 ≤ s.get .MOD_START_COUNT_COUNT then enterCrust (s.get .MOD_CAUSE_CODE) s else enterFiddlehead s

/-- SPORE_READY (R570): after a failed start 1 s in SPORE passes first. -/
def doSporeReady (s : State) : State :=
  if s.mode ≠ Mode.spore ∨ s.mod_.sporeReady then s
  else
    let s := s.withMod (fun m => { m with sporeReady := true })
    if s.mod_.retryWait then s else leaveSpore s

/-- SPORE_RETRY_DELAY (*Transitions*): 1 s after SPORE was entered. -/
def doSporeRetryDelay (s : State) : State :=
  if s.mode = Mode.spore ∧ s.mod_.retryWait then
    let s := (timeTo (s.mod_.modeAt + 1000000000) s).withMod (fun m => { m with retryWait := false })
    if s.mod_.sporeReady then leaveSpore s else s
  else s

/-! ## Start steps -/

/-- Whether a start step has passed. -/
def State.passed (s : State) (n : Nat) : Bool := (s.get .MOD_STATE_STEPS).testBit n

/-- The time a step began, in µs after FIDDLEHEAD entry, by what it starts after (*Start steps*). -/
def State.stepBegan (s : State) (n : Nat) : Nat :=
  let us := fun (k : Nat) => s.getB .MOD_STEP_TIME_US k
  match n with
  | 4 => max (us 0) (us 1)
  | 5 => us 1
  | 6 => max (us 0) (us 1) + us 4
  | _ => 0

/-- A step has passed: its bit and its duration (R571). -/
def stepDone (n : Nat) (s : State) : State :=
  let us := (s.now - s.mod_.startAt) / 1000 - s.stepBegan n
  (s.setB .MOD_STEP_TIME_US n us).set .MOD_STATE_STEPS (setBit (s.get .MOD_STATE_STEPS) n)

/-- An anti-rollback value left between the mirror and the fuses is completed (R537). -/
def finishRollback (s : State) : State :=
  let f := s.get .FUS_ROLLBACK_FUSED
  let m := s.get .FUS_ROLLBACK_MIRROR
  if f < m then (logHw 2 0x40008 f m s).set .FUS_ROLLBACK_FUSED m
  else s.set .FUS_ROLLBACK_MIRROR f

/-- Tuber's firmware of a bank runs (R534, R538). -/
def tuberUp (bank : Nat) (s : State) : State :=
  let d := s.bankImage (bank * 2)
  let i := s.runImage 1 d
  let s := enterFirmware d (s.withTub (fun t => { t with fw := some i, kickAt := s.now, cdi := i.cdiT }))
  finishRollback (((s.set .TMB_STATUS_BANK bank).set .TMB_STATUS_RUNNING 1).set .TMB_STATUS_DRBG_OK 1)

/-- TUBER_VERIFY_DONE (R534, R537, *CRUST*): the boot bank, then the other. -/
def doTuberVerifyDone (bootRead otherRead : Bool) (s : State) : State :=
  let start := s.mode == Mode.fiddlehead && !s.passed 0
  let crust := s.mode == Mode.crust && s.pdOn 1 && !s.on .TMB_STATUS_RUNNING
  if !start && !crust then s
  else
    let b := s.tub.bootBank
    let done := fun (s : State) => if start then stepDone 0 s else s
    if s.bankVerdict b 1 bootRead = 0 then done (tuberUp b s)
    else if s.bankVerdict (1 - b) 1 otherRead = 0 then done (tuberUp (1 - b) s)
    else if start then failStart (s.bankVerdict b 1 bootRead * 256 + 1) s
    else (s.setBitB .PWR_STATE_ON 0 1 false).withTub (fun t => { t with core := none, sram := [] })

/-- What DRAM is after training (R280, R283): zero unless retained, marks to be cleared gone where the stripe trained. -/
def dramTrained (s : State) : State :=
  let keep := s.on .MEM_CFG_RETAINED
  let s := if keep then s else s.withMem (fun m => { m with dram := [], poison := [], errs := [] })
  let s :=
    if keep then s
    else
      let l := s.mem.clearNext
      let s := s.withMem (fun m => { m with clearNext := [] })
      let s := l.foldl (fun s k => s.setBitB .MEM_STRIPE_STATUS_FAILED 0 k false) s
      l.foldl (fun s k => s.setBitB .PWR_STATE_ON 0 (20 + k) true) s
  setFrontEnd s

/-- Stripes marked failed that are not to be tried again at this start (R283). -/
def State.marked (s : State) : List Nat :=
  (setBits (s.get .MEM_STRIPE_STATUS_FAILED) 6).filter (fun k => s.on .MEM_CFG_RETAINED || !s.mem.clearNext.contains k)

/-- A wake from DORMANT is complete (R579). DESIGN CHOICE, log entry 75. -/
def wakeDone (s : State) : State :=
  let s := s.withMod (fun m => { m with waking := false })
  let s := toFrond (0x1300 + s.mod_.wakeCause) s.mod_.wakeBy s
  let s := startCores ((s.set .COH_STATUS_DOMAIN 2).set .COH_CTL_READY 0)
  deliverDormant (startDiscovery (registerKeys s))

/-- DRAM_TRAINING_DONE (R280, R283 to R285, R579, R580): the step of a start, of CRUST, or of a wake. DESIGN CHOICE, log entry 75. -/
def doDramTrainingDone (failedStripes : List Nat) (s : State) : State :=
  let bad := failedStripes.filter (fun k => decide (k < 6) && !s.marked.contains k)
  let worst := bad.foldl max 0
  if s.mode = Mode.fiddlehead ∧ !s.passed 1 then
    if 2 ≤ s.marked.length then failStart (0x0400 + s.marked.foldl max 0) s
    else
      let fresh := bad.filter (fun k => !s.bitB .MEM_STRIPE_STATUS_FAILED 0 k)
      if !fresh.isEmpty then failStart (0x0400 + fresh.foldl max 0) s
      else
        let s := s.withMem (fun m => { m with clearNext := m.clearNext.filter (fun k => !bad.contains k) })
        stepDone 1 (dramTrained s)
  else if s.mode = Mode.crust ∧ !(List.range 6).any (fun k => s.pdOn (20 + k)) then
    let good := (List.range 6).filter (fun k => !failedStripes.contains k && !s.bitB .MEM_STRIPE_STATUS_FAILED 0 k)
    setFrontEnd (good.foldl (fun s k => s.setBitB .PWR_STATE_ON 0 (20 + k) true) s)
  else if s.mode = Mode.dormant ∧ s.mod_.waking then
    if bad.isEmpty then wakeDone s else failStart (0x0400 + worst) s
  else s

/-- Pods that can run. -/
def State.usablePods (s : State) : Nat := ((List.range 16).filter (fun n => s.physState n != 2)).length

/-- SELFTEST_DONE (R412, R437, R438). -/
def doSelftestDone (failedPods : List Nat) (s : State) : State :=
  if s.mode ≠ Mode.fiddlehead ∨ s.passed 2 then s
  else
    let least := clamp 1 16 (s.get .POD_CFG_MIN_PODS)
    if s.usablePods < least then failStart 0x0600 s
    else
      let l := ((List.range 16).filter (fun n => failedPods.contains n && s.physState n != 2))
      let s := l.foldl (fun s n => failPhys n s) (s.set .POD_SELFTEST_FAILED (maskOf l))
      if s.usablePods < least then failStart (0x0500 + l.foldl max 0) s
      else stepDone 2 (syncMhz (assignPods s))

/-- The role of a member (*Role at start*, R519): 1 active, 2 standby, with whether it waits for its peer. -/
def State.roleAtStart (s : State) (peerKeyAbove : Bool) : Nat × Bool :=
  let seen := (if s.hbValid then [s.pair.hbMode] else []) ++ s.peerMode.toList
  if !s.on .CLM_PAIR_PAIRED then (1, false)
  else if seen.any (fun m => m == Mode.frond || m == Mode.maintenance) then (2, false)
  else if seen.any (fun m => m == Mode.fiddlehead || m == Mode.standby) then
    (if s.get .CLM_PEER_CLAIM_CLAIM < s.get .CLM_CLAIM_CLAIM then 1 else 2, false)
  else if peerKeyAbove then (2, true)
  else (1, false)

/-- The port whose last loopback test failed, if one did. -/
def State.testFailed (s : State) : Option Nat :=
  if s.on .RNG_STATUS_TEST_FAIL then some (if s.onB .RNG_PSTAT_LOOP_PASS 0 then 1 else 0) else none

/-- RING_LOCK_DONE (R464, R519): a failed port fails the step, which ends once the loopback test and the first ANNOUNCE round
are over; the role is then decided. -/
def doRingLockDone (failPort : Option Nat) (peerKeyAbove : Bool) (s : State) : State :=
  let busy := s.get .RNG_STATUS_STATE == 1 || s.get .RNG_STATUS_STATE == 2
  if s.mode ≠ Mode.fiddlehead ∨ s.passed 3 then s
  else match failPort, s.testFailed with
    | some p, _ | none, some p => failStart (0x0C00 + p % 2) s
    | none, none =>
      if busy then s
      else
        let (role, waits) := s.roleAtStart peerKeyAbove
        stepDone 3 ((s.withMod (fun m => { m with role := some role })).set .CLM_STATUS_WAIT_PEER (b2n waits))

/-- The main image of a bank is loaded into code region 0 and the cores are released at its entry (R534, R539). -/
def loadMain (bank : Nat) (s : State) : State :=
  let d := s.bankImage (bank * 2 + 1)
  let i := s.runImage 2 d
  let load := fieldAt d 24 8
  let s := s.withMem (fun m => { m with dram := cellPut m.dram load (imageBody d) })
  let s := (s.setB .COH_CODE_BASE_BASE 0 (load / 2 ^ 21)).setB .COH_CODE_BASE_VALID 0 1
  let s := s.setB .COH_CODE_LIMIT_LIMIT 0 (divUp (load + fieldAt d 16 8) (2 ^ 21))
  let dbg := leBytes 1 (b2n s.tub.dbg)
  let s := s.withTub (fun t =>
    { t with main := some i
             aliasTag := Config.derive deriveCdiM (t.cdi ++ i.measurement ++ leBytes 4 i.svn ++ leBytes 1 i.slot ++ dbg) })
  s.set .COH_STATUS_DOMAIN 2

/-- Every logical core starts at an address at M. DESIGN CHOICE, log entry 74. -/
def startCoresAt (pc : Word) (s : State) : State :=
  (List.range (s.get .POD_SPARES_LOGICAL)).foldl (fun s p =>
    let s := { s with cores := kvSet s.cores (2 * p) (freshCore s pc 2) }
    if s.getB .POD_MODE_MODE p = 1 then { s with cores := kvSet s.cores (2 * p + 1) (freshCore s pc 2) } else s) s

/-- In CRUST logical pod 0 alone runs, on the lowest usable pod (*CRUST*). DESIGN CHOICE, log entry 74. -/
def crustPod (s : State) : State :=
  let s := assignPods s
  let n := s.physPod 0
  let on := [2 + n, 18, 19].foldl setBit (s.get .PWR_STATE_ON)
  let s := ((s.set .POD_MAP_MAP n).set .POD_SPARES_LOGICAL (min 1 (s.get .POD_SPARES_LOGICAL))).set .PWR_STATE_ON on
  let s := (s.setB .POD_MODE_MODE 0 0).set .POD_SPARES_LEFT 0
  syncMhz ((List.range 15).foldl (fun s p => s.setB .POD_MODE_MODE (p + 1) 3) s)

/-- MAIN_IMAGE_LOADED (R534, *CRUST*). -/
def doMainImageLoaded (bankRead otherRead : Bool) (s : State) : State :=
  let start := s.mode == Mode.fiddlehead && s.passed 0 && s.passed 1 && !s.passed 4
  let crust := s.mode == Mode.crust && s.tuberRuns && !s.coreUp &&
    decide (4 ≤ ((List.range 6).filter (fun k => s.pdOn (20 + k))).length)
  if !start && !crust then s
  else
    let go := fun (bank : Nat) (s : State) =>
      let s := loadMain bank (if crust then crustPod s else s)
      let s := startCoresAt (BitVec.ofNat 64 (fieldAt (s.bankImage (bank * 2 + 1)) 32 8)) s
      if start then stepDone 4 s else s
    let b := s.get .TMB_STATUS_BANK
    if s.bankVerdict b 2 bankRead = 0 then go b s
    else if s.bankVerdict (1 - b) 2 otherRead = 0 then go (1 - b) s
    else if start then failStart (s.bankVerdict b 2 bankRead * 256 + 2) s
    else s

/-- The key sequence of every key advances when the counter reservation is lost (R191). -/
def advanceKeys (s : State) : State :=
  if s.jnl.counterLost then
    let s := s.withTub (fun t => { t with handles := t.handles.map (fun q => (q.1, { q.2 with seq := q.2.seq + 1 })) })
    s.withJnl (fun j => { j with counterLost := false })
  else s

/-- JOURNAL_REPLAY (R135 to R139): a member of a pair replays when it enters FROND, its role then being known. -/
def doJournalReplay (s : State) : State :=
  if s.mode ≠ Mode.fiddlehead ∨ !s.passed 1 ∨ s.passed 5 then s
  else if !s.journalReadable then failStart 0x0700 s
  else
    let s := advanceKeys s
    stepDone 5 (if s.on .CLM_PAIR_PAIRED then s else replay s)

/-- COH_READY (R99, R410, R444): a write of 1 to COH_CTL.READY. -/
def doCohReady (o : Origin) (s : State) : State :=
  reach o .COH_CTL (fun s =>
    if !s.coreUp then s
    else
      let s := redeliverCalls (cohReadyBit s)
      if s.mode = Mode.fiddlehead ∧ s.passed 4 ∧ !s.passed 6 then stepDone 6 s else s) s

/-- START_WATCHDOG_EXPIRE (R571). -/
def doStartWatchdogExpire (s : State) : State :=
  if s.mode = Mode.fiddlehead then failStart 0x0800 (timeTo (s.mod_.startAt + 30000000000) s) else s

/-- START_COUNT_CLEAR (R573): 10 minutes in FROND or STANDBY without a break have passed. -/
def doStartCountClear (s : State) : State :=
  if s.mode = Mode.frond ∨ s.mode = Mode.standby then
    (timeTo (s.mod_.upAt + 600000000000) s).set .MOD_START_COUNT_COUNT 0
  else s

/-- The start ends when every step has passed and no core is in a world other than 0 (R559, R571): FROND for the active member
and an unpaired module, which take their claim; STANDBY for the other. A refresh pass begins (R599). -/
def startEnd (s : State) : State :=
  if s.mode ≠ Mode.fiddlehead ∨ s.get .MOD_STATE_STEPS % 128 ≠ 127 ∨ !s.worldsOut then s
  else match s.mod_.role with
    | some 1 =>
      let s := takeClaim s
      let s := s.set .CLM_STATUS_ROLE (s.get .CLM_PAIR_PAIRED)
      let s := rekey ((toFrond 0x1500 0 s).set .PWR_REFRESH_RUNNING 1)
      (if s.on .CLM_PAIR_PAIRED then replay s else s).set .MOD_STATE_RETAINED 0
    | some _ =>
      let s := (s.set .CLM_STATUS_ROLE 2).withPair (fun p => { p with sayResync := true })
      let s := changeMode Mode.standby 0x1500 0 (clearEnclaves s)
      registerKeys ((s.set .PWR_REFRESH_RUNNING 1).set .MOD_STATE_RETAINED 0)
    | none => s

/-! ## Mode commands -/

/-- A MOD_CMD command (R558, R601, R602). -/
def modCommand (o : Origin) (v : Nat) (checks : List (Bool × Nat)) (act : State → State) (s : State) : State :=
  busyCommand o .MOD_CMD .MOD_CMD_BUSY v .MOD_CMD_RESULT 6 checks act s

/-- Whether RESTART is allowed (R558, R576). -/
def State.mayRestart (s : State) (clear : Bool) : Bool :=
  [Mode.frond, Mode.standby, Mode.maintenance, Mode.dormant].contains s.mode || (s.mode == Mode.crust && clear)

/-- MOD_RESTART (R561). -/
def doModRestart (o : Origin) (w : Nat) (retain clear : Bool) (s : State) : State :=
  modCommand o w [(!s.mayRestart clear, 1)] (fun s =>
    let keep := retain && (s.mode == Mode.frond || s.mode == Mode.maintenance)
    let s := if clear then s.set .MOD_START_COUNT_COUNT 0 else s
    enterSpore 0x1000 (originCode o) keep false s) s

/-- Whether every subchannel is IDLE or UNASSIGNED. -/
def State.quiet (s : State) : Bool := s.css.subs.all (fun q => q.2.st == .idle || q.2.st == .unassigned)

/-- The conditions of R578. -/
def State.mayDormant (s : State) : Bool :=
  !s.on .CLM_PAIR_PAIRED && s.quiet && !s.on .ENG_CUS_STATUS_CLOSED_WAIT

/-- MOD_DORMANT (R578): the entry runs until `dormantEnd`. -/
def doModDormant (o : Origin) (w : Nat) (s : State) : State :=
  modCommand o w [(s.mode != Mode.frond, 1), (!s.mayDormant, 2)] (fun s =>
    ((s.set .MOD_CMD_BUSY 1).set .MOD_STATE_PENDING Mode.dormant).withMod (fun m => { m with cmdBy := originCode o })) s

/-- The cores' stores are performed and every cached line is cleaned to DRAM (R578). DESIGN CHOICE, log entry 85. -/
def cleanAll (s : State) : State :=
  let s := (kvKeys s.cores).foldl (fun s k => (drainCore k s).2) s
  let s := ((kvKeys s.coh.l2).map (· % 2 ^ 31)).foldl (fun s l => purgeLine true l s) s
  (kvKeys s.coh.l3).foldl (fun s l => purgeLine true l s) s

/-- DORMANT is entered once no core is in a world other than 0 (R559, R578). -/
def dormantEnd (s : State) : State :=
  if s.mode ≠ Mode.frond ∨ s.get .MOD_STATE_PENDING ≠ Mode.dormant ∨ !s.worldsOut then s
  else
    let s := lanesDown 1 (lanesDown 0 (clearEnclaves (cleanAll s)))
    let s := { s with cores := [], coh := {}, mpt := { s.mpt with cmds := [], waiting := [], lanes := [] } }
    let s := (s.set .COH_STATUS_DOMAIN 0).set .COH_CTL_READY 0
    changeMode Mode.dormant 0x1000 s.mod_.cmdBy (s.set .MOD_CMD_BUSY 0)

/-- A wake begins (R579). DESIGN CHOICE, log entry 75. -/
def beginWake (cause by_ : Nat) (s : State) : State :=
  if s.mode ≠ Mode.dormant ∨ s.mod_.waking then s
  else
    let s := s.withMod (fun m => { m with waking := true, wakeCause := cause, wakeBy := by_ })
    s.set .MOD_STATE_PENDING Mode.frond

/-- MOD_WAKE (R579). -/
def doModWake (o : Origin) (w : Nat) (s : State) : State :=
  modCommand o w [(s.mode != Mode.dormant, 1)] (beginWake 0 (originCode o)) s

/-- WAKE_TIME_REACHED (R579). -/
def doWakeTimeReached (s : State) : State :=
  if s.mode = Mode.dormant then beginWake 1 0 (timeTo (s.get .MOD_WAKE_TIME_TIME) s) else s

/-- WAKE_FAIL (R580). -/
def doWakeFail (cause : Nat) (s : State) : State :=
  if s.mode = Mode.dormant ∧ s.mod_.waking then failStart (cause % 65536) s else s

/-- Subchannels of VFs that are at work. -/
def State.vfsBusy (s : State) : Bool :=
  s.css.subs.any (fun q => !isExec q.1 && q.2.fn != 0 && !(q.2.st == .idle || q.2.st == .unassigned))

/-- MOD_MAINTENANCE (R560): the VFs are paused; entry follows their drain (`drainEnd`). -/
def doModMaintenance (o : Origin) (w : Nat) (s : State) : State :=
  modCommand o w [(s.mode != Mode.frond && s.mode != Mode.standby, 1)] (fun s =>
    let l := s.vfs.filter (fun f => !(s.fnOf f).paused)
    let s := l.foldl (fun s f => s.setFn f { s.fnOf f with paused := true }) s
    let s := (s.set .MOD_CMD_BUSY 1).set .MOD_STATE_PENDING Mode.maintenance
    s.withMod (fun m => { m with drainPaused := l, cmdBy := originCode o, cmdAt := s.now })) s

/-- MAINTENANCE is entered once the VFs have drained (R560). -/
def drainEnd (s : State) : State :=
  if s.get .MOD_STATE_PENDING ≠ Mode.maintenance ∨ s.vfsBusy ∨ !(s.mode == Mode.frond || s.mode == Mode.standby) then s
  else
    let s := (s.set .MOD_CMD_BUSY 0).withMod (fun m => { m with drainPaused := [] })
    changeMode Mode.maintenance 0x1000 s.mod_.cmdBy s

/-- MAINTENANCE_DRAIN_TIMEOUT (R560): DRAIN_S seconds after the command. -/
def doMaintenanceDrainTimeout (s : State) : State :=
  if s.get .MOD_STATE_PENDING ≠ Mode.maintenance then s
  else
    let s := timeTo (s.mod_.cmdAt + max 1 (s.get .MOD_CTL_DRAIN_S) * 1000000000) s
    let s := s.mod_.drainPaused.foldl (fun s f => s.setFn f { s.fnOf f with paused := false }) s
    let s := s.withMod (fun m => { m with drainPaused := [] })
    ((s.set .MOD_STATE_PENDING 0).set .MOD_CMD_BUSY 0).set .MOD_CMD_RESULT 3

/-- The two images of an envelope set (R577): the main image starts at the next 4 KiB boundary. -/
def setImages (d : List Byte) : List Byte × List Byte :=
  let at_ := divUp (imageSize d) 4096 * 4096
  (d.take (imageSize d), (d.drop at_).take (imageSize (d.drop at_)))

/-- MOD_INSTALL (R535, R577): both envelopes are verified before and after they are written; every install is logged with the
main image's version. DESIGN CHOICE, log entry 77. -/
def doModInstall (o : Origin) (w : Nat) (set : InstallSet) (s : State) : State :=
  let addr := s.get .MOD_INSTALL_ADDR_VALUE
  let len := s.get .MOD_INSTALL_LEN_VALUE
  modCommand o w [(s.mode != Mode.crust && s.mode != Mode.maintenance, 1), (!s.tuberRuns, 4)] (fun s =>
    let b := 1 - s.tub.bootBank
    let d : List Byte := match set.data with
      | .ok d => d.take len
      | .failed => []
    let (fw, main) := setImages d
    let good := addr % 4096 == 0 && decide (len ≤ 2 ^ 31) && s.verdict 1 fw == 0 && s.verdict 2 main == 0 &&
      decide (fw.length + main.length ≤ 2 ^ 30) && set.readBackOk
    let old := fieldAt (s.bankImage (b * 2 + 1)) 40 8
    let s := checkLogFull (logRaw (originCode o) 3 b old (if good then fieldAt main 40 8 else 0) (hostReadReq 0 addr len s))
    if good then
      let s := s.withTub (fun t => { t with bootBank := b, banks := kvSet (kvSet t.banks (b * 2) fw) (b * 2 + 1) main })
      enterSpore 0x1400 (originCode o) false false (s.set .MOD_START_COUNT_COUNT 0)
    else s.set .MOD_CMD_RESULT 5) s

/-! ## Supply, RESET_N and the timebase -/

/-- SUPPLY_FAULT (R308, R451, R587): source 48 is reported, then the module loses what is not in MRAM. -/
def doSupplyFault (s : State) : State :=
  if s.mode = Mode.off then s.withMod (fun m => { m with supplyLost := true })
  else (losePower (raiseUe 48 3 0 0 0 0 s)).withMod (fun m => { m with supplyLost := true })

/-- SUPPLY_IN_REGULATION (R459, R587). -/
def doSupplyInRegulation (posId : Nat) (s : State) : State :=
  if s.mode ≠ Mode.off then s
  else if s.mod_.resetHeld then (s.withMod (fun m => { m with supplyLost := false })).set .RNG_STATUS_NODE posId
  else powerOn posId s

/-- RESET_N_ASSERT (R586). -/
def doResetNAssert (s : State) : State :=
  let s := if s.mode = Mode.off then s else losePower s
  s.withMod (fun m => { m with resetHeld := true })

/-- RESET_N_RELEASE (R586). -/
def doResetNRelease (s : State) : State :=
  let s := s.withMod (fun m => { m with resetHeld := false })
  if s.mode = Mode.off ∧ !s.mod_.supplyLost then powerOn s.node s else s

/-- TIM_EPOCH_WRITE (R569): only the PF's; a kind-8 entry. -/
def doTimEpochWrite (o : Origin) (v : Nat) (s : State) : State :=
  if o ≠ .pf ∨ s.mode = Mode.off then s
  else
    logged o 8 0 s.epoch (v % 2 ^ 63 + 2 ^ 63) id (fun s =>
      (s.set .TIM_EPOCH_OFFSET (v % 2 ^ 63)).set .TIM_EPOCH_VALID 1) (dropLatch s)

/-- TIM_SAVE (R568). -/
def doTimSave (s : State) : State := if s.mode = Mode.off then s else s.withMod (fun m => { m with savedNow := s.now })

end Sys2Proof.Machine
end

