-- ==== Sys2Proof/Machine/Power.lean ====
section
/-!
DEFINITION. Power requests and Tuber's holds, domain sequences, pod frequency, thermal steps, age monitors and the refresh
pass (R549, R550, R563, R564, R566, R567, R593, R594, R596, R597, R599).
-/

namespace Sys2Proof.Machine

/-! ## Domain sequences -/

/-- Blocks an engine of the domain holds: chunks on its PACK engines; chunks cut that PROBE has not answered (R564). SEAL, SPREAD
and GATHER hold a block only within one command. DESIGN CHOICE, log entry 62. -/
def State.holdsBlock (s : State) (d : Nat) : Bool :=
  s.css.subs.any (fun q => match q.2.prog with
    | some p => p.chunks.any (fun c => match c.place with
      | .packing e => (d == 26 && decide (e < 4)) || (d == 27 && decide (4 ≤ e))
      | .cut => d == 29
      | _ => false)
    | none => false)

/-- The lanes of a media port go down; commands outstanding there end as failed on transport (R233, *Level-2 restarts*). DESIGN
CHOICE, log entry 63. -/
def mediaDown (port : Nat) (s : State) : State :=
  let s := lanesDown port s
  (s.mpt.cmds.filter (fun q => q.2.lane / 32 == port)).foldl (fun s q => match kvGet? s.mpt.cmds q.1 with
    | some c => complete q.1 c .transport [] s
    | none => s) s

/-- A Tuber request in progress on PD29 ends ABORTED (R550): the domain command is refused. DESIGN CHOICE, log entry 62. -/
def abortTuberWork (d : Nat) (s : State) : State :=
  if d = 29 ∧ s.eng.domCmd.isSome then
    ((s.withEng (fun e => { e with domCmd := none })).set .ENG_DOM_CMD_BUSY 0).set .ENG_DOM_CMD_RESULT 4
  else s

/-- What going dark means for the block in a domain (R233, R469, R550). DESIGN CHOICE, log entry 33. DESIGN CHOICE, log entry 63. -/
def domainLost (d : Nat) (s : State) : State :=
  let s := domainDark d s
  if d = 1 then
    endUnlock (((s.set .TMB_STATUS_RUNNING 0).set .TMB_STATUS_DRBG_OK 0).withTub (fun t => { t with fw := none, core := none, sram := [] }))
  else if d = 31 ∨ d = 32 then mediaDown (d - 31) s
  else if d = 34 ∨ d = 35 then doPortLoss (d - 34) s
  else s

/-- The end state of a domain's sequence: on, off or clock-stopped (R567). DESIGN CHOICE, log entry 33. -/
def domainEnd (d op : Nat) (s : State) : State :=
  if op = 1 then (s.setBitB .PWR_STATE_ON 0 d true).setBitB .PWR_CLKSTOP_STOPPED 0 d false
  else domainLost d ((s.setBitB .PWR_STATE_ON 0 d false).setBitB .PWR_CLKSTOP_STOPPED 0 d (op == 3))

/-- A request is carried out: its sequence runs until DOMAIN_POWER_COMPLETE. DESIGN CHOICE, log entry 33. -/
def runPower (d op : Nat) (s : State) : State :=
  (s.set .PWR_RESULT_BUSY 1).withMod (fun m => { m with pwrRun := kvSet m.pwrRun d op })

/-- DOMAIN_POWER_COMPLETE (R562, R564, R567): powering off an engine domain waits for its blocks. -/
def doDomainPowerComplete (d : Nat) (s : State) : State :=
  match kvGet? s.mod_.pwrRun d with
  | none => s
  | some op =>
    if op ≠ 1 ∧ s.holdsBlock d then s
    else
      let s := domainEnd d op (s.withMod (fun m => { m with pwrRun := kvDel m.pwrRun d }))
      (s.set .PWR_RESULT_BUSY 0).set .PWR_RESULT_RESULT 0

/-! ## Requests -/

/-- Whether a request for a domain is carried out in the mode (R275, R563): RESULT 0, 1 or 3. DESIGN CHOICE, log entry 61. -/
def State.powerRule (s : State) (d op : Nat) : Nat :=
  let m := s.mode
  let req := [26, 27, 28, 29, 31, 32, 34, 35].contains d
  if req ∧ (m = Mode.frond ∨ m = Mode.maintenance) then 0
  else if d = 1 ∧ op = 2 ∧ m = Mode.maintenance then 0
  else if 20 ≤ d ∧ d ≤ 25 ∧ op = 2 ∧ (m = Mode.frond ∨ m = Mode.standby ∨ m = Mode.dormant) then
    if s.bitB .MEM_STRIPE_STATUS_FAILED 0 (d - 20) then 0 else 3
  else 1

/-- A running request, its deferral included, is BUSY. -/
def State.powerBusy (s : State) : Bool := s.on .PWR_RESULT_BUSY

/-- Enters a request in PWR_REQ. DESIGN CHOICE, log entry 61. -/
def setRequest (v : Nat) (s : State) : State := (s.set .PWR_REQ_DOMAIN (v % 64)).set .PWR_REQ_OP (v / 64 % 4)

/-- The request is deferred: its domain is held and Tuber is told (R549). DESIGN CHOICE, log entry 61. -/
def deferPower (d op : Nat) (s : State) : State :=
  ((s.set .PWR_RESULT_BUSY 1).set .PWR_RESULT_DEFERRED 1).withMod (fun m => { m with pwr := some { domain := d, op := op, since := s.now } })

/-- Whether a write is a second request for the domain of the deferred one; it shares its outcome (R549). DESIGN CHOICE, log entry 61. -/
def State.sharesDeferral (s : State) (d : Nat) : Bool :=
  match s.mod_.pwr with
  | some w => w.domain == d
  | none => false

/-- PWR_REQ (R8, R549, R563, R601, R602): an RWL register, so each write is entered once and stored; one with an OP then
asks, and one for the domain of the deferral shares that request's outcome. DESIGN CHOICE, log entry 61. -/
def doPwrReq (o : Origin) (v : Nat) (s : State) : State :=
  let d := v % 64
  let op := v / 64 % 4
  reach o .PWR_REQ (fun s =>
    logged o 1 (regBase .PWR_REQ) (s.regRaw .PWR_REQ 0) ((setRequest v s).regRaw .PWR_REQ 0)
      (fun s => if op = 0 then s else s.set .PWR_RESULT_RESULT 4)
      (fun s =>
        let s := setRequest v s
        if op = 0 ∨ (s.sharesDeferral d ∧ op ≠ 1) then s
        else if s.powerBusy then s.set .PWR_RESULT_RESULT 5
        else if s.powerRule d op ≠ 0 then s.set .PWR_RESULT_RESULT (s.powerRule d op)
        else
          let held := op != 1 && s.bitB .PWR_HOLD_HELD 0 d && (o matches .hw | .tuber) == false
          (if held then deferPower d op else runPower d op) (s.set .PWR_RESULT_RESULT 0)) s) s

/-- The deferred request proceeds (R549). -/
def proceedPower (w : PwrWait) (s : State) : State :=
  runPower w.domain w.op ((s.set .PWR_RESULT_DEFERRED 0).withMod (fun m => { m with pwr := none }))

/-- PWR_HOLD_CLEAR (R549): Tuber clears a bit, never PD1's; a deferred request for the domain proceeds. DESIGN CHOICE, log entry 62. -/
def doPwrHoldClear (d : Nat) (s : State) : State :=
  if d = 1 ∨ !s.bitB .PWR_HOLD_HELD 0 d ∨ !s.on .TMB_STATUS_RUNNING then s
  else
    let s := domainDark d (s.setBitB .PWR_HOLD_HELD 0 d false)
    match s.mod_.pwr with
    | some w => if w.domain = d then proceedPower w s else s
    | none => s

/-- PWR_HOLD_TIMEOUT (R549): 50 ms have passed; HELD. -/
def doPwrHoldTimeout (s : State) : State :=
  match s.mod_.pwr with
  | some w =>
    let s := (timeTo (w.since + 50000000) s).withMod (fun m => { m with pwr := none })
    ((s.set .PWR_RESULT_DEFERRED 0).set .PWR_RESULT_BUSY 0).set .PWR_RESULT_RESULT 2
  | none => s

/-- What a forced request does after its entry is durable: the zeroiser first, then power or clock (R550). DESIGN CHOICE, log entry 62. -/
def forcePower (d op : Nat) (s : State) : State :=
  let s := (s.set .PWR_RESULT_DEFERRED 0).withMod (fun m => { m with pwr := none })
  runPower d op (abortTuberWork d (domainDark d s))

/-- The request PWR_FORCE forces: the deferred one, else that of PWR_REQ (R550). DESIGN CHOICE, log entry 61. -/
def State.forcedRequest (s : State) : Nat × Nat :=
  match s.mod_.pwr with
  | some w => (w.domain, w.op)
  | none => (s.get .PWR_REQ_DOMAIN, s.get .PWR_REQ_OP)

/-- PWR_FORCE (R8, R550): REASON is entered and stored; only the PF's GO forces, once the entry with the reason is made.
DESIGN CHOICE, log entry 62. -/
def doPwrForce (o : Origin) (v : Nat) (s : State) : State :=
  let reason := v % 65536
  let go := o == .pf && (v / 65536) % 2 == 1
  reach o .PWR_FORCE (fun s =>
    let (d, op) := s.forcedRequest
    let refuse := fun (s : State) => if go ∧ 2 ≤ op then s.set .PWR_RESULT_RESULT 4 else s
    logged o 1 (regBase .PWR_FORCE) (s.get .PWR_FORCE_REASON) reason refuse
      (fun s =>
        let s := s.set .PWR_FORCE_REASON reason
        if !go ∨ op < 2 then s
        else if s.powerBusy ∧ s.mod_.pwr = none then s.set .PWR_RESULT_RESULT 5
        else if s.powerRule d op ≠ 0 then s.set .PWR_RESULT_RESULT (s.powerRule d op)
        else logged o 11 d reason 0 refuse (fun s => forcePower d op (s.set .PWR_RESULT_RESULT 0)) s) s) s

/-- PWR_POD_MHZ_WRITE (R566, R597): throttling never raises a pod. -/
def doPwrPodMhzWrite (o : Origin) (pod v : Nat) (s : State) : State :=
  if 16 ≤ pod then s
  else
    reach o .PWR_POD_MHZ (fun s =>
      let now := s.getB .PWR_POD_MHZ_NOW pod
      let s := s.setB .PWR_POD_MHZ_STEP pod (v % 64)
      if now = 0 ∨ s.mode = Mode.crust then s
      else
        let f := s.podStep pod
        s.setB .PWR_POD_MHZ_NOW pod (if s.on .PWR_TEMP_THROTTLE then min now f else f)) s

/-! ## Temperature -/

/-- A temperature field as a signed number of 1/8 °C. -/
def signed16 (n : Nat) : Int := if n % 65536 < 32768 then (n % 65536 : Nat) else (n % 65536 : Nat) - (65536 : Int)

/-- Every running pod 100 MHz lower, down to 800 MHz. DESIGN CHOICE, log entry 64. -/
def slowPods (s : State) : State :=
  (List.range 16).foldl (fun s p =>
    let n := s.getB .PWR_POD_MHZ_NOW p
    if n = 0 then s else s.setB .PWR_POD_MHZ_NOW p (max 8 (n - 1))) s

/-- Every running pod 100 MHz higher, up to PWR_POD_MHZ; throttling ends when all have reached it. DESIGN CHOICE, log entry 64. -/
def raisePods (s : State) : State :=
  let s := (List.range 16).foldl (fun s p =>
    let n := s.getB .PWR_POD_MHZ_NOW p
    if n = 0 then s else s.setB .PWR_POD_MHZ_NOW p (min (n + 1) (s.podStep p))) s
  let all := (List.range 16).all (fun p => s.getB .PWR_POD_MHZ_NOW p == 0 || s.getB .PWR_POD_MHZ_NOW p == s.podStep p)
  if all then s.set .PWR_TEMP_THROTTLE 0 else s

/-- THERMAL_STEP (R593, R594): the sensors as read, and what 10 ms at that temperature do. DESIGN CHOICE, log entry 64. DESIGN CHOICE, log entry 94. -/
def doThermalStep (tj lid island : Nat) (s : State) : State :=
  if s.mode = Mode.off then s
  else
    let t := signed16 tj
    let s := ((s.set .PWR_TEMP_TJ_MAX tj).set .PWR_TEMP_LID lid).set .PWR_TEMP_ISLAND island
    if 800 < t then raiseUe 50 3 0 0 0 0 s
    else if 720 < t then
      let s := if s.on .PWR_TEMP_THROTTLE then s else raiseCe 50 0 0 0 0 (s.set .PWR_TEMP_THROTTLE 1)
      slowPods s
    else if t < 696 ∧ s.on .PWR_TEMP_THROTTLE then raisePods s
    else s

/-! ## Ageing and the refresh pass -/

/-- One island needs `n` steps (R596, R597): each raise is a kind-12 entry and a CE; past 25 a UE, and a pod is slowed. DESIGN CHOICE, log entry 19. DESIGN CHOICE, log entry 64. -/
def ageIsland (s : State) (q : Nat × Nat) : State :=
  let d := q.1
  let n := q.2
  let have_ := kvGet s.mod_.age d 0
  let goal := min 25 n
  let raise := fun (s : State) (i : Nat) => raiseCe 51 0 0 0 0 (logRecord 0x20210 (have_ + i) (have_ + i + 1) s)
  let s := (List.range (goal - have_)).foldl raise s
  let s := s.withMod (fun m => { m with age := kvSet m.age d (max have_ goal) })
  let s := s.set .PWR_AGE_STEPS (max (s.get .PWR_AGE_STEPS) goal)
  if n ≤ 25 then s
  else
    let s := if s.bitB .PWR_AGE_EXHAUSTED 0 d then s else raiseUe 51 1 0 0 0 0 (s.setBitB .PWR_AGE_EXHAUSTED 0 d true)
    if d < 2 ∨ 17 < d then s
    else
      let f := min (kvGet s.mod_.fmax d 32) (max 8 (32 - (n - 25) / 4))
      let s := s.withMod (fun m => { m with fmax := kvSet m.fmax d f })
      s.set .PWR_AGE_FMAX (min (s.get .PWR_AGE_FMAX) f)

/-- The frequencies in force follow a lowered limit. -/
def capPods (s : State) : State :=
  (List.range 16).foldl (fun s p => s.setB .PWR_POD_MHZ_NOW p (min (s.getB .PWR_POD_MHZ_NOW p) (s.podStep p))) s

/-- AGE_MONITOR_READ (R596, R597, R600): one powered hour more. `needs` gives the steps each island needs. DESIGN CHOICE, log entry 94. -/
def doAgeMonitorRead (needs : List (Nat × Nat)) (s : State) : State :=
  if s.mode = Mode.off then s
  else capPods ((needs.filter (fun q => decide (q.1 < 36))).foldl ageIsland (s.bump .PWR_LIFE_HOURS_COUNT))

/-- REFRESH_PASS_COMPLETE (R599, R600). -/
def doRefreshPassComplete (s : State) : State :=
  if s.on .PWR_REFRESH_RUNNING ∧ (s.mode = Mode.frond ∨ s.mode = Mode.standby) then
    let utc := (s.now + s.get .TIM_EPOCH_OFFSET) / 1000000000
    let s := (s.set .PWR_REFRESH_RUNNING 0).set .PWR_REFRESH_UTC_VALID (s.get .TIM_EPOCH_VALID)
    s.set .PWR_REFRESH_LAST (utc % 2 ^ 32)
  else s

end Sys2Proof.Machine
end

