-- ==== Sys2Proof/Machine/Mgmt.lean ====
section
/-!
DEFINITION. The SPORE page and management over MCTP (R497, R581, R582). The responses of the MCTP control commands follow
DMTF DSP0236 (PRESUMED, log entry 34).
-/

namespace Sys2Proof.Machine

/-- *SPORE page*: bytes 0 to 65, then zeros to 4096 (R497). -/
def State.sporePage (s : State) : List Byte :=
  let version := fun (x : Option RunImage) => match x with
    | some r => r.version
    | none => 0
  let head := leBytes 4 0x50535657 ++ leBytes 2 1 ++ leBytes 1 s.mode ++ leBytes 1 s.node ++
    leBytes 2 (s.get .MOD_CAUSE_CODE) ++ leBytes 1 (s.get .MOD_START_COUNT_COUNT) ++ leBytes 1 0 ++
    leBytes 4 (s.get .CLM_CLAIM_CLAIM) ++ leBytes 8 (s.getB .FUS_SERIAL_ASCII 0) ++ leBytes 8 (s.getB .FUS_SERIAL_ASCII 1)
  let tail := leBytes 8 s.now ++ leBytes 8 (s.get .FLT_STATUS_SRC) ++ leBytes 8 (version s.tub.fw) ++
    leBytes 8 (version s.tub.main) ++ leBytes 2 (s.get .CLM_PAIR_PAIR_ID)
  padTo 4096 (head ++ tail)

/-- The input as the module measures it: voltage, current and power are free (PWR_INPUT). DESIGN CHOICE, log entry 92. -/
def measureInput (s : State) : (Nat × Nat × Nat) × State :=
  let (a, s) := s.draw
  let (b, s) := s.draw
  let (c, s) := s.draw
  ((Config.freeNat a % 2 ^ 16, Config.freeNat b % 2 ^ 16, Config.freeNat c % 2 ^ 32), s)

/-- SAFE_OFF (R582). -/
def State.safeOff (s : State) : Bool :=
  [Mode.spore, Mode.crust, Mode.dormant].contains s.mode || (s.mode == Mode.frond && s.quiet)

/-- The endpoint answers in every mode except OFF, unless it is to be silent (R581, MOD_MCTP). -/
def mctp (act : State → State) (s : State) : State :=
  if s.mode = Mode.off ∨ s.on .MOD_MCTP_DISABLE then s else act s

/-- The answer to an MCTP control command. PRESUMED, log entry 34. -/
def control (cmd code : Nat) (data : List Byte) (s : State) : State :=
  s.emit (.mctp (leBytes 1 0 ++ leBytes 1 0 ++ leBytes 1 cmd ++ leBytes 1 code ++ data))

/-- The answer to a Waithen command (*Waithen message*). -/
def waithen (cmd inst code : Nat) (data : List Byte) (s : State) : State :=
  s.emit (.mctp (leBytes 1 0x7E ++ beBytes 2 0x5756 ++ leBytes 1 cmd ++ leBytes 1 inst ++ leBytes 1 code ++ data))

/-- SET_ENDPOINT_ID (R581). PRESUMED, log entry 34. -/
def doSetEndpointId (op eid : Nat) (s : State) : State :=
  mctp (fun s =>
    if op ≤ 1 ∧ 8 ≤ eid ∧ eid ≤ 254 then
      control 1 0 (leBytes 1 0 ++ leBytes 1 eid ++ leBytes 1 0) (s.set .MOD_MCTP_EID eid)
    else control 1 2 [] s) s

/-- GET_ENDPOINT_ID (R581). PRESUMED, log entry 34. -/
def doGetEndpointId (s : State) : State :=
  mctp (fun s => control 2 0 (leBytes 1 (s.get .MOD_MCTP_EID) ++ leBytes 1 0 ++ leBytes 1 0) s) s

/-- GET_MCTP_VERSION_SUPPORT (R581): version 1.3 for the base and the control protocol. PRESUMED, log entry 34. -/
def doGetMctpVersionSupport (msgType : Nat) (s : State) : State :=
  mctp (fun s =>
    if msgType = 0xFF ∨ msgType = 0 then control 4 0 (leBytes 1 1 ++ beBytes 4 0xF1F3F000) s
    else control 4 0x80 [] s) s

/-- GET_MESSAGE_TYPE_SUPPORT (R581): types 0x00 and 0x7E. PRESUMED, log entry 34. -/
def doGetMessageTypeSupport (s : State) : State :=
  mctp (control 5 0 (leBytes 1 2 ++ leBytes 1 0 ++ leBytes 1 0x7E)) s

/-- GET_VENDOR_DEFINED_MESSAGE_SUPPORT (R581): one set, of PCI vendor 0x5756; its command-set word is free. PRESUMED, log entry 34. -/
def doGetVendorDefinedMessageSupport (selector : Nat) (s : State) : State :=
  mctp (fun s =>
    if selector = 0 then
      let (n, s) := s.draw
      control 6 0 (leBytes 1 0xFF ++ leBytes 1 0 ++ beBytes 2 0x5756 ++ beBytes 2 (Config.freeNat n)) s
    else control 6 2 [] s) s

/-- GET_STATUS (R582). DESIGN CHOICE, log entry 91. -/
def doGetStatus (inst : Nat) (data : List Byte) (s : State) : State :=
  mctp (fun s =>
    if data ≠ [] then waithen 1 inst 3 [] s
    else
      let (m, s) := measureInput s
      let flags := b2n s.safeOff + 2 * b2n s.logFull + 4 * s.get .CLM_PAIR_PAIRED + 8 * s.get .CLM_STATUS_HB_LOST
      let cause := s.get .MOD_CAUSE_CODE + s.get .MOD_CAUSE_ORIGIN * 65536
      waithen 1 inst 0
        (leBytes 1 s.mode ++ leBytes 1 (s.get .MOD_STATE_PENDING) ++ leBytes 4 cause ++
          leBytes 1 (s.get .MOD_START_COUNT_COUNT) ++ leBytes 1 flags ++ leBytes 8 (s.get .FLT_STATUS_SRC) ++
          leBytes 4 m.2.2) s) s

/-- GET_SENSORS (R582). DESIGN CHOICE, log entry 91. -/
def doGetSensors (inst : Nat) (data : List Byte) (s : State) : State :=
  mctp (fun s =>
    if data ≠ [] then waithen 2 inst 3 [] s
    else
      let (m, s) := measureInput s
      waithen 2 inst 0
        (leBytes 2 m.1 ++ leBytes 2 m.2.1 ++ leBytes 2 (s.get .PWR_TEMP_TJ_MAX) ++ leBytes 2 (s.get .PWR_TEMP_LID) ++
          leBytes 1 (s.get .PWR_AGE_STEPS)) s) s

/-- Whether a requested mode may be asked for now (R558, R578, R579). -/
def State.mayRequest (s : State) (target : Nat) : Bool :=
  !s.on .MOD_CMD_BUSY &&
  (if target = 1 then s.mode == Mode.frond && s.mayDormant
   else if target = 2 then s.mode == Mode.dormant
   else s.mayRestart false)

/-- The effect of a requested mode: that of MOD_CMD with origin 7; a wake's cause is 3. DESIGN CHOICE, log entry 66. -/
def requestedMode (target : Nat) (s : State) : State :=
  if target = 1 then doModDormant .smbus 2 s
  else if target = 2 then modCommand .smbus 3 [(s.mode != Mode.dormant, 1)] (beginWake 3 (originCode .smbus)) s
  else doModRestart .smbus 1 false false s

/-- REQUEST_MODE (R582): the code says whether the request was accepted. DESIGN CHOICE, log entry 66. DESIGN CHOICE, log entry 91. -/
def doRequestMode (inst : Nat) (data : List Byte) (s : State) : State :=
  mctp (fun s =>
    let t := fieldAt data 0 1
    if data.length ≠ 1 then waithen 3 inst 3 [] s
    else if t = 0 ∨ 3 < t then waithen 3 inst 2 [] s
    else
      let code := if !s.mayRequest t then 4 else if !s.logTakes .smbus then 0x80 else 0
      requestedMode t (waithen 3 inst code [] s)) s

/-- GET_SPORE (R582). DESIGN CHOICE, log entry 91. -/
def doGetSpore (inst : Nat) (data : List Byte) (s : State) : State :=
  mctp (fun s =>
    let off := fieldAt data 0 2
    let n := fieldAt data 2 1
    if data.length ≠ 3 then waithen 4 inst 3 [] s
    else if n = 0 ∨ 64 < n ∨ 4096 < off + n then waithen 4 inst 2 [] s
    else waithen 4 inst 0 (bytesAt s.sporePage off n) s) s

end Sys2Proof.Machine
end

