-- ==== Sys2Proof/Machine/Faults.lean ====
section
/-!
DEFINITION. The reactions of the fault collector, its commands, and `settle`: what follows a command by itself (R409, R444
to R458, R518, R549, R559, R560, R578, R604).
-/

namespace Sys2Proof.Machine

/-! ## Level-2 restarts -/

/-- Subchannels whose program `f` picks. -/
def State.subsWhere (s : State) (f : Prog → Bool) : List Nat :=
  (s.css.subs.filter (fun q => match q.2.prog with
    | some p => f p
    | none => false)).map (·.1)

/-- The open stripes of affected programs are discarded and fetched again (*Outcomes by interruption*). DESIGN CHOICE, log entry 68. -/
def redoAll (ks : List Nat) (s : State) : State := ks.foldl (fun s k => redoStripe k s) s

/-- Whether a program has a chunk in a place. -/
def Prog.chunkAt (p : Prog) (f : ChunkAt → Bool) : Bool := p.chunks.any (fun c => f c.place)

/-- The host port's queues are reset and outstanding DMA is issued again (*Level-2 restarts*). DESIGN CHOICE, log entry 68. -/
def hostRestart (s : State) : State :=
  s.css.subs.foldl (fun s q => match q.2.prog with
    | some p => p.reads.foldl (fun s r => if r.dev || isExec q.1 then s else s.emit (.hostRead q.2.fn r.addr r.len)) s
    | none => s) s

/-- A restart of one region begins (*Level-2 restarts*). DESIGN CHOICE, log entry 68. -/
def restartRegion (e : FaultIn) (r : Region) (s : State) : State :=
  let run := fun (s : State) => { s with flt := { s.flt with restarting := s.flt.restarting ++ [r] } }
  match r with
  | .coreDomain =>
    if !s.coreUp then s
    else
      let s := callsToWaitCore (freezeCoreDomain (run s))
      { s with flt := { s.flt with coreEvent := some e } }
  | .code =>
    let s := (run s).set .ENG_ONLINE_CODE_RST 1
    redoAll (s.subsWhere (fun p => p.lane.isSome)) (s.withEng (fun g => { g with nextLoc := g.locLimit }))
  | .pack0 =>
    let s := (run s).set .ENG_ONLINE_PACK0_RST 1
    redoAll (s.subsWhere (fun p => p.chunkAt (fun c => match c with
      | .packing n => decide (n < 4)
      | _ => false))) s
  | .pack1 =>
    let s := (run s).set .ENG_ONLINE_PACK1_RST 1
    redoAll (s.subsWhere (fun p => p.chunkAt (fun c => match c with
      | .packing n => decide (4 ≤ n)
      | _ => false))) s
  | .sealGroup =>
    let s := (run s).withEng (fun g => { g with slots := [], invoke := g.invokeLimit })
    redoAll (s.subsWhere (fun p => p.chunkAt (fun c => c == .packed))) s
  | .mediaA => mediaDown 0 (run s)
  | .mediaB => mediaDown 1 (run s)
  | .host => hostRestart (run s)
  | .ringW => newSession (wrapAt 0 (setLock 0 false (run s)))
  | .ringE => newSession (wrapAt 1 (setLock 1 false (run s)))
  | .tuber => soloRestart (if s.on .TMB_STATUS_RUNNING then run s else s)
  | .memory | .aon | .css => s

/-- A region that restarts goes on. DESIGN CHOICE, log entry 68. -/
def State.endRestart (s : State) (r : Region) : State :=
  { s with flt := { s.flt with restarting := s.flt.restarting.filter (· != r) } }

/-- PACK engines taken offline return at the restart of their domain (R442). DESIGN CHOICE, log entry 68. -/
def packBack (first : Nat) (s : State) : State :=
  [0, 1, 2, 3].foldl (fun s n => s.setBitB .ENG_ONLINE_PACK 0 (first + n) true) s

/-- REGION_RESTART_COMPLETE (R442, R448). The core domain and Tuber end by rows of their own. -/
def doRegionRestartComplete (r : Region) (s : State) : State :=
  if !s.flt.restarting.contains r ∨ r = .coreDomain ∨ r = .tuber then s
  else
    let s := s.endRestart r
    match r with
    | .code => ((s.set .ENG_ONLINE_CODE_RST 0).set .ENG_ONLINE_CHUNK 0xFF).set .ENG_ONLINE_PROBE 0x3FF
    | .pack0 => packBack 0 (s.set .ENG_ONLINE_PACK0_RST 0)
    | .pack1 => packBack 4 (s.set .ENG_ONLINE_PACK1_RST 0)
    | _ => s

/-! ## Checkstop -/

/-- A checkstop (R308, R449 to R451, R572, *Transitions*): CRUST, or SPORE with the failure counted; CRUST itself is left
only as R576 says. The status and capture are kept until the next start has begun (R458). DESIGN CHOICE, log entry 65. -/
def checkstop (e : FaultIn) (s : State) : State :=
  if e.source = 48 then (losePower s).withMod (fun m => { m with supplyLost := true })
  else
    let s := if s.ring.bypass then s else goBypass s
    let s := { s with flt := { s.flt with clearAtStart := true } }
    if s.on .FLT_CTL_L3_ACTION ∨ s.mode = Mode.crust then enterCrust (stopCause e) s else failStart (stopCause e) s

/-- A rail of PD20 to PD25 out of range at level 2 (R604). DESIGN CHOICE, log entry 67. -/
def memRailDown (k : Nat) (s : State) : State :=
  let s := markStripe 0 k s
  (s.setBitB .PWR_STATE_ON 0 (20 + k) false).setBitB .PWR_CLKSTOP_STOPPED 0 (20 + k) false

/-- Carries out one reaction of level 2 or 3. DESIGN CHOICE, log entry 10. -/
def react (r : Reaction) (s : State) : State :=
  if s.mode = Mode.off then s
  else if 3 ≤ r.level then checkstop r.ev s
  else if memRail r.ev then memRailDown (r.ev.rail.getD 20 - 20) s
  else
    ((sourceRegions r.ev.source r.ev.rail).filter (fun g => !s.flt.restarting.contains g)).foldl
      (fun s g => restartRegion r.ev g s) s

/-- Carries out the reactions that wait, oldest first; a reaction may raise further events. DESIGN CHOICE, log entry 10. -/
def reactAll : Nat → State → State
  | 0, s => s
  | n + 1, s =>
    match s.flt.todo with
    | [] => s
    | r :: t => reactAll n (react r { s with flt := { s.flt with todo := t } })

/-- CORE_DOMAIN_RESTART (R409 steps 3 and 4): code region 0 is compared with its measurement; a difference takes the event
to level 3. DESIGN CHOICE, log entry 67. -/
def doCoreDomainRestart (regionOk : Bool) (s : State) : State :=
  if !s.coh.restarting then s
  else
    let e := s.flt.coreEvent.getD { source := 24, ue := true, base := 2 }
    let s := { s with flt := { s.flt with coreEvent := none } }
    if regionOk then thawCoreDomain (s.endRestart .coreDomain)
    else
      let s := logHw 10 e.source 0 3 (if s.fltUnacked e.source then s.setPlevel e.source 3 else s)
      { s with flt := { s.flt with todo := s.flt.todo ++ [⟨e, 3⟩] } }

/-! ## Commands of the collector -/

/-- The base levels *Error sources* lists for UE events of a source, the lowest first. DESIGN CHOICE, log entry 67. -/
def ueLevels (n : Nat) : List Nat :=
  if n < 24 then [1, 2]
  else match n with
    | 25 | 26 | 27 | 55 => [1, 3]
    | 30 | 31 | 39 | 40 => [1, 2]
    | 24 | 28 | 29 | 33 | 36 | 37 | 38 | 41 => [2]
    | 49 => [2, 3]
    | 42 | 47 | 48 | 50 => [3]
    | _ => [1]

/-- The base level of an event on an error pin: one that its row lists; a RAIL event has 3 for PD0, else 2. DESIGN CHOICE, log entry 67. -/
def pinBase (e : FaultIn) : Nat :=
  if e.source = 49 then (if e.rail.getD 0 = 0 then 3 else 2)
  else if (ueLevels e.source).contains e.base then e.base
  else (ueLevels e.source).headD 1

/-- FAULT_EVENT (R440, R446, R452): an error pin reports; in a SPLIT pod the collector then restarts the pod (R431). -/
def doFaultEvent (e : FaultIn) (s : State) : State :=
  if s.mode = Mode.off then s
  else
    let e := { e with injected := false, noReact := false, base := pinBase e }
    let s := noteFault e s
    match s.logicalOf e.source with
    | some p =>
      if e.source < 16 ∧ e.ue ∧ e.base = 1 ∧ s.getB .POD_MODE_MODE p = 1 ∧ s.coreUp then collectorRestart p s else s
    | none => s

/-- FLT_ACK (R445); with nothing unacknowledged the firmware interrupt is withdrawn. -/
def doFltAck (o : Origin) (mask : Nat) (s : State) : State :=
  reach o .FLT_ACK (fun s =>
    let s := ((List.range 56).filter (fun n => mask.testBit n && s.fltUnacked n)).foldl
      (fun s n => (s.setBitB .FLT_STATUS_SRC 0 n false).setPlevel n 0) s
    if s.get .FLT_STATUS_SRC = 0 then
      unpendInt (s.get .FLT_CTL_IRQ_POD * 2) 2 { s with flt := { s.flt with irqHeld := false } }
    else s) s

/-- FLT_CAPTURE_REARM (R452). -/
def doFltCaptureRearm (o : Origin) (s : State) : State :=
  reach o .FLT_FIRST_TYPE (fun s => s.set .FLT_FIRST_TYPE_VALID 0) s

/-- What a write of FLT_INJECT stores. DESIGN CHOICE, log entry 84. -/
def setInject (v : Nat) (s : State) : State :=
  ((s.set .FLT_INJECT_SOURCE (v % 64)).set .FLT_INJECT_UE (v / 64 % 2)).set .FLT_INJECT_NOREACT (v / 128 % 2)

/-- FLT_INJECT (R10, R455, R601): an RWL register, so each write is entered once under R8; GO then drives the pin. -/
def doFltInject (o : Origin) (v : Nat) (s : State) : State :=
  let n := v % 64
  let e : FaultIn :=
    { source := n, ue := v / 64 % 2 == 1, base := (ueLevels n).headD 1, origin := originCode o,
      detail := detailOf n ((ueLevels n).headD 1) (v / 64 % 2 == 1), injected := true, noReact := v / 128 % 2 == 1 }
  reach o .FLT_INJECT (fun s =>
    logged o 1 (regBase .FLT_INJECT) (s.regRaw .FLT_INJECT 0) ((setInject v s).regRaw .FLT_INJECT 0)
      (fun s => s.set .FLT_INJECT_RESULT 3)
      (fun s =>
        let s := setInject v s
        if v / 256 % 2 = 0 then s
        else if s.mode ≠ Mode.maintenance then s.set .FLT_INJECT_RESULT 1
        else if 55 < n then s.set .FLT_INJECT_RESULT 2
        else noteFault e (s.set .FLT_INJECT_RESULT 0)) s) s

/-- COLLECTOR_HEARTBEAT_MISS (R454): the copy is taken out; with one left a further event is at level 3. -/
def doCollectorHeartbeatMiss (copyB : Bool) (s : State) : State :=
  if s.mode = Mode.off then s
  else match s.get .FLT_CTL_COLL with
    | 0 => raiseUe 55 1 0 0 0 0 (s.set .FLT_CTL_COLL (if copyB then 1 else 2))
    | 1 => if copyB then s else raiseUe 55 3 0 0 0 0 s
    | _ => if copyB then raiseUe 55 3 0 0 0 0 s else s

/-! ## What follows by itself -/

/-- An outclaimed member restarts from SPORE (R518). DESIGN CHOICE, log entry 19. -/
def outclaimEnd (s : State) : State :=
  if s.get .CLM_STATUS_ROLE = 3 ∧ (s.mode = Mode.frond ∨ s.mode = Mode.maintenance) then
    let s := logHw 12 0x480000 (s.get .CLM_CLAIM_CLAIM) (s.get .CLM_PEER_CLAIM_CLAIM) s
    enterSpore 0x1100 0 false false (pairEvent .CLM_EVENT_OUTCLAIMED s)
  else s

/-- A REMOTE message wakes a DORMANT node (R484, R579). -/
def ringWake (s : State) : State := if s.ring.dormantHeld.isEmpty then s else beginWake 2 0 s

/-- Tuber's holds (*Power against Tuber-held domains*). -/
def syncHold (s : State) : State :=
  let s := s.setBitB .PWR_HOLD_HELD 0 1 true
  let s := s.setBitB .PWR_HOLD_HELD 0 28 (!s.eng.slots.isEmpty)
  s.setBitB .PWR_HOLD_HELD 0 29 (s.pdOn 29 && s.eng.doms.any (fun q => !s.eng.probeOut.contains q.1) && !s.going 29)

/-- The level of an interrupt source of the shared units: mailbox reply, CALL-CORE arrival, stripe-directory request, media
event (*Interrupt sources*). DESIGN CHOICE, log entry 43. -/
def State.irqLevel (s : State) (src : Nat) : Bool :=
  match src with
  | 3 => s.get .TMB_RSP_CTL_PROD != s.get .TMB_RSP_CTL_CONS
  | 4 => s.get .CSS_CALL_CTL_PROD != s.get .CSS_CALL_CTL_CONS
  | 5 => s.get .ENG_DREQ_CTL_HEAD != s.get .ENG_DREQ_CTL_TAIL
  | _ => s.get .MPT_EVQ_CTL_HEAD != s.get .MPT_EVQ_CTL_TAIL

/-- The shared level sources on one core. DESIGN CHOICE, log entry 43. -/
def syncCore (s : State) (k : Nat) : State :=
  [3, 4, 5, 6].foldl (fun s src =>
    let now := s.bitB .POD_INT_PEND_LEVEL k (src - 2)
    let want := s.irqLevel src
    if now == want then s else if want then pendInt k src s else unpendInt k src s) s

/-- What follows a command by itself: reactions, mode changes that were waited for, media commands and memory requests that
can go, the conditions of an energy window, Tuber's holds and the interrupt levels. DESIGN CHOICE, log entry 10. -/
def settle (s : State) : State :=
  let s := outclaimEnd (reactAll 64 s)
  let s := yieldLook (drainEnd (dormantEnd (startEnd (ringWake s))))
  let s := reactAll 64 (mirrorContexts (pumpMedia s))
  let s := syncHold (epbWatch (pumpMemory s))
  (kvKeys s.cores).foldl syncCore s

/-- A command that completes. DESIGN CHOICE, log entry 5. DESIGN CHOICE, log entry 10. -/
abbrev settled (s : State) : Host.Outcome State Fault Refusal := .next (settle s)

end Sys2Proof.Machine
end

