-- ==== Sys2Proof/Machine/RegView.lean ====
section
/-!
DEFINITION. Registers as they read: fields the device computes at the read, values the spec leaves open, the pages of a
function, and LOW_HALF_READ (R8, R11 to R13, R493 to R497).
-/

namespace Sys2Proof.Machine

/-- The subchannel CSS_SCH_QUERY reports; one never handed out is UNASSIGNED. -/
def State.queried (s : State) : Option Sub := kvGet? s.css.subs (s.get .CSS_SCH_QUERY_SCH)

/-- A queue holds size − 1 words (FN_CQ_CFG). -/
def State.cqIsFull (s : State) (q : Nat) : Bool :=
  let n := s.cqSize q
  (s.getB .FN_CQ_HEAD_TAIL q + n - s.getB .FN_CQ_HEAD_HEAD q % n) % n + 1 == n

/-- VFM_FSTAT.STATE: 0 not created, 1 ready, 2 resetting. -/
def State.fnState (s : State) (fn : Nat) : Nat :=
  if !(s.fnOf fn).created then 0 else if kvHas s.css.resets fn then 2 else 1

/-- Engines count as online while their domain is on. -/
def State.online (s : State) (d mask v : Nat) : Nat := if s.pdOn d then v else v - v % (mask + 1)

/-- A word that waits for its queue and repeats one of before a restart (CSS_STATUS.RECOVERING). -/
def State.recovering (s : State) : Bool := s.css.posts.any (fun q => q.2.any (fun p => p.w.flags.testBit 1))

/-- Copy `i` of a field as it reads. A field whose value the spec leaves to the part or its surroundings is free. DEDUCED, log entry 89. -/
def State.view (s : State) (f : Fld) (i : Nat) : Nat :=
  match f with
  | .CSS_STATUS_RECOVERING => b2n s.recovering
  | .CSS_STATUS_JNL_LOW => b2n (decide (s.jnlFree < startReserve))
  | .CSS_SCH_QUERY_STATE => ((s.queried).map (fun b => b.st.code)).getD 0
  | .CSS_SCH_QUERY_FUNCTION => ((s.queried).map (·.fn)).getD 0
  | .CSS_SCH_QUERY_REMOTE => ((s.queried).map (fun b => b2n b.remote)).getD 0
  | .CSS_SCH_QUERY_NODE => ((s.queried).map (·.node)).getD 0
  | .CSS_SCH_QUERY_SEQ_LOW => ((s.queried).map (·.seq)).getD 0 % 2 ^ 32
  | .ENG_CUS_STATUS_NO_TARGET => b2n s.regions.isEmpty
  | .ENG_CUS_STATUS_STALLED => b2n s.cusStalled
  | .ENG_DLOG_CTL_FULL => b2n s.dlogFull
  | .ENG_EPB_RESULT_PJB => s.epbResult
  | .ENG_ONLINE_CHUNK => s.online 29 0xFF (s.get .ENG_ONLINE_CHUNK)
  | .ENG_ONLINE_PROBE => s.online 29 0x3FF (s.get .ENG_ONLINE_PROBE)
  | .ENG_ONLINE_PACK => s.online 26 0xF (if s.pdOn 27 then s.get .ENG_ONLINE_PACK else s.get .ENG_ONLINE_PACK % 16)
  | .MPT_GATE_OPEN => b2n s.gateOpen
  | .MPT_GATE_CAUSE => s.gateCause
  | .MPT_INJ_ARM_ACTIVE => b2n s.mptInjects
  | .RNG_INJ_ARM_ACTIVE => b2n s.injecting
  | .RNG_FEC_CORR_COUNT | .RNG_FEC_UNCORR_COUNT | .FUS_MAJORITY_COUNT => Config.freeNat s.free % 2 ^ 64
  | .PWR_INPUT_MV => Config.freeNat s.free % 2 ^ 16
  | .PWR_INPUT_MA => Config.freeNat (s.free + 1) % 2 ^ 16
  | .PWR_INPUT_MW => Config.freeNat (s.free + 2) % 2 ^ 32
  | .PWR_REFRESH_PERCENT => if s.on .PWR_REFRESH_RUNNING then Config.freeNat s.free % 101 else 0
  | .VFM_FSTAT_STATE => s.fnState i
  | .VFM_FSTAT_PAUSED => b2n (s.fnOf i).paused
  | .VFM_FSTAT_ACTIVE => ((s.subsOf i).filter (fun q => q.2.st != .idle)).length
  | .VFM_MBX_PEND_FULL => maskOf ((List.range 64).filter (fun n => s.onB .VFM_MBX_CTL_FULL (n + 1)))
  | .FN_CQ_CFG_FULL => b2n (s.cqIsFull i)
  | .FN_STATE_STATE => s.fnState i
  | .FN_STATE_PAUSED => b2n (s.fnOf i).paused
  | .FN_STATE_DEVICE_READY => b2n (s.mode == Mode.frond)
  | .FN_STATE_NCQ => s.ncqOf i
  | .FN_STATE_GEN => s.gen i
  | .FN_STATE_SUBCHANNELS => (s.subsOf i).length
  | .FN_WIN_WIN => if (s.fnOf i).winUnits = 0 then 0 else (s.fnOf i).winBase + (s.fnOf i).winUnits
  | .LOG_STATUS_FULL => b2n s.logFull
  | .LOG_STATUS_RESERVE => b2n (decide (logCapacity - 65536 < s.logUnexported))
  | f => s.getB f i

/-- Whether a register of the debug block reads 0: every one but DBG_ID once DEBUG_KILL was blown (R556). -/
def State.dbgDead (s : State) (r : Reg) : Bool := r.info.base / 0x10000 == 0x60 && r.info.base != 0x600000 && s.dbgKilled

/-- Copy `i` of a register as it reads; write-only fields read 0 (R8). DESIGN CHOICE, log entry 3. -/
def State.regValue (s : State) (r : Reg) (i : Nat) : Nat :=
  if s.dbgDead r then 0
  else r.fields.foldl (fun a f => if f.info.acc = .wo then a else a + s.view f i % 2 ^ f.width * 2 ^ f.info.lo) 0

/-- Whether the selection a banked register needs names nothing: ENG_DOM_SEL 0, a VFM_SEL above 64. -/
def State.selectsNone (s : State) (r : Reg) : Bool :=
  match r.info.bank with
  | .dom => s.get .ENG_DOM_SEL_DOMAIN == 0
  | .fnSel => decide (64 < s.get .VFM_SEL_FUNCTION)
  | .src => decide (55 < s.get .FLT_CNT_SEL_SOURCE)
  | _ => false

/-- The value of an access of `n` bytes at an I/O address, by core `core` of pod `pod` where that matters. An access of 8
bytes to a 32-bit register takes the register after it too; an unused offset reads 0 (R12). DESIGN CHOICE, log entry 14. -/
def State.ioValue (s : State) (a n pod core : Nat) : Nat :=
  let part := fun (a : Nat) => match locate a with
    | none => 0
    | some l => if s.selectsNone l.reg then 0 else s.regValue l.reg (s.bankOf l pod core) / 2 ^ (8 * l.byte)
  let low := part a
  if n = 4 then low % 2 ^ 32
  else match locate a with
    | some l => if 64 ≤ l.reg.info.width then low % 2 ^ 64 else low % 2 ^ 32 + part (a + 4) % 2 ^ 32 * 2 ^ 32
    | none => part (a + 4) % 2 ^ 32 * 2 ^ 32

/-- A read uses up the free values it may have taken. -/
def usedFree (s : State) : State := { s with free := s.free + 3 }

/-! ## The pages of a function -/

/-- Where an offset of the queue, mailbox and status pages of a function points; the offset is that of a VF's BAR0. -/
def fnLocate (fn off : Nat) : Option RegLoc :=
  if off / 0x1000 = 0 then none else (findReg Reg.listFN off).map (fun l => { l with slot := fn })

/-- The function and page offset a BAR0 offset names: the PF's pages lie at 0x0100_0000 (*BAR0 layouts*). -/
def fnOffset (o : Origin) (a : Nat) : Option (Nat × Nat) :=
  match o with
  | .pf => if 0x1000000 ≤ a ∧ a < 0x1004000 ∧ (a / 0x1000) % 4 ≠ 2 then some (0, a - 0x1000000) else none
  | .vf n => if a < 0x4000 ∧ n ≠ 0 ∧ n ≤ 64 then some (n, a) else none
  | _ => none

/-- Whether the queue a page offset names exists on the function. -/
def State.queueThere (s : State) (fn off : Nat) : Bool :=
  off / 0x1000 != 1 || decide ((off - 0x1000) / 0x40 < s.ncqOf fn)

/-- The value of 4 bytes on a function's pages. -/
def State.fnValue (s : State) (fn off : Nat) : Nat :=
  if 0x2100 ≤ off ∧ off < 0x2200 then fieldAt (padTo 256 (kvGet s.hst.vfIn fn [])) (off - 0x2100) 4
  else if 0x2000 ≤ off ∧ off < 0x2100 then fieldAt (padTo 256 (kvGet s.hst.vfOut fn [])) (off - 0x2000) 4
  else if !s.queueThere fn off then 0
  else match fnLocate fn off with
    | some l => s.regValue l.reg (s.bankOf l 0 0) / 2 ^ (8 * l.byte) % 2 ^ 32
    | none => 0

/-! ## LOW_HALF_READ -/

/-- What 4 bytes at a PF or VF BAR0 offset read, the latch left out. -/
def hostValue (o : Origin) (a : Nat) (s : State) : Nat × State :=
  match fnOffset o a with
  | some (fn, off) =>
    if !(s.fnOf fn).created then (0, s)
    else if !s.pdOn 30 then (0xFFFFFFFF, darkRead s)
    else (s.fnValue fn off, usedFree s)
  | none =>
    if o ≠ .pf then (0, s)
    else if 0x1F00000 ≤ a ∧ a < 0x1F01000 then (fieldAt s.sporePage (a - 0x1F00000) 4, s)
    else if !hostSees a then (0, s)
    else if s.blockDark a then (0xFFFFFFFF, darkRead s)
    else (s.ioValue a 4 0 0, usedFree s)

/-- Whether a read of `a` latches a high half: a 64-bit register's low half, through the PF BAR0. -/
def latchOf (o : Origin) (a : Nat) : Bool :=
  o == Origin.pf && match (match fnOffset o a with
    | some (fn, off) => fnLocate fn off
    | none => locate a) with
  | some l => l.byte == 0 && l.reg.info.width == 64
  | none => false

/-- LOW_HALF_READ (R11): the high half is latched at the read; the same requester's next read of the high half takes it. DESIGN CHOICE, log entry 14. -/
def doLowHalfRead (o : Origin) (a : Nat) (s : State) : State :=
  let host := match o with
    | .pf | .vf _ => true
    | _ => false
  if !host ∨ s.mode = Mode.off ∨ a % 4 ≠ 0 then s
  else match s.hst.latch with
    | some (by_, at_, v) =>
      if by_ = originCode o ∧ at_ + 4 = a then (dropLatch s).emit (.completion (some v))
      else
        let (lo, t) := hostValue o a (dropLatch s)
        let (hi, _) := hostValue o (a + 4) (dropLatch s)
        let t := if latchOf o a then { t with hst := { t.hst with latch := some (originCode o, a, hi) } } else t
        t.emit (.completion (some lo))
    | none =>
      let (lo, t) := hostValue o a s
      let (hi, _) := hostValue o (a + 4) s
      let t := if latchOf o a then { t with hst := { t.hst with latch := some (originCode o, a, hi) } } else t
      t.emit (.completion (some lo))

end Sys2Proof.Machine
end

