-- ==== Sys2Proof/Machine/IoWrite.lean ====
section
/-!
DEFINITION. A write to a device register, from a core, a host or the debug port: access codes, the rules registers have of
their own, and the commands a write starts (R8 to R14, R325, R334, R493 to R496, R512, R517, R601, R602).
-/

namespace Sys2Proof.Machine

/-- A write as it meets a register: its copy, the I/O address of the copy, the register's value with the bytes written
replaced, and the bits written alone. -/
structure RegWrite where
  reg : Reg
  bank : Nat
  addr : Nat
  value : Nat
  act : Nat
  mask : Nat

/-- A field of the value a write leaves. -/
def RegWrite.fld (w : RegWrite) (f : Fld) : Nat := bits w.value f.info.hi f.info.lo

/-- A field as written; 0 where its bytes are not. -/
def RegWrite.put (w : RegWrite) (f : Fld) : Nat := bits w.act f.info.hi f.info.lo

/-- Whether the bytes of a field are written. -/
def RegWrite.hits (w : RegWrite) (f : Fld) : Bool := bits w.mask f.info.hi f.info.lo != 0

/-- A field after a write, by its access code (R8). -/
def RegWrite.store (w : RegWrite) (s : State) (f : Fld) : State :=
  match f.info.acc with
  | .rw | .rwl => s.setB f w.bank (w.fld f)
  | .w1c => s.setB f w.bank (andNot (s.getB f w.bank) (w.put f))
  | .w1s => s.setB f w.bank (s.getB f w.bank ||| w.put f)
  | _ => s

/-- A register's fields after a write. -/
def RegWrite.storeAll (w : RegWrite) (s : State) : State := w.reg.fields.foldl w.store s

/-- Whether a write is logged (R8, R10): its bytes reach an RWL field, whatever they hold. -/
def RegWrite.isLogged (w : RegWrite) : Bool := w.reg.fields.any (fun f => f.info.acc == .rwl && w.hits f)

/-- A plain write: the entry first where it is logged, then the fields and `after`. -/
def RegWrite.plain (w : RegWrite) (o : Origin) (after : State → State) (s : State) : State :=
  if w.isLogged then
    logged o 1 w.addr (s.regRaw w.reg w.bank) ((w.storeAll s).regRaw w.reg w.bank) id (fun s => after (w.storeAll s)) s
  else after (w.storeAll s)

/-- Does `act` for a bit written as 1. -/
def RegWrite.bit (w : RegWrite) (f : Fld) (act : State → State) (s : State) : State := if w.put f = 1 then act s else s

/-! ## Registers with rules of their own -/

/-- MOD_CMD by its OP (R558). DESIGN CHOICE, log entry 16. -/
def modCmdWrite (o : Origin) (v : Nat) (s : State) : State :=
  match v % 8 with
  | 1 => doModRestart o v (v.testBit 3) (v.testBit 4) s
  | 2 => doModDormant o v s
  | 3 => doModWake o v s
  | 4 => doModMaintenance o v s
  | 5 =>
    let (n, s) := s.draw
    let free := Config.freeNat n
    let d : HostRead := if free.testBit 0 then .ok (Config.randomBytes n (s.get .MOD_INSTALL_LEN_VALUE)) else .failed
    doModInstall o v { data := d, readBackOk := free.testBit 1 } s
  | _ => s

/-- ENG_EPB_CTL: START acts before STOP, and CAL last, when one write sets several. DESIGN CHOICE, log entry 16. DESIGN CHOICE, log entry 58. -/
def epbCtlWrite (o : Origin) (w : RegWrite) (s : State) : State :=
  let s := w.bit .ENG_EPB_CTL_START (doEpbStart o) s
  let s := w.bit .ENG_EPB_CTL_STOP (fun s => let (n, s) := s.draw; doEpbStop o (Config.freeNat n % 2 ^ 64) s) s
  w.bit .ENG_EPB_CTL_CAL (doEpbCal o) s

/-- CSS_CALL_CTL (R96): writes of the host are ignored; LOG2 is fixed while ENABLE is 1. -/
def callCtlWrite (o : Origin) (w : RegWrite) (s : State) : State :=
  if !isFw o then s
  else
    let s := if s.on .CSS_CALL_CTL_ENABLE then s else s.set .CSS_CALL_CTL_LOG2 (w.fld .CSS_CALL_CTL_LOG2)
    (s.set .CSS_CALL_CTL_ENABLE (w.fld .CSS_CALL_CTL_ENABLE)).set .CSS_CALL_CTL_CONS (w.fld .CSS_CALL_CTL_CONS)

/-- ENG_IDX_CTL: ENABLE cannot be set with UNITS outside 1 to 1280. -/
def idxCtlWrite (o : Origin) (w : RegWrite) (s : State) : State :=
  let n := s.get .ENG_IDX_BUCKETS_UNITS
  let ok := w.fld .ENG_IDX_CTL_ENABLE == 0 || (decide (1 ≤ n) && decide (n ≤ 1280))
  if ok then w.plain o id s else s

/-- ENG_POOL_CTL: ENABLE cannot be set while UNITS is 0; the pool then stands free but for what is granted. -/
def poolCtlWrite (o : Origin) (w : RegWrite) (s : State) : State :=
  if w.fld .ENG_POOL_CTL_ENABLE = 1 ∧ s.get .ENG_POOL_SIZE_UNITS = 0 then s
  else
    let used := s.css.bufs.foldl (fun a b => a + b.2.1) 0
    w.plain o (fun s => s.set .ENG_POOL_CTL_FREE (if s.on .ENG_POOL_CTL_ENABLE then s.poolGranules - used else 0)) s

/-- ENG_DIR_CTL: the sizes are fixed while ENABLE is 1. -/
def dirCtlWrite (o : Origin) (w : RegWrite) (s : State) : State :=
  let a := s.get .ENG_DIR_CTL_CHUNK_UNITS
  let b := s.get .ENG_DIR_CTL_STRIPE_UNITS
  if s.on .ENG_DIR_CTL_ENABLE then
    w.plain o (fun s => (s.set .ENG_DIR_CTL_CHUNK_UNITS a).set .ENG_DIR_CTL_STRIPE_UNITS b) s
  else w.plain o id s

/-- ENG_DREQ_CTL (R217). -/
def dreqCtlWrite (o : Origin) (w : RegWrite) (s : State) : State :=
  let s := s.set .ENG_DREQ_CTL_LOG2 (w.fld .ENG_DREQ_CTL_LOG2)
  let s := if w.hits .ENG_DREQ_CTL_HEAD then doDreqHeadWrite o (w.fld .ENG_DREQ_CTL_HEAD) s else s
  w.bit .ENG_DREQ_CTL_REARM (doDreqRearm o) s

/-- COH_ENCn (R334): ignored in FROND, STANDBY and DORMANT; VALID cannot be set while WORLD is 0. -/
def encWrite (o : Origin) (w : RegWrite) (s : State) : State :=
  if [Mode.frond, Mode.standby, Mode.dormant].contains s.mode then s
  else if w.fld .COH_ENC_VALID = 1 ∧ w.fld .COH_ENC_WORLD = 0 then s
  else w.plain o id s

/-- A code-region register (R325): a locked region ignores writes. -/
def codeWrite (o : Origin) (w : RegWrite) (s : State) : State :=
  if s.onB .COH_CODE_LIMIT_LOCK w.bank then s else w.plain o id s

/-- Locked lines of a set beyond the ways reserved are unlocked, the youngest first (R404). -/
def unlockSpare (pod : Nat) (s : State) : State :=
  let n := s.lockWays pod
  let l := s.coh.l2.filter (fun p => p.1 / 2 ^ 31 == pod && p.2.locked)
  l.foldl (fun s p =>
    let line := p.1 % 2 ^ 31
    let older := (lockedInSet pod line s.coh).filter (fun q => decide (q.2.stamp < p.2.stamp))
    if n ≤ older.length then setLocked pod line false s else s) s

/-- POD_INT_PEND: latched sources are withdrawn. -/
def intPendWrite (w : RegWrite) (s : State) : State :=
  let v := w.put .POD_INT_PEND_LATCHED
  let s := if v.testBit 0 then unpendInt w.bank 0 s else s
  if v.testBit 1 then unpendInt w.bank 1 s else s

/-- POD_CMD by its OP (R436). What a parity error during CHECK would be is open here. -/
def podCmdWrite (o : Origin) (pod op : Nat) (s : State) : State :=
  match op with
  | 1 => doPodSplit o pod s
  | 2 => doPodPark o pod s
  | 3 => let (n, s) := s.draw; doPodCheck o pod ((Config.freeNat n).testBit 0) s
  | 4 => doWarmRestart o pod s
  | _ => s

/-- VFM_MBX_CTL (R506): BLOCK is logged; LEN stands; SEND and ACK act. DESIGN CHOICE, log entry 15. -/
def mbxCtlWrite (o : Origin) (w : RegWrite) (s : State) : State :=
  let vf := w.bank
  if vf = 0 ∨ 64 < vf then s
  else
    let store := fun (s : State) => (s.setB .VFM_MBX_CTL_LEN vf (w.fld .VFM_MBX_CTL_LEN)).setB .VFM_MBX_CTL_BLOCK vf (w.fld .VFM_MBX_CTL_BLOCK)
    let act := fun (s : State) =>
      let s := store s
      let s := w.bit .VFM_MBX_CTL_SEND (doMailboxSend true vf (w.fld .VFM_MBX_CTL_LEN)) s
      w.bit .VFM_MBX_CTL_ACK (doMailboxAck true vf) s
    if w.isLogged then logged o 1 w.addr (s.regRaw w.reg vf) ((store s).regRaw w.reg vf) id act s else act s

/-- FN_MBX_CTL of a VF (R506). -/
def fnMbxWrite (w : RegWrite) (s : State) : State :=
  let vf := w.bank
  let s := s.setB .FN_MBX_CTL_VECTOR vf (w.fld .FN_MBX_CTL_VECTOR)
  let s := s.setB .FN_MBX_CTL_LEN vf (w.fld .FN_MBX_CTL_LEN)
  let s := w.bit .FN_MBX_CTL_SEND (doMailboxSend false vf (w.fld .FN_MBX_CTL_LEN)) s
  w.bit .FN_MBX_CTL_ACK (doMailboxAck false vf) s

/-- VFM_DIRTY_LO, HI, MAP0 and MAP1: writable while ENABLE is 0 (R512). -/
def dirtyMapWrite (o : Origin) (w : RegWrite) (s : State) : State :=
  if s.onB .VFM_DIRTY_CTL_ENABLE w.bank then s else w.plain o id s

/-- VFM_DIRTY_CTL (R512): the range is non-empty and at most 2^44 bytes; setting ENABLE makes MAP0 active. -/
def dirtyCtlWrite (o : Origin) (w : RegWrite) (s : State) : State :=
  let fn := w.bank
  let lo := s.getB .VFM_DIRTY_LO_ADDR fn
  let hi := s.getB .VFM_DIRTY_HI_ADDR fn
  let was := s.onB .VFM_DIRTY_CTL_ENABLE fn
  let sets := w.fld .VFM_DIRTY_CTL_ENABLE == 1 && !was
  if sets && !(decide (lo < hi) && decide ((hi - lo) * 4096 ≤ 2 ^ 44)) then s
  else w.plain o (fun s => if sets then s.setB .VFM_DIRTY_CTL_ACTIVE fn 0 else s) s

/-- CLM_PAIR (R517): in MAINTENANCE; a new pair id or member index makes the claim the member index. DESIGN CHOICE, log entry 74. -/
def clmPairWrite (o : Origin) (w : RegWrite) (s : State) : State :=
  if s.mode ≠ Mode.maintenance then s
  else
    let id_ := s.get .CLM_PAIR_PAIR_ID
    let member := s.get .CLM_PAIR_MEMBER
    w.plain o (fun s =>
      if s.get .CLM_PAIR_PAIR_ID = id_ ∧ s.get .CLM_PAIR_MEMBER = member then s
      else
        let c := s.get .CLM_PAIR_MEMBER
        rekey ((logBy o 5 (s.get .CLM_PAIR_PAIR_ID) (s.get .CLM_CLAIM_CLAIM) c s).set .CLM_CLAIM_CLAIM c)) s

/-- Requests made during a solo restart are answered RETRY at once (R547). -/
def tmbAsked (s : State) : State := if s.on .TMB_STATUS_RESTARTING then retryRing 4096 s else s

/-- TMB_DMA_BASE and TMB_DMA_LIMIT: LOCK of the limit freezes both. DESIGN CHOICE, log entry 16. -/
def tmbDmaWrite (o : Origin) (w : RegWrite) (s : State) : State :=
  if s.on .TMB_DMA_LIMIT_LOCK then s else w.plain o (fun s => s.set .TMB_DMA_BASE_LOCK 0) s

/-- DBG_CTL (R555): from the debug port or a core at M. What was shifted in is open here. -/
def dbgCtlWrite (o : Origin) (w : RegWrite) (s : State) : State :=
  if !s.dbgReach o then s
  else
    let s := s.set .DBG_CTL_LEVEL (w.fld .DBG_CTL_LEVEL)
    let s := w.bit .DBG_CTL_REQ (doDebugReq o (w.fld .DBG_CTL_LEVEL)) s
    w.bit .DBG_CTL_CHECK (fun s => let (n, s) := s.draw; doDebugCheck o (Config.randomBytes n 17168) s) s

/-- A write to a register, its block being reached. DESIGN CHOICE, log entry 15. DESIGN CHOICE, log entry 16. -/
def writeReg (o : Origin) (w : RegWrite) (s : State) : State :=
  let v := w.act
  let free := fun (f : Fld) => if s.on f then s else w.plain o id s
  match w.reg with
  | .ENG_EPB_CTL => epbCtlWrite o w s
  | .CSS_SCH_CMD => (match v % 4 with
    | 1 => doSchAssign o v s
    | 2 => doSchRelease o v s
    | _ => s)
  | .CSS_CALL_BASE => if isFw o then free .CSS_CALL_CTL_ENABLE else s
  | .CSS_CALL_CTL => callCtlWrite o w s
  | .CSS_CALL_ANS => doCallAnswer o v s
  | .ENG_DOM_CMD => (match v % 4 with
    | 1 => doDomCreate o v s
    | 2 => doDomDestroy o v s
    | 3 => doDomSet o v s
    | _ => s)
  | .ENG_IDX_CTL => idxCtlWrite o w s
  | .ENG_IDX_BASE | .ENG_IDX_BUCKETS | .ENG_PEND_BASE | .ENG_PEND_ENTRIES => free .ENG_IDX_CTL_ENABLE
  | .ENG_IDX_CMD => (match v % 4 with
    | 1 => doIdxClear o v s
    | 2 => doIdxPurge o v s
    | 3 => doIdxLoad o v s
    | _ => s)
  | .ENG_IDX_PURGE => doPurgeSlotFree o (v / 65536 % 65536) s
  | .ENG_POOL_BASE | .ENG_POOL_SIZE => free .ENG_POOL_CTL_ENABLE
  | .ENG_POOL_CTL => poolCtlWrite o w s
  | .ENG_DIR_BASE => free .ENG_DIR_CTL_ENABLE
  | .ENG_DIR_CTL => dirCtlWrite o w s
  | .ENG_DIR_CMD => (match v % 4 with
    | 1 => doDirFilled o (v / 8 % 4) s
    | 2 => doDirAbsent o (v / 8 % 4) s
    | 3 => doDirFlush o s
    | _ => s)
  | .ENG_DREQ_CTL => dreqCtlWrite o w s
  | .ENG_DLOG_CTL => if w.hits .ENG_DLOG_CTL_HEAD then doDlogHeadWrite o (w.fld .ENG_DLOG_CTL_HEAD) s else s
  | .MPT_LANE_CTL =>
    w.plain o (fun s => if s.onB .MPT_LANE_CTL_ENABLE w.bank then s else doLaneLinkChange w.bank false 0 0 s) s
  | .MPT_DISC_CTL => w.bit .MPT_DISC_CTL_RUN (doDiscRun o) s
  | .MPT_DEV_CMD => if v % 4 = 1 then doDevRelease o v s else s
  | .MEM_STRIPE_CMD => (match v % 4 with
    | 1 => doStripeMark o v (v / 4 % 8) s
    | 2 => doStripeClear o v (v / 4 % 8) s
    | _ => s)
  | .COH_CODE_BASE | .COH_CODE_LIMIT => codeWrite o w s
  | .COH_ENC => encWrite o w s
  | .COH_CTL =>
    let new := w.fld .COH_CTL_PRED_OFF
    if w.isLogged then
      logged o 1 w.addr (s.regRaw .COH_CTL 0) (s.get .COH_CTL_READY + 2 * new) id
        (fun s => w.bit .COH_CTL_READY (doCohReady o) (s.set .COH_CTL_PRED_OFF new)) s
    else s
  | .COH_MAINT_ADDR => setMaintAddr w.bank w.value s
  | .COH_MAINT_CMD => s
  | .COH_L2LOCK => w.plain o (unlockSpare (w.bank / 2)) s
  | .POD_INT_PEND => intPendWrite w s
  | .POD_IPI_SET => if v % 2 = 1 then doIpiRaise o (w.bank / 2) (w.bank % 2) s else s
  | .POD_TIMECMP => w.plain o (fun s => s.modCore w.bank (fun c => { c with timed := false })) s
  | .POD_CMD => podCmdWrite o w.bank (v % 8) s
  | .FLT_ACK => doFltAck o v s
  | .FLT_FIRST_TYPE => w.bit .FLT_FIRST_TYPE_VALID (doFltCaptureRearm o) s
  | .FLT_INJECT => doFltInject o v s
  | .RNG_CTL => doRngInsertWrite o v s
  | .VFM_CMD => (match v % 8 with
    | 1 => doVfCreate o v s
    | 2 => doVfDestroy o v s
    | 3 => doVfmReset o v s
    | 4 => doVfmPause o v s
    | 5 => doVfmUnpause o v s
    | 6 => doVfmSetwin o v s
    | _ => s)
  | .VFM_MBX_CTL => mbxCtlWrite o w s
  | .FN_MBX_CTL => fnMbxWrite w s
  | .VFM_DIRTY_LO | .VFM_DIRTY_HI | .VFM_DIRTY_MAP0 | .VFM_DIRTY_MAP1 => dirtyMapWrite o w s
  | .VFM_DIRTY_CTL => dirtyCtlWrite o w s
  | .VFM_DIRTY_CMD => w.bit .VFM_DIRTY_CMD_SYNC (doDirtySync o) s
  | .CLM_PAIR => clmPairWrite o w s
  | .CLM_CMD => (match v % 8 with
    | 1 => doClmTakeover o v s
    | 2 => doForceActive o v s
    | 3 => doClmDetach o v s
    | 4 => doClmResync o v s
    | _ => s)
  | .CLM_SWITCHBACK => w.bit .CLM_SWITCHBACK_GO (doSwitchback o v) s
  | .TMB_DMA_BASE | .TMB_DMA_LIMIT => tmbDmaWrite o w s
  | .TMB_KICK => w.bit .TMB_KICK_KICK (doTmbKick o) s
  | .TMB_REQ_CTL => w.plain o tmbAsked s
  | .LOG_EXPORTED => doLogExportedWrite o w.value s
  | .LOG_XQ_CTL => doLogExportEnable o w.value s
  | .LOG_CKPT_EXPORTED => doLogCkptExportedWrite o w.value s
  | .DBG_CTL => dbgCtlWrite o w s
  | .MOD_CMD => modCmdWrite o v s
  | .PWR_REQ => doPwrReq o w.value s
  | .PWR_FORCE => doPwrForce o (w.fld .PWR_FORCE_REASON + 65536 * w.put .PWR_FORCE_GO) s
  | .PWR_POD_MHZ => doPwrPodMhzWrite o w.bank w.value s
  | .TIM_EPOCH => doTimEpochWrite o w.value s
  | _ => w.plain o id s

/-! ## From an address to the register -/

/-- The I/O address of the copy a place names. -/
def RegLoc.addr (l : RegLoc) : Nat :=
  l.reg.info.base + l.rep * l.reg.info.stride + (if l.reg.info.base / 0x10000 = 8 ∧ l.reg.info.base < 0x80C00 then l.slot * 0x1000 + 0x400 * b2n l.second else 0)

/-- A write of `n` bytes to the register at a place. DESIGN CHOICE, log entry 14. -/
def writeAt (o : Origin) (l : RegLoc) (n v pod core : Nat) (s : State) : State :=
  if s.selectsNone l.reg ∨ s.dbgDead l.reg then s
  else
    let bank := s.bankOf l pod core
    let bytes := min n (l.reg.info.width / 8 - l.byte)
    let shift := 2 ^ (8 * l.byte)
    let mask := (2 ^ (8 * bytes) - 1) * shift
    let act := v % 2 ^ (8 * bytes) * shift
    let value := andNot (s.regRaw l.reg bank) mask + act
    writeReg o { reg := l.reg, bank := bank, addr := l.addr, value := value, act := act, mask := mask } s

/-- A write of `n` bytes at an I/O address whose block is on (R12): a write of 8 bytes to a 32-bit register reaches the
register after it too. -/
def ioStore (o : Origin) (a n v pod core : Nat) (s : State) : State :=
  let wide := match locate a with
    | some l => decide (64 ≤ l.reg.info.width)
    | none => false
  let low := match locate a with
    | some l => writeAt o l (if wide then n else 4) v pod core s
    | none => s
  if n = 8 ∧ !wide then
    match locate (a + 4) with
    | some l => if l.byte = 0 then writeAt o l 4 (v / 2 ^ 32) pod core low else low
    | none => low
  else low

/-- A write of `n` bytes on the pages of a function (*BAR0 layouts*); each 4 bytes for themselves but in a 64-bit register. -/
def fnStore (o : Origin) (fn off n v : Nat) (s : State) : State :=
  fnPage fn (fun s =>
    if 0x2000 ≤ off ∧ off < 0x2100 then
      let d := overlay (padTo 256 (kvGet s.hst.vfOut fn [])) (off - 0x2000) (leBytes n v)
      s.withHst (fun h => { h with vfOut := kvSet h.vfOut fn (padTo 256 d) })
    else if !s.queueThere fn off then s
    else match fnLocate fn off with
      | none => s
      | some l =>
        let q := (off - 0x1000) / 0x40
        let x := s.regRaw l.reg (s.bankOf l 0 0)
        let shift := 2 ^ (8 * l.byte)
        let mask := (2 ^ (8 * n) - 1) * shift
        let act := v % 2 ^ (8 * n) * shift
        let value := andNot x mask + act
        match l.reg with
        | .FN_CQ_BASE => doFnCqCfgWrite fn q true value s
        | .FN_CQ_CFG => doFnCqCfgWrite fn q false (value % 2 ^ 32 + act / 2 ^ 32 * 2 ^ 32) s
        | .FN_CQ_HEAD => if l.byte = 0 then doFnCqHeadWrite fn q (value % 65536) s else s
        | .FN_STATE | .FN_WIN => s
        | _ => writeAt o l n v 0 0 s) s

/-- The MSI-X table entry word a BAR0 offset names: function, vector, word (*BAR0 layouts*). -/
def msixOffset (o : Origin) (a : Nat) : Option (Nat × Nat × Nat) :=
  match o with
  | .pf => if 0x1E00000 ≤ a ∧ a < 0x1E00400 then some (0, (a - 0x1E00000) / 16, a / 4 % 4) else none
  | .vf n => if 0x4000 ≤ a ∧ a < 0x4080 ∧ n ≠ 0 ∧ n ≤ 64 then some (n, (a - 0x4000) / 16, a / 4 % 4) else none
  | _ => none

/-- A write of 4 bytes to an MSI-X table entry; unmasking sends what waits (R500). -/
def msixStore (fn vec word v : Nat) (s : State) : State :=
  let m := s.msixAt fn vec
  let v := v % 2 ^ 32
  let m := match word with
    | 0 => { m with addr := m.addr / 2 ^ 32 * 2 ^ 32 + v }
    | 1 => { m with addr := m.addr % 2 ^ 32 + v * 2 ^ 32 }
    | 2 => { m with data := v }
    | _ => { m with masked := v.testBit 0 }
  sendPending fn (s.setMsix fn vec m)

/-- A write of a host through a BAR0 (R13, R493 to R496). -/
def hostStore (o : Origin) (a n v : Nat) (s : State) : State :=
  match msixOffset o a with
  | some (fn, vec, word) =>
    if fn ≠ 0 ∧ (!s.hst.vfEnable || !s.hst.vfMse) then s
    else
      let s := msixStore fn vec word v s
      if n = 8 ∧ word % 2 = 0 then msixStore fn vec (word + 1) (v / 2 ^ 32) s else s
  | none =>
    match fnOffset o a with
    | some (fn, off) => fnStore o fn off n v s
    | none =>
      if o ≠ .pf then s
      else if !hostSees a then s
      else if s.blockDark a then darkAccess s
      else ioStore o a n v 0 0 s

/-- REGISTER_WRITE (R8 to R14, R493): a naturally aligned write of 4 or 8 bytes. A host's address is a BAR0 offset; any
other writer's is an I/O address. -/
def doRegisterWrite (o : Origin) (a n v : Nat) (s : State) : State :=
  if s.mode = Mode.off ∨ (n ≠ 4 ∧ n ≠ 8) ∨ a % n ≠ 0 then s
  else
    let s := dropLatch s
    match o with
    | .pf | .vf _ => hostStore o a n v s
    | .fw p c _ _ => if !s.wayTo o a then s else if s.blockDark a then domainOff o s else ioStore o a n v p c s
    | .debug => if !s.wayTo o a then s else if s.blockDark a then domainOff o s else ioStore o a n v 0 0 s
    | .tuber => if a = regBase .TMB_KICK ∧ v % 2 = 1 then doTmbKick o s else s
    | _ => s

end Sys2Proof.Machine
end

