-- ==== Sys2Proof/Machine/OctipIo.lean ====
section
/-!
DEFINITION. IN and OUT (R327, R328, R337).
-/

namespace Sys2Proof.Machine

/-- An IN of `n` bytes (R327): after the checks, the register's value, zero-extended, goes to g[D]. -/
def inOp (c : OctCtx) (d a n : Nat) (core : OctCore) (s : State) : Eff :=
  match ioCheck s core false a n with
  | some e => .exc e .input (BitVec.ofNat 64 a) s
  | none => .ok (fun k => k.setG d (BitVec.ofNat 64 (s.ioValue a n c.pod c.core))) (usedFree (dropLatch s))

/-- OP_IN (R327): sizes of 4 and 8 bytes. -/
def doOpIn (c : OctCtx) (size d a : Nat) (off : Word) (s : State) : State :=
  let n := sizeBytes size
  octipOn c (fun core s =>
    if size < 2 then illegal s else inOp c d (core.gr a + off).toNat n core s)
    (fun core s =>
    if size < 2 then illegal s
    else tuberIo .input (core.gr a + off).toNat n
      (fun v => .ok (fun k => k.setG d (BitVec.ofNat 64 (v % 2 ^ (8 * n))))) s) s

/-- The maintenance command an OUT of `op` to COH_MAINT_CMD is, as it is run again after a wait. -/
def mtInstr (op : Nat) (c : OctCtx) : Instr :=
  match op with
  | 1 => .mtClean c
  | 2 => .mtCleanInv c
  | 3 => .mtInv c
  | 4 => .mtZero c
  | 5 => .mtLock c
  | _ => .mtUnlock c

/-- The register's part of an OUT. -/
def outWrite (c : OctCtx) (a n v : Nat) (core : OctCore) (s : State) : Eff :=
  let op := v % 8
  if a = regBase .COH_MAINT_CMD then
    if op = 0 ∨ op = 7 then .ok id s else mtRun (mtInstr op c) op c core s
  else .ok id (ioStore (.fw c.pod c.core (stWorld core.status) (stPl core.status)) a n v c.pod c.core (dropLatch s))

/-- OP_OUT (R327, R328). -/
def doOpOut (c : OctCtx) (size d a : Nat) (off : Word) (s : State) : State :=
  octipOn c (fun core s =>
    if size < 2 then illegal s
    else
      let at_ := (core.gr a + off).toNat
      let n := sizeBytes size
      outOp at_ n (outWrite c at_ n ((core.gr d).toNat % 2 ^ (8 * n))) core s)
    (fun core s =>
    if size < 2 then illegal s
    else tuberIo .output (core.gr a + off).toNat (sizeBytes size) (fun _ => .ok id) s) s

end Sys2Proof.Machine
end

