-- ==== Sys2Proof/Machine/ExecCode.lean ====
section
/-!
DEFINITION. The meanings of the commands of the dedup index, compression, sealing, coding, the directory and custody: each its effect and what follows by itself.
-/

namespace Sys2Proof.Machine

/-- PROBE (R158): The PROBE order sets the dedup domain and mode, cutting the open chunk and stripe on a domain
change. -/
def execOrdProbe (sch : Nat) (s : State) : Host.Outcome State Fault Refusal := settled (doOrdProbe sch s)

/-- PACK (R178): The PACK order sets format, level and window for chunks dispatched after it. -/
def execOrdPack (sch : Nat) (s : State) : Host.Outcome State Fault Refusal := settled (doOrdPack sch s)

/-- SEAL (R187): The SEAL order sets the key handle used to seal stored chunks. -/
def execOrdSeal (sch : Nat) (s : State) : Host.Outcome State Fault Refusal := settled (doOrdSeal sch s)

/-- UNSEAL (R195): The UNSEAL order sets the key handle used to open sealed chunks. -/
def execOrdUnseal (sch : Nat) (s : State) : Host.Outcome State Fault Refusal := settled (doOrdUnseal sch s)

/-- UNPACK (R183): The UNPACK order sets whether verify-decompress is used on restore. -/
def execOrdUnpack (sch : Nat) (s : State) : Host.Outcome State Fault Refusal := settled (doOrdUnpack sch s)

/-- VERIFY (R204): The VERIFY order reads all shards of every stripe named by the last GATHER and checks them,
rewriting bad ones under REPAIR. -/
def execOrdVerify (sch : Nat) (s : State) : Host.Outcome State Fault Refusal := settled (doOrdVerify sch s)

/-- PROBE_LOOKUP (R163): PROBE fingerprints a chunk and compares it with its bucket and the program's pending entries.
-/
def execProbeLookup (sch : Nat) (s : State) : Host.Outcome State Fault Refusal := settled (doProbeLookup sch s)

/-- DOM_CREATE (R159): ENG_DOM_CMD CREATE has Tuber draw a domain key and makes the selected domain live. -/
def execDomCreate (by_ : Origin) (s : State) : Host.Outcome State Fault Refusal := settled (doDomCreate by_ 1 s)

/-- DOM_DESTROY (R159): ENG_DOM_CMD DESTROY zeroises the selected domain's key. -/
def execDomDestroy (by_ : Origin) (s : State) : Host.Outcome State Fault Refusal := settled (doDomDestroy by_ 2 s)

/-- DOM_SET (R159): ENG_DOM_CMD SET applies OWN, PF_GRANT and ENG_DOM_GRANT to a live domain. -/
def execDomSet (by_ : Origin) (s : State) : Host.Outcome State Fault Refusal := settled (doDomSet by_ 3 s)

/-- DOMAIN_CMD_COMPLETE (R159): Tuber finishes a CREATE or DESTROY and ENG_DOM_CMD reports its RESULT. -/
def execDomainCmdComplete (ok : Bool) (s : State) : Host.Outcome State Fault Refusal :=
  settled (doDomainCmdComplete ok s)

/-- IDX_CLEAR (R174): ENG_IDX_CMD CLEAR starts zeroing the dedup index, with STATE CLEARING. -/
def execIdxClear (by_ : Origin) (s : State) : Host.Outcome State Fault Refusal := settled (doIdxClear by_ 1 s)

/-- IDX_CLEAR_COMPLETE (R174): The index is zeroed and STATE becomes VALID. -/
def execIdxClearComplete (s : State) : Host.Outcome State Fault Refusal := settled (doIdxClearComplete s)

/-- IDX_PURGE (R170): ENG_IDX_CMD PURGE registers a locator range in a purge slot and starts its scan. -/
def execIdxPurge (by_ : Origin) (s : State) : Host.Outcome State Fault Refusal := settled (doIdxPurge by_ 2 s)

/-- PURGE_SCAN_COMPLETE (R170): The purge scan has emptied every entry in the range. -/
def execPurgeScanComplete (slot : Nat) (s : State) : Host.Outcome State Fault Refusal :=
  settled (doPurgeScanComplete slot s)

/-- PURGE_SLOT_FREE (R172): Writing 1 to a set DONE bit frees the purge slot; writing it to a clear bit has no effect.
-/
def execPurgeSlotFree (by_ : Origin) (mask : Nat) (s : State) : Host.Outcome State Fault Refusal :=
  settled (doPurgeSlotFree by_ mask s)

/-- IDX_LOAD (R175): ENG_IDX_CMD LOAD starts inserting load records from a list into the index. -/
def execIdxLoad (by_ : Origin) (s : State) : Host.Outcome State Fault Refusal := settled (doIdxLoad by_ 3 s)

/-- IDX_LOAD_COMPLETE (R175): LOAD has processed its whole record list. -/
def execIdxLoadComplete (s : State) : Host.Outcome State Fault Refusal := settled (doIdxLoadComplete s)

/-- PACK_CHUNK_DONE (R182): A PACK engine finishes a chunk, which is checked by verify-decompress and kept, stored raw
or recompressed. -/
def execPackChunkDone (sch ordinal engine : Nat) (mismatch : Bool) (s : State) : Host.Outcome State Fault Refusal :=
  settled (doPackChunkDone sch ordinal engine mismatch s)

/-- UNPACK_CHUNK (R183): UNPACK decodes a chunk and checks its CRC-32C, forcing a full-stripe re-decode on failure. -/
def execUnpackChunk (sch : Nat) (s : State) : Host.Outcome State Fault Refusal := settled (doUnpackChunk sch s)

/-- SEAL_CHUNK (R194): A SEAL lane pair encrypts a chunk in both lanes and compares the outputs before release. -/
def execSealChunk (sch lanePair : Nat) (mismatch : Bool) (s : State) : Host.Outcome State Fault Refusal :=
  settled (doSealChunk sch lanePair mismatch s)

/-- UNSEAL_CHUNK (R195): Both lanes decrypt a chunk and must agree on plaintext and tag outcome before release. -/
def execUnsealChunk (sch : Nat) (mismatch : Bool) (s : State) : Host.Outcome State Fault Refusal :=
  settled (doUnsealChunk sch mismatch s)

/-- KEY_SLOT_LOAD (R192): Tuber loads a key handle into a SEAL key slot, releasing the stalled program. -/
def execKeySlotLoad (handle : Nat) (unwraps : Bool) (s : State) : Host.Outcome State Fault Refusal :=
  settled (doKeySlotLoad handle unwraps s)

/-- SPREAD_CHUNK (R198): SPREAD places a chunk header and stored bytes in the data area, closing the stripe when the
chunk does not fit. -/
def execSpreadChunk (sch : Nat) (synFault digFault : Bool) (s : State) : Host.Outcome State Fault Refusal :=
  settled (doSpreadChunk sch synFault digFault s)

/-- SHARD_WRITE_ISSUE (R202): A media port issues one write of u bytes for a shard through the claim gate. -/
def execShardWriteIssue (stripe shard : Nat) (answer : Option MediaAnswer) (s : State) : Host.Outcome State Fault Refusal :=
  settled (doShardWriteIssue stripe shard answer s)

/-- SHARD_WRITE_COMPLETE (R210): A shard write completes, making the shard durable or retrying or failing it. -/
def execShardWriteComplete (stripe shard : Nat) (status : MediaStatus) (s : State) :
    Host.Outcome State Fault Refusal := settled (doShardWriteComplete stripe shard status s)

/-- COMMIT_DLOG_WRITE (R214): COMMIT writes an object's descriptor-log entries once the log has room. -/
def execCommitDlogWrite (sch : Nat) (s : State) : Host.Outcome State Fault Refusal :=
  settled (doCommitDlogWrite sch s)

/-- DLOG_HEAD_WRITE (R215): A write of ENG_DLOG_CTL.HEAD frees descriptor-log entries, clamped at MARK. -/
def execDlogHeadWrite (by_ : Origin) (v : Nat) (s : State) : Host.Outcome State Fault Refusal :=
  settled (doDlogHeadWrite by_ v s)

/-- DIR_REQUEST_POST (R217): A stripe-directory miss posts a request to the ring at ENG_DREQ_BASE once it has room. -/
def execDirRequestPost (s : State) : Host.Outcome State Fault Refusal := settled (doDirRequestPost s)

/-- DREQ_HEAD_WRITE (R219): Firmware advances ENG_DREQ_CTL.HEAD, and requests held in the engine are posted. -/
def execDreqHeadWrite (by_ : Origin) (v : Nat) (s : State) : Host.Outcome State Fault Refusal :=
  settled (doDreqHeadWrite by_ v s)

/-- DREQ_REARM (R217): Writing ENG_DREQ_CTL.REARM posts every unanswered request again. -/
def execDreqRearm (by_ : Origin) (s : State) : Host.Outcome State Fault Refusal := settled (doDreqRearm by_ s)

/-- DIR_FILLED (R217): ENG_DIR_CMD FILLED serves the waiting lookup from the named slot or is refused with RESULT 2.
-/
def execDirFilled (by_ : Origin) (kind : Nat) (s : State) : Host.Outcome State Fault Refusal :=
  settled (doDirFilled by_ kind s)

/-- DIR_ABSENT (R217): ENG_DIR_CMD ABSENT answers a request and the lookup fails with FAIL 0x0203. -/
def execDirAbsent (by_ : Origin) (kind : Nat) (s : State) : Host.Outcome State Fault Refusal :=
  settled (doDirAbsent by_ kind s)

/-- DIR_FLUSH (R216): ENG_DIR_CMD FLUSH starts emptying both directory tables. -/
def execDirFlush (by_ : Origin) (s : State) : Host.Outcome State Fault Refusal := settled (doDirFlush by_ s)

/-- DIR_FLUSH_COMPLETE (R216): The directory flush ends and BUSY clears. -/
def execDirFlushComplete (s : State) : Host.Outcome State Fault Refusal := settled (doDirFlushComplete s)

/-- EPOCH_CLOSE (R222): The open custody epoch closes on its time or stripe limit. -/
def execEpochClose (s : State) : Host.Outcome State Fault Refusal := settled (doEpochClose s)

/-- EPOCH_SIGNED (R223): Tuber completes both signatures of a closed epoch's manifest header. -/
def execEpochSigned (s : State) : Host.Outcome State Fault Refusal := settled (doEpochSigned s)

/-- MANIFEST_WRITE_COMPLETE (R228): Every valid manifest region completes or fails, freeing the epoch's list entries.
-/
def execManifestWriteComplete (statuses : List MediaStatus) (s : State) : Host.Outcome State Fault Refusal :=
  settled (doManifestWriteComplete statuses s)

/-- MANIFEST_NOTICE_POST (R228): A manifest notice is written to the PF manifest queue once it has room. -/
def execManifestNoticePost (s : State) : Host.Outcome State Fault Refusal := settled (doManifestNoticePost s)

/-- MANIFEST_RETRY (R228): Every 10 s a manifest no region accepted is written again. -/
def execManifestRetry (s : State) : Host.Outcome State Fault Refusal := settled (doManifestRetry s)

end Sys2Proof.Machine
end

