-- ==== Sys2Proof/Machine/ExecHost.lean ====
section
/-!
DEFINITION. The meanings of the commands of the host port and the function manager: each its effect and what follows by itself.
-/

namespace Sys2Proof.Machine

/-- CQ_COALESCE_TIMEOUT (R500): COAL_US passes since the first uninterrupted word and the queue's MSI-X vector is
raised. -/
def execCqCoalesceTimeout (fn cq : Nat) (s : State) : Host.Outcome State Fault Refusal :=
  settled (doCqCoalesceTimeout fn cq s)

/-- HOST_PORT_RESET (R492): PERST#, a hot reset or a Link Down resets the host port and every function. -/
def execHostPortReset (wasUp refclk : Bool) (s : State) : Host.Outcome State Fault Refusal :=
  settled (doHostPortReset wasUp refclk s)

/-- LINK_UPCONFIGURE (R490): On FIDDLEHEAD entry the port raises the link to full width and speed. -/
def execLinkUpconfigure (upcfg : Bool) (speed width : Nat) (s : State) : Host.Outcome State Fault Refusal :=
  settled (doLinkUpconfigure upcfg speed width s)

/-- CONFIG_REQUEST (R491): A PCIe configuration request is completed. -/
def execConfigRequest (fn reg : Nat) (wr : Option Nat) (s : State) : Host.Outcome State Fault Refusal :=
  settled (doConfigRequest fn reg wr s)

/-- FLR (R508): An FLR on a VF starts a function reset and clears its queues and mailbox. -/
def execFlr (vf : Nat) (s : State) : Host.Outcome State Fault Refusal := settled (doFlr vf s)

/-- VF_ENABLE_CLEAR (R508): Clearing VF Enable resets every created VF. -/
def execVfEnableClear (s : State) : Host.Outcome State Fault Refusal := settled (doVfEnableClear s)

/-- POWER_STATE_CHANGE (R501): A function enters or leaves D3hot, holding or releasing its DMA. -/
def execPowerStateChange (fn : Nat) (d3 : Bool) (s : State) : Host.Outcome State Fault Refusal :=
  settled (doPowerStateChange fn d3 s)

/-- FN_CQ_CFG_WRITE (R498): A write to FN_CQ_CFG or FN_CQ_BASE enables or configures a queue, or sets CFGERR. -/
def execFnCqCfgWrite (fn cq : Nat) (base : Bool) (v : Nat) (s : State) : Host.Outcome State Fault Refusal :=
  settled (doFnCqCfgWrite fn cq base v s)

/-- FN_CQ_HEAD_WRITE (R499): A write to FN_CQ_HEAD advances the head, or sets HEADERR. -/
def execFnCqHeadWrite (fn cq v : Nat) (s : State) : Host.Outcome State Fault Refusal :=
  settled (doFnCqHeadWrite fn cq v s)

/-- VF_CREATE (R502): VFM_CMD CREATE creates a VF with its queues and window and advances its generation. -/
def execVfCreate (by_ : Origin) (s : State) : Host.Outcome State Fault Refusal := settled (doVfCreate by_ 1 s)

/-- VF_DESTROY (R504): VFM_CMD DESTROY resets a VF, releases its resources and revokes its keys. -/
def execVfDestroy (by_ : Origin) (s : State) : Host.Outcome State Fault Refusal := settled (doVfDestroy by_ 2 s)

/-- VFM_RESET (R508): VFM_CMD RESET resets the selected function. -/
def execVfmReset (by_ : Origin) (s : State) : Host.Outcome State Fault Refusal := settled (doVfmReset by_ 3 s)

/-- PAUSE (R510): VFM_CMD PAUSE stops a function's control FIFO. -/
def execVfmPause (by_ : Origin) (s : State) : Host.Outcome State Fault Refusal := settled (doVfmPause by_ 4 s)

/-- UNPAUSE (R510): VFM_CMD UNPAUSE resumes a function's control FIFO. -/
def execVfmUnpause (by_ : Origin) (s : State) : Host.Outcome State Fault Refusal := settled (doVfmUnpause by_ 5 s)

/-- SETWIN (R502): VFM_CMD SETWIN sets a function's device-DRAM window. -/
def execVfmSetwin (by_ : Origin) (s : State) : Host.Outcome State Fault Refusal := settled (doVfmSetwin by_ 6 s)

/-- MAILBOX_SEND (R506): SEND delivers a mailbox message to the receiver and raises its vector. -/
def execMailboxSend (fromPf : Bool) (vf len : Nat) (s : State) : Host.Outcome State Fault Refusal :=
  settled (doMailboxSend fromPf vf len s)

/-- MAILBOX_ACK (R506): ACK clears the receiver's FULL and the sender's BUSY. -/
def execMailboxAck (fromPf : Bool) (vf : Nat) (s : State) : Host.Outcome State Fault Refusal :=
  settled (doMailboxAck fromPf vf s)

/-- DIRTY_SYNC (R514): VFM_DIRTY_CMD SYNC swaps the dirty maps. -/
def execDirtySync (by_ : Origin) (s : State) : Host.Outcome State Fault Refusal := settled (doDirtySync by_ s)

/-- DIRTY_SYNC_COMPLETE (R514): Every write issued before the swap is marked in the old map and BUSY clears. -/
def execDirtySyncComplete (fn : Nat) (s : State) : Host.Outcome State Fault Refusal :=
  settled (doDirtySyncComplete fn s)

end Sys2Proof.Machine
end

