-- ==== Sys2Proof/Machine/ExecMedia.lean ====
section
/-!
DEFINITION. The meanings of the commands of the media ports: each its effect and what follows by itself.
-/

namespace Sys2Proof.Machine

/-- ZONE (R253): The ZONE order performs OPEN, CLOSE, FINISH, RESET, REPORT or BIND on a zone. -/
def execOrdZone (sch : Nat) (s : State) : Host.Outcome State Fault Refusal := settled (doOrdZone sch s)

/-- LANE_LINK_CHANGE (R232): A SAS lane completes speed negotiation or goes down. -/
def execLaneLinkChange (lane : Nat) (up : Bool) (rate sasAddr : Nat) (s : State) : Host.Outcome State Fault Refusal :=
  settled (doLaneLinkChange lane up rate sasAddr s)

/-- DISC_RUN (R235): Writing MPT_DISC_CTL.RUN starts media discovery. -/
def execDiscRun (by_ : Origin) (s : State) : Host.Outcome State Fault Refusal := settled (doDiscRun by_ s)

/-- BROADCAST_CHANGE (R235): A BROADCAST (CHANGE) primitive on a lane leads to discovery within 2 s. -/
def execBroadcastChange (lane : Nat) (s : State) : Host.Outcome State Fault Refusal :=
  settled (doBroadcastChange lane s)

/-- DISCOVERY_COMPLETE (R236): Discovery finishes, binding device numbers and registering reservation keys. -/
def execDiscoveryComplete (found : List FoundDevice) (expanders : Nat) (s : State) :
    Host.Outcome State Fault Refusal := settled (doDiscoveryComplete found expanders s)

/-- DEV_RELEASE (R236): MPT_DEV_CMD RELEASE frees the number of an ABSENT or FAILED device. -/
def execDevRelease (by_ : Origin) (s : State) : Host.Outcome State Fault Refusal := settled (doDevRelease by_ 1 s)

/-- MEDIA_COMMAND_TIMEOUT (R243): A media command times out and the port ends it with ABORT TASK. -/
def execMediaCommandTimeout (cmd : Nat) (s : State) : Host.Outcome State Fault Refusal :=
  settled (doMediaCommandTimeout cmd s)

/-- MEDIA_ORDER_COMPLETE (R239): A command issued by a MEDIA or ZONE order completes and ends the order with its
status. -/
def execMediaOrderComplete (sch : Nat) (status : MediaStatus) (data : List Byte) (s : State) :
    Host.Outcome State Fault Refusal := settled (doMediaOrderComplete sch status data s)

/-- SYNC_CACHE_COMPLETE (R240): A SYNCHRONIZE CACHE or FLUSH CACHE EXT completes, making the covered shards durable or
not. -/
def execSyncCacheComplete (dev : Nat) (status : MediaStatus) (s : State) : Host.Outcome State Fault Refusal :=
  settled (doSyncCacheComplete dev status s)

/-- WRITE_FILEMARKS_COMPLETE (R251): A WRITE FILEMARKS with count 0 completes, making tape shards durable or not. -/
def execWriteFilemarksComplete (dev : Nat) (status : MediaStatus) (s : State) : Host.Outcome State Fault Refusal :=
  settled (doWriteFilemarksComplete dev status s)

/-- SCRUB_PACE (R264): A device's scrub pace falls due and the next segment verify is issued. -/
def execScrubPace (dev : Nat) (answer : Option MediaAnswer) (s : State) : Host.Outcome State Fault Refusal :=
  settled (doScrubPace dev answer s)

/-- SCRUB_VERIFY_COMPLETE (R266): A scrub verify completes, posting a scrub-error event on a medium error. -/
def execScrubVerifyComplete (dev : Nat) (status : MediaStatus) (s : State) : Host.Outcome State Fault Refusal :=
  settled (doScrubVerifyComplete dev status s)

/-- MEDIA_EVENT_POST (R267): A media event is written to the event ring once it has room, or discarded beyond 256. -/
def execMediaEventPost (s : State) : Host.Outcome State Fault Refusal := settled (doMediaEventPost s)

/-- INJECT_REORDER_RELEASE (R268): Held media completions are released last-in first-out after PARAM completions or 1
ms. -/
def execInjectReorderRelease (slot : Nat) (s : State) : Host.Outcome State Fault Refusal :=
  settled (doInjectReorderRelease slot s)

/-- SHARD_READ_COMPLETE (R245): A shard read for GATHER or VERIFY completes on the media, and the shard is written to
the restore buffer, retried, or made an erasure. -/
def execShardReadComplete (sch : Nat) (stripe shard : Nat) (status : MediaStatus) (data : List Byte) (s : State) :
    Host.Outcome State Fault Refusal := settled (doShardReadComplete sch stripe shard status data s)

/-- PERSISTENT_RESERVE_COMPLETE (R263): A PERSISTENT RESERVE OUT or IN command that the device issued itself
completes, registering, preempting, marking the device FAILED or passing a holder claim to the claim block. -/
def execPersistentReserveComplete (dev : Nat) (kind : PrKind) (status : MediaStatus) (data : List Byte) (s : State) :
    Host.Outcome State Fault Refusal := settled (doPersistentReserveComplete dev kind status data s)

end Sys2Proof.Machine
end

