-- ==== Sys2Proof/Machine/ExecMemory.lean ====
section
/-!
DEFINITION. The meanings of the commands of the memory, the journal store and the supply: each its effect and what follows by itself.
-/

namespace Sys2Proof.Machine

/-- JOURNAL_CARRY (R300): When JNL_HEAD reaches a live record and slots suffice, the program's live records are copied
to the tail. -/
def execJournalCarry (s : State) : Host.Outcome State Fault Refusal := settled (doJournalCarry s)

/-- MEM_READ (R277): A front end reads a whole line and decodes it as clean, corrected, reconstructed or poisoned. -/
def execMemRead (req : MemClient) (line : Nat) (errs : List SymbolError) (s : State) :
    Host.Outcome State Fault Refusal :=
  if dramLines ≤ line then .fault (.noSuchLine (line * 128)) else settled (doMemRead req line errs s)

/-- MEM_WRITE (R279): A front end writes a line, by read-modify-write for partial writes, refusing partial writes to
poisoned lines. -/
def execMemWrite (req : MemClient) (addr : Nat) (data : List Byte) (s : State) : Host.Outcome State Fault Refusal :=
  if dramSize < addr + data.length then .fault (.noSuchLine addr) else settled (doMemWrite req addr data s)

/-- CHANNEL_TIMEOUT (R282): A channel gives no response for 10 µs and its stripe is marked failed. -/
def execChannelTimeout (stripe channel : Nat) (s : State) : Host.Outcome State Fault Refusal :=
  settled (doChannelTimeout stripe channel s)

/-- FRONT_END_SWITCH_COMPLETE (R274): The next front-end copy takes over and outstanding requests are answered RETRY.
-/
def execFrontEndSwitchComplete (s : State) : Host.Outcome State Fault Refusal := settled (doFrontEndSwitchComplete s)

/-- STRIPE_MARK (R282): MEM_STRIPE_CMD MARK marks a stripe failed. -/
def execStripeMark (by_ : Origin) (stripe : Nat) (s : State) : Host.Outcome State Fault Refusal :=
  settled (doStripeMark by_ (stripeCmdWord 1 stripe) stripe s)

/-- STRIPE_CLEAR (R283): MEM_STRIPE_CMD CLEAR, in MAINTENANCE, clears a stripe mark from the next non-retaining start.
-/
def execStripeClear (by_ : Origin) (stripe : Nat) (s : State) : Host.Outcome State Fault Refusal :=
  settled (doStripeClear by_ (stripeCmdWord 2 stripe) stripe s)

/-- MEM_AGE_PROMOTE (R289): A request that has waited 1.5 µs is promoted ahead of class order. -/
def execMemAgePromote (group : Nat) (s : State) : Host.Outcome State Fault Refusal :=
  settled (doMemAgePromote group s)

/-- REFRESH_DUE (R291): A per-bank refresh falls due, or reaches its postponement limit under PANIC. -/
def execRefreshDue (group : Nat) (s : State) : Host.Outcome State Fault Refusal := settled (doRefreshDue group s)

/-- MR4_POLL (R291): Every 4 ms the controller polls MR4 to set the refresh rate. -/
def execMr4Poll (rates : List Nat) (s : State) : Host.Outcome State Fault Refusal := settled (doMr4Poll rates s)

/-- DQS_OSC_CHECK (R293): Every 100 ms a channel reads its DQS oscillator and retrains if drifted. -/
def execDqsOscCheck (stripe channel drift : Nat) (s : State) : Host.Outcome State Fault Refusal :=
  settled (doDqsOscCheck stripe channel drift s)

/-- CHANNEL_RETRAIN_COMPLETE (R293): A channel's retraining ends and its line group resumes normal decoding. -/
def execChannelRetrainComplete (stripe channel : Nat) (ok : Bool) (s : State) : Host.Outcome State Fault Refusal :=
  settled (doChannelRetrainComplete stripe channel ok s)

/-- PATROL_SCRUB_READ (R295): Patrol scrub reads the next line, writing back corrections and marking new poison. -/
def execPatrolScrubRead (errs : List SymbolError) (s : State) : Host.Outcome State Fault Refusal :=
  settled (doPatrolScrubRead errs s)

/-- MRAM_WRITE_COMPLETE (R297): Both copies of an MRAM block write are written. -/
def execMramWriteComplete (s : State) : Host.Outcome State Fault Refusal := settled (doMramWriteComplete s)

/-- JNL_SCRUB_READ (R306): Journal scrub reads a block's copies, repairing one bad copy or counting a lost block. -/
def execJnlScrubRead (area : MramArea) (block : Nat) (badA badB : Bool) (s : State) :
    Host.Outcome State Fault Refusal := settled (doJnlScrubRead area block badA badB s)

/-- MRAM_DIE_FAIL (R307): An MRAM die stops responding and is marked unusable. -/
def execMramDieFail (die : Nat) (s : State) : Host.Outcome State Fault Refusal := settled (doMramDieFail die s)

/-- SUPPLY_FAULT (R308): 12 V falls below 10.8 V, new MRAM writes are refused and accepted ones complete in both
copies. -/
def execSupplyFault (s : State) : Host.Outcome State Fault Refusal := settled (doSupplyFault s)

/-- DRAM_TRAINING_DONE (R284): DRAM training and initialisation finish or fail on a stripe. -/
def execDramTrainingDone (failedStripes : List Nat) (s : State) : Host.Outcome State Fault Refusal :=
  settled (doDramTrainingDone failedStripes s)

end Sys2Proof.Machine
end

