-- ==== Sys2Proof/Machine/ExecModes.lean ====
section
/-!
DEFINITION. The meanings of the commands of modes, power, management and life: each its effect and what follows by itself.
-/

namespace Sys2Proof.Machine

/-- MEDIA (R603): The MEDIA order checks its command block and buffer and issues a SCSI command to a device. -/
def execOrdMedia (sch : Nat) (block list dataOut : HostRead) (s : State) : Host.Outcome State Fault Refusal :=
  settled (doOrdMedia sch block list dataOut s)

/-- PWR_REQ (R563): A PWR_REQ write requests a domain on, off or clock-stopped. -/
def execPwrReq (by_ : Origin) (v : Nat) (s : State) : Host.Outcome State Fault Refusal := settled (doPwrReq by_ v s)

/-- DOMAIN_POWER_COMPLETE (R567): A domain's power-up or power-down sequence finishes. -/
def execDomainPowerComplete (domain : Nat) (s : State) : Host.Outcome State Fault Refusal :=
  settled (doDomainPowerComplete domain s)

/-- PWR_POD_MHZ_WRITE (R566): A write of PWR_POD_MHZ changes a pod's frequency within 20 µs. -/
def execPwrPodMhzWrite (by_ : Origin) (pod v : Nat) (s : State) : Host.Outcome State Fault Refusal :=
  settled (doPwrPodMhzWrite by_ pod v s)

/-- MOD_RESTART (R561): MOD_CMD RESTART leaves the mode through SPORE, with RETAIN or CLEAR. -/
def execModRestart (by_ : Origin) (retain clear : Bool) (s : State) : Host.Outcome State Fault Refusal :=
  settled (doModRestart by_ (1 + 8 * b2n retain + 16 * b2n clear) retain clear s)

/-- MOD_DORMANT (R578): MOD_CMD DORMANT cleans caches and puts the module in DORMANT. -/
def execModDormant (by_ : Origin) (s : State) : Host.Outcome State Fault Refusal := settled (doModDormant by_ 2 s)

/-- MOD_WAKE (R579): MOD_CMD WAKE wakes a DORMANT module to FROND. -/
def execModWake (by_ : Origin) (s : State) : Host.Outcome State Fault Refusal := settled (doModWake by_ 3 s)

/-- MOD_MAINTENANCE (R560): MOD_CMD MAINTENANCE pauses the VFs and enters MAINTENANCE once they drain. -/
def execModMaintenance (by_ : Origin) (s : State) : Host.Outcome State Fault Refusal :=
  settled (doModMaintenance by_ 4 s)

/-- MAINTENANCE_DRAIN_TIMEOUT (R560): The VFs do not drain within DRAIN_S and the entry is abandoned. -/
def execMaintenanceDrainTimeout (s : State) : Host.Outcome State Fault Refusal :=
  settled (doMaintenanceDrainTimeout s)

/-- MOD_INSTALL (R577): MOD_CMD INSTALL has Tuber verify and write a new envelope set. -/
def execModInstall (by_ : Origin) (set : InstallSet) (s : State) : Host.Outcome State Fault Refusal :=
  settled (doModInstall by_ 5 set s)

/-- WAKE_TIME_REACHED (R579): TIM_NOW reaches MOD_WAKE_TIME and DORMANT wakes. -/
def execWakeTimeReached (s : State) : Host.Outcome State Fault Refusal := settled (doWakeTimeReached s)

/-- WAKE_FAIL (R580): A wake failure returns the module to SPORE as a failed start. -/
def execWakeFail (cause : Nat) (s : State) : Host.Outcome State Fault Refusal := settled (doWakeFail cause s)

/-- SUPPLY_IN_REGULATION (R587): 12 V stays at or above 11.2 V for 2 ms and the module enters SPORE. -/
def execSupplyInRegulation (posId : Nat) (s : State) : Host.Outcome State Fault Refusal :=
  settled (doSupplyInRegulation posId s)

/-- SPORE_READY (R557): SPORE becomes ready and the module enters FIDDLEHEAD or CRUST by MOD_START_COUNT. -/
def execSporeReady (s : State) : Host.Outcome State Fault Refusal := settled (doSporeReady s)

/-- SPORE_RETRY_DELAY (R557): After a failed start, 1 s in SPORE passes before FIDDLEHEAD is entered again. -/
def execSporeRetryDelay (s : State) : Host.Outcome State Fault Refusal := settled (doSporeRetryDelay s)

/-- START_WATCHDOG_EXPIRE (R571): 30 s pass after FIDDLEHEAD entry without FROND or STANDBY and the start fails. -/
def execStartWatchdogExpire (s : State) : Host.Outcome State Fault Refusal := settled (doStartWatchdogExpire s)

/-- START_COUNT_CLEAR (R573): 10 minutes without a break in FROND or STANDBY clear MOD_START_COUNT. -/
def execStartCountClear (s : State) : Host.Outcome State Fault Refusal := settled (doStartCountClear s)

/-- TIM_EPOCH_WRITE (R569): The PF sets TIM_EPOCH, entered as a kind-8 change-log entry. -/
def execTimEpochWrite (by_ : Origin) (v : Nat) (s : State) : Host.Outcome State Fault Refusal :=
  settled (doTimEpochWrite by_ v s)

/-- TIM_SAVE (R568): Every 1 ms TIM_NOW is written to MRAM. -/
def execTimSave (s : State) : Host.Outcome State Fault Refusal := settled (doTimSave s)

/-- SET_ENDPOINT_ID (R581): The MCTP Set Endpoint ID command assigns the endpoint ID. -/
def execSetEndpointId (op eid : Nat) (s : State) : Host.Outcome State Fault Refusal :=
  settled (doSetEndpointId op eid s)

/-- GET_ENDPOINT_ID (R581): The MCTP Get Endpoint ID command returns the endpoint ID. -/
def execGetEndpointId (s : State) : Host.Outcome State Fault Refusal := settled (doGetEndpointId s)

/-- GET_MCTP_VERSION_SUPPORT (R581): The MCTP Get MCTP Version Support command returns supported versions. -/
def execGetMctpVersionSupport (msgType : Nat) (s : State) : Host.Outcome State Fault Refusal :=
  settled (doGetMctpVersionSupport msgType s)

/-- GET_MESSAGE_TYPE_SUPPORT (R581): The MCTP Get Message Type Support command returns types 0x00 and 0x7E. -/
def execGetMessageTypeSupport (s : State) : Host.Outcome State Fault Refusal := settled (doGetMessageTypeSupport s)

/-- GET_VENDOR_DEFINED_MESSAGE_SUPPORT (R581): The MCTP Get Vendor Defined Message Support command returns the Waithen
vendor ID. -/
def execGetVendorDefinedMessageSupport (selector : Nat) (s : State) : Host.Outcome State Fault Refusal :=
  settled (doGetVendorDefinedMessageSupport selector s)

/-- GET_STATUS (R582): The Waithen GET_STATUS command returns mode, cause, count, flags, fault status and power. -/
def execGetStatus (inst : Nat) (data : List Byte) (s : State) : Host.Outcome State Fault Refusal :=
  settled (doGetStatus inst data s)

/-- GET_SENSORS (R582): The Waithen GET_SENSORS command returns input, temperature and guardband readings. -/
def execGetSensors (inst : Nat) (data : List Byte) (s : State) : Host.Outcome State Fault Refusal :=
  settled (doGetSensors inst data s)

/-- REQUEST_MODE (R582): The Waithen REQUEST_MODE command requests DORMANT, FROND or RESTART with origin 7. -/
def execRequestMode (inst : Nat) (data : List Byte) (s : State) : Host.Outcome State Fault Refusal :=
  settled (doRequestMode inst data s)

/-- GET_SPORE (R582): The Waithen GET_SPORE command returns bytes of the SPORE page. -/
def execGetSpore (inst : Nat) (data : List Byte) (s : State) : Host.Outcome State Fault Refusal :=
  settled (doGetSpore inst data s)

/-- RESET_N_ASSERT (R586): RESET_N held low for 1 ms acts as a loss of 12 V. -/
def execResetNAssert (s : State) : Host.Outcome State Fault Refusal := settled (doResetNAssert s)

/-- RESET_N_RELEASE (R586): RESET_N high for 1 ms with 12 V in regulation returns the module to SPORE. -/
def execResetNRelease (s : State) : Host.Outcome State Fault Refusal := settled (doResetNRelease s)

/-- THERMAL_STEP (R593): Every 10 ms above 90 °C pod frequencies fall by 100 MHz, and rise again below 87 °C. -/
def execThermalStep (tj lid island : Nat) (s : State) : Host.Outcome State Fault Refusal :=
  settled (doThermalStep tj lid island s)

/-- AGE_MONITOR_READ (R596): After each powered hour the age monitors are read and island supplies raised as needed.
-/
def execAgeMonitorRead (needs : List (Nat × Nat)) (s : State) : Host.Outcome State Fault Refusal :=
  settled (doAgeMonitorRead needs s)

/-- REFRESH_PASS_COMPLETE (R599): The NAND and MRAM refresh pass completes and PWR_REFRESH records it. -/
def execRefreshPassComplete (s : State) : Host.Outcome State Fault Refusal := settled (doRefreshPassComplete s)

end Sys2Proof.Machine
end

