-- ==== Sys2Proof/Machine/ExecOctip.lean ====
section
/-!
DEFINITION. The meanings of the commands of the Octip rows that reach memory, the I/O space or other units, and the coherent domain: each its effect and what follows by itself.
-/

namespace Sys2Proof.Machine

/-- CORE_START (R311): A core starts at the M core-start vector with cleared registers. -/
def execCoreStart (pod core : Nat) (s : State) : Host.Outcome State Fault Refusal := settled (doCoreStart pod core s)

/-- LD (R370): LD loads from the data space, with .AQ ordering when O is set. -/
def execOpLd (c : OctCtx) (size : Nat) (sx aq : Bool) (d a : Nat) (off : Word) (s : State) :
    Host.Outcome State Fault Refusal := settled (doOpLd c size sx aq d a off s)

/-- ST (R379): ST stores to the data space through the store buffer, with .RL ordering when O is set. -/
def execOpSt (c : OctCtx) (size : Nat) (rl : Bool) (d a : Nat) (off : Word) (s : State) :
    Host.Outcome State Fault Refusal := settled (doOpSt c size rl d a off s)

/-- FLD (R353): FLD loads a binary32 or binary64 value into an f register. -/
def execOpFld (c : OctCtx) (size : Nat) (aq : Bool) (d a : Nat) (off : Word) (s : State) :
    Host.Outcome State Fault Refusal := settled (doOpFld c size aq d a off s)

/-- FST (R353): FST stores an f register as binary32 or binary64. -/
def execOpFst (c : OctCtx) (size : Nat) (rl : Bool) (d a : Nat) (off : Word) (s : State) :
    Host.Outcome State Fault Refusal := settled (doOpFst c size rl d a off s)

/-- JUMP (R330): The guarded JUMP instruction transfers control by a parcel offset. -/
def execOpJump (c : OctCtx) (off : Word) (s : State) : Host.Outcome State Fault Refusal := settled (doOpJump c off s)

/-- CALL (R329): CALL pushes the return address at sp − 8 and transfers. -/
def execOpCall (c : OctCtx) (off : Word) (s : State) : Host.Outcome State Fault Refusal := settled (doOpCall c off s)

/-- JUMPR (R330): JUMPR transfers control to the address in a register. -/
def execOpJumpr (c : OctCtx) (a : Nat) (s : State) : Host.Outcome State Fault Refusal := settled (doOpJumpr c a s)

/-- CALLR (R329): CALLR pushes the return address and transfers to a register address. -/
def execOpCallr (c : OctCtx) (a : Nat) (s : State) : Host.Outcome State Fault Refusal := settled (doOpCallr c a s)

/-- RET (R329): RET pops the return address from sp and transfers. -/
def execOpRet (c : OctCtx) (s : State) : Host.Outcome State Fault Refusal := settled (doOpRet c s)

/-- ERET (R336): ERET restores cr.status from cr.estatus and transfers to cr.epc, entering an enclave when allowed. -/
def execOpEret (c : OctCtx) (s : State) : Host.Outcome State Fault Refusal := settled (doOpEret c s)

/-- FENCE (R375): FENCE performs every earlier access before any later one. -/
def execOpFence (c : OctCtx) (s : State) : Host.Outcome State Fault Refusal := settled (doOpFence c s)

/-- FENCE_C (R376): FENCE.C also waits until earlier stores, OUTs and STIs reach their end points. -/
def execOpFenceC (c : OctCtx) (s : State) : Host.Outcome State Fault Refusal := settled (doOpFenceC c s)

/-- ISYNC (R323): ISYNC waits for earlier STIs and discards fetched but unretired instructions. -/
def execOpIsync (c : OctCtx) (s : State) : Host.Outcome State Fault Refusal := settled (doOpIsync c s)

/-- MCALL (R331): MCALL enters the M vector with the service number. -/
def execOpMcall (c : OctCtx) (service : Nat) (s : State) : Host.Outcome State Fault Refusal :=
  settled (doOpMcall c service s)

/-- BRK (R335): BRK raises a breakpoint exception with its service number. -/
def execOpBrk (c : OctCtx) (service : Nat) (s : State) : Host.Outcome State Fault Refusal :=
  settled (doOpBrk c service s)

/-- WFI (R339): WFI stalls the core until an interrupt is pending. -/
def execOpWfi (c : OctCtx) (s : State) : Host.Outcome State Fault Refusal := settled (doOpWfi c s)

/-- CRR (R312): CRR reads a control register, waiting for earlier flags when it reads cr.astat. -/
def execOpCrr (c : OctCtx) (d k : Nat) (s : State) : Host.Outcome State Fault Refusal := settled (doOpCrr c d k s)

/-- CRW (R313): CRW writes a control register within the limits of the current level. -/
def execOpCrw (c : OctCtx) (k a : Nat) (s : State) : Host.Outcome State Fault Refusal := settled (doOpCrw c k a s)

/-- TLBW (R384): TLBW writes cr.tlbhi and cr.tlblo into a TLB entry chosen by hardware. -/
def execOpTlbw (c : OctCtx) (itlb : Bool) (s : State) : Host.Outcome State Fault Refusal :=
  settled (doOpTlbw c itlb s)

/-- TLBR (R384): TLBR loads cr.tlbhi and cr.tlblo from an indexed TLB entry. -/
def execOpTlbr (c : OctCtx) (itlb : Bool) (a : Nat) (s : State) : Host.Outcome State Fault Refusal :=
  settled (doOpTlbr c itlb a s)

/-- TLBI_A (R384): TLBI.A invalidates entries covering an address with a tag or G set. -/
def execOpTlbiA (c : OctCtx) (itlb : Bool) (a b : Nat) (s : State) : Host.Outcome State Fault Refusal :=
  settled (doOpTlbiA c itlb a b s)

/-- TLBI_T (R384): TLBI.T invalidates every entry with a tag and G clear. -/
def execOpTlbiT (c : OctCtx) (itlb : Bool) (a : Nat) (s : State) : Host.Outcome State Fault Refusal :=
  settled (doOpTlbiT c itlb a s)

/-- TLBI_ALL (R384): TLBI.ALL invalidates every unlocked entry. -/
def execOpTlbiAll (c : OctCtx) (itlb : Bool) (s : State) : Host.Outcome State Fault Refusal :=
  settled (doOpTlbiAll c itlb s)

/-- TLBI_LK (R384): TLBI.LK invalidates every locked entry. -/
def execOpTlbiLk (c : OctCtx) (itlb : Bool) (s : State) : Host.Outcome State Fault Refusal :=
  settled (doOpTlbiLk c itlb s)

/-- IN (R327): IN reads 4 or 8 bytes from an I/O address after grant, range and domain checks. -/
def execOpIn (c : OctCtx) (size d a : Nat) (off : Word) (s : State) : Host.Outcome State Fault Refusal :=
  settled (doOpIn c size d a off s)

/-- OUT (R327): OUT writes 4 or 8 bytes to an I/O address after grant, range and domain checks. -/
def execOpOut (c : OctCtx) (size d a : Nat) (off : Word) (s : State) : Host.Outcome State Fault Refusal :=
  settled (doOpOut c size d a off s)

/-- LDI (R323): LDI reads the instruction space. -/
def execOpLdi (c : OctCtx) (size d a : Nat) (off : Word) (s : State) : Host.Outcome State Fault Refusal :=
  settled (doOpLdi c size d a off s)

/-- STI (R323): STI writes a code region and invalidates the line in every L1I. -/
def execOpSti (c : OctCtx) (size d a : Nat) (off : Word) (s : State) : Host.Outcome State Fault Refusal :=
  settled (doOpSti c size d a off s)

/-- AMO_ADD (R405): AMO ADD adds atomically, near or far, returning the old value. -/
def execAmoAdd (c : OctCtx) (m : AmoOp) (s : State) : Host.Outcome State Fault Refusal := settled (doAmoAdd c m s)

/-- AMO_SWAP (R405): AMO SWAP exchanges atomically. -/
def execAmoSwap (c : OctCtx) (m : AmoOp) (s : State) : Host.Outcome State Fault Refusal := settled (doAmoSwap c m s)

/-- AMO_CAS (R405): AMO CAS stores only when the location equals the expected value. -/
def execAmoCas (c : OctCtx) (m : AmoOp) (cc : Nat) (s : State) : Host.Outcome State Fault Refusal :=
  settled (doAmoCas c m cc s)

/-- AMO_AND (R405): AMO AND ANDs atomically. -/
def execAmoAnd (c : OctCtx) (m : AmoOp) (s : State) : Host.Outcome State Fault Refusal := settled (doAmoAnd c m s)

/-- AMO_OR (R405): AMO OR ORs atomically. -/
def execAmoOr (c : OctCtx) (m : AmoOp) (s : State) : Host.Outcome State Fault Refusal := settled (doAmoOr c m s)

/-- AMO_XOR (R405): AMO XOR XORs atomically. -/
def execAmoXor (c : OctCtx) (m : AmoOp) (s : State) : Host.Outcome State Fault Refusal := settled (doAmoXor c m s)

/-- AMO_MAX (R405): AMO MAX stores the maximum atomically. -/
def execAmoMax (c : OctCtx) (m : AmoOp) (s : State) : Host.Outcome State Fault Refusal := settled (doAmoMax c m s)

/-- AMO_MIN (R405): AMO MIN stores the minimum atomically. -/
def execAmoMin (c : OctCtx) (m : AmoOp) (s : State) : Host.Outcome State Fault Refusal := settled (doAmoMin c m s)

/-- INTERRUPT_TAKE (R339): A pending enabled interrupt is taken at the agreed instruction boundary. -/
def execInterruptTake (pod core : Nat) (s : State) : Host.Outcome State Fault Refusal :=
  settled (doInterruptTake pod core s)

/-- IPI_RAISE (R339): Writing POD_IPI_SET.RAISE sets the inter-core interrupt pending for a core. -/
def execIpiRaise (by_ : Origin) (pod core : Nat) (s : State) : Host.Outcome State Fault Refusal :=
  settled (doIpiRaise by_ pod core s)

/-- TIMECMP_MATCH (R339): TIM_NOW reaches POD_TIMECMP and interrupt source 1 becomes pending. -/
def execTimecmpMatch (pod core : Nat) (s : State) : Host.Outcome State Fault Refusal :=
  settled (doTimecmpMatch pod core s)

/-- COH_MAINT_ADDR_WRITE (R403): Writing COH_MAINT_ADDR sets the range start and COH_MAINT_PROG. -/
def execCohMaintAddrWrite (c : OctCtx) (v : Nat) (s : State) : Host.Outcome State Fault Refusal :=
  settled (doCohMaintAddrWrite c v s)

/-- CLEAN (R402): Maintenance CLEAN writes back dirty copies over the range. -/
def execMtClean (c : OctCtx) (s : State) : Host.Outcome State Fault Refusal := settled (doMtClean c s)

/-- CLEAN_INV (R402): Maintenance CLEAN_INV writes back and invalidates every copy. -/
def execMtCleanInv (c : OctCtx) (s : State) : Host.Outcome State Fault Refusal := settled (doMtCleanInv c s)

/-- INV (R402): Maintenance INV invalidates every copy, discarding dirty data. -/
def execMtInv (c : OctCtx) (s : State) : Host.Outcome State Fault Refusal := settled (doMtInv c s)

/-- ZERO (R402): Maintenance ZERO invalidates and writes whole lines of zeros, clearing poison. -/
def execMtZero (c : OctCtx) (s : State) : Host.Outcome State Fault Refusal := settled (doMtZero c s)

/-- LOCK (R404): Maintenance LOCK fills lines into locked ways of the pod's L2. -/
def execMtLock (c : OctCtx) (s : State) : Host.Outcome State Fault Refusal := settled (doMtLock c s)

/-- UNLOCK (R404): Maintenance UNLOCK returns locked lines to ordinary ways. -/
def execMtUnlock (c : OctCtx) (s : State) : Host.Outcome State Fault Refusal := settled (doMtUnlock c s)

/-- GET_SHARED (R397): A GET-SHARED request is ordered at the home and served, or NACKed in a transient state. -/
def execGetShared (pod line : Nat) (s : State) : Host.Outcome State Fault Refusal := settled (doGetShared pod line s)

/-- GET_EXCLUSIVE (R397): A GET-EXCLUSIVE request is ordered at the home, snooping owners and sharers. -/
def execGetExclusive (pod line : Nat) (s : State) : Host.Outcome State Fault Refusal :=
  settled (doGetExclusive pod line s)

/-- PUT (R400): A PUT write-back reaches the home and is taken as the owner's data. -/
def execPutLine (pod line : Nat) (s : State) : Host.Outcome State Fault Refusal := settled (doPutLine pod line s)

/-- SNOOP (R400): A snoop or back-invalidation arrives at a pod and is answered, EVICTING when crossing a PUT. -/
def execSnoop (pod line : Nat) (s : State) : Host.Outcome State Fault Refusal := settled (doSnoop pod line s)

/-- COH_NACK_RETRY (R398): A NACKed request is retried after 20–80 ns, joining the token queue after 16 NACKs. -/
def execCohNackRetry (pod line : Nat) (s : State) : Host.Outcome State Fault Refusal :=
  settled (doCohNackRetry pod line s)

/-- COH_AGENT_TIMEOUT (R408): An agent does not answer a coherence message within 100 µs and is dead. -/
def execCohAgentTimeout (agent : Nat) (s : State) : Host.Outcome State Fault Refusal :=
  settled (doCohAgentTimeout agent s)

/-- CORE_DOMAIN_RESTART (R409): A core-domain restart freezes pods, clears arrays without write-back, checks code
region 0 and restarts every core. -/
def execCoreDomainRestart (regionOk : Bool) (s : State) : Host.Outcome State Fault Refusal :=
  settled (doCoreDomainRestart regionOk s)

/-- CACHE_SCRUB (R391): Cache scrub reads the L2, L3 and directory arrays, correcting or reporting. -/
def execCacheScrub (array : CacheArray) (outcome : ScrubOutcome) (s : State) : Host.Outcome State Fault Refusal :=
  settled (doCacheScrub array outcome s)

/-- LOCKSTEP_MISMATCH (R417): The comparators report a mismatch on a lane, starting a retry or a hard fault. -/
def execLockstepMismatch (pod lanes retire : Nat) (checkpointBad : Bool) (s : State) :
    Host.Outcome State Fault Refusal := settled (doLockstepMismatch pod lanes retire checkpointBad s)

/-- COMPARATOR_FAULT (R418): Comparators disagree or give a non-code output, a hard fault without retry. -/
def execComparatorFault (pod : Nat) (s : State) : Host.Outcome State Fault Refusal :=
  settled (doComparatorFault pod s)

/-- RETRY_SUCCESS (R424): The pair passes the divergent retirement by 256 retirements and the retry succeeds. -/
def execRetrySuccess (pod : Nat) (s : State) : Host.Outcome State Fault Refusal := settled (doRetrySuccess pod s)

/-- SPARING_TIMEOUT (R429): The failing pod's drain or write-back misses its limit and its L2 is a dead agent. -/
def execSparingTimeout (pod : Nat) (s : State) : Host.Outcome State Fault Refusal := settled (doSparingTimeout pod s)

/-- SPARING_COMPLETE (R428): The spare fetches from the checkpoint address and the failing pod is marked FAILED. -/
def execSparingComplete (pod : Nat) (s : State) : Host.Outcome State Fault Refusal :=
  settled (doSparingComplete pod s)

/-- FILL_DATA (R401): Fill data from the home arrives at the requesting pod and completes the waiting access,
installing the line unless the fill is marked NOINSTALL. -/
def execFillData (pod line : Nat) (s : State) : Host.Outcome State Fault Refusal := settled (doFillData pod line s)

/-- PUT_ACK (R400): A PUT-ACK from the home reaches the evicting pod and the line leaves EVICTING. -/
def execPutAck (pod line : Nat) (s : State) : Host.Outcome State Fault Refusal := settled (doPutAck pod line s)

/-- SNOOP_ANSWER (R400): A pod's answer or acknowledgement to a snoop, back-invalidation or invalidate reaches the
home, which completes the waiting request or maintenance operation. -/
def execSnoopAnswer (pod line : Nat) (s : State) : Host.Outcome State Fault Refusal :=
  settled (doSnoopAnswer pod line s)

end Sys2Proof.Machine
end

