-- ==== Sys2Proof/Machine/ExecPair.lean ====
section
/-!
DEFINITION. The meanings of the commands of the redundant pair: each its effect and what follows by itself.
-/

namespace Sys2Proof.Machine

/-- MIRROR_MESSAGE (R521): A PAIR mirror message is written to both MRAM copies on the standby and then acknowledged.
-/
def execMirrorMessage (src seq : Nat) (m : MirrorItem) (s : State) : Host.Outcome State Fault Refusal :=
  settled (doMirrorMessage src seq m s)

/-- HEARTBEAT_SEND (R520): Every 100 µs a member sends a heartbeat frame. -/
def execHeartbeatSend (s : State) : Host.Outcome State Fault Refusal := settled (doHeartbeatSend s)

/-- HEARTBEAT_RECEIVE (R520): A valid heartbeat frame updates the peer claim and flags. -/
def execHeartbeatReceive (frame : List Byte) (s : State) : Host.Outcome State Fault Refusal :=
  settled (doHeartbeatReceive frame s)

/-- HEARTBEAT_LOSS (R520): No valid heartbeat frame for 1 ms sets HB_LOST. -/
def execHeartbeatLoss (s : State) : Host.Outcome State Fault Refusal := settled (doHeartbeatLoss s)

/-- TAKEOVER_CONFIRM (R524): Within 5 ms of heartbeat loss the standby confirms takeover and takes a new claim. -/
def execTakeoverConfirm (s : State) : Host.Outcome State Fault Refusal := settled (doTakeoverConfirm s)

/-- TAKEOVER_COMPLETE (R526): Preemption and replay are done and the survivor enters FROND with gates open. -/
def execTakeoverComplete (s : State) : Host.Outcome State Fault Refusal := settled (doTakeoverComplete s)

/-- ISOLATION_CHECK (R525): After FENCE_MS the active member reads a drive reservation to run detached or be
outclaimed. -/
def execIsolationCheck (holder : Option Nat) (s : State) : Host.Outcome State Fault Refusal :=
  settled (doIsolationCheck holder s)

/-- CLM_TAKEOVER (R527): CLM_CMD TAKEOVER starts takeover on an in-step standby. -/
def execClmTakeover (by_ : Origin) (s : State) : Host.Outcome State Fault Refusal := settled (doClmTakeover by_ 1 s)

/-- FORCE_ACTIVE (R519): CLM_CMD FORCE_ACTIVE makes a waiting member active and preempts every drive. -/
def execForceActive (by_ : Origin) (s : State) : Host.Outcome State Fault Refusal := settled (doForceActive by_ 2 s)

/-- DETACH (R524): CLM_CMD DETACH makes the active member run detached. -/
def execClmDetach (by_ : Origin) (s : State) : Host.Outcome State Fault Refusal := settled (doClmDetach by_ 3 s)

/-- RESYNC (R522): CLM_CMD RESYNC starts resynchronisation of the standby. -/
def execClmResync (by_ : Origin) (s : State) : Host.Outcome State Fault Refusal := settled (doClmResync by_ 4 s)

/-- RESYNC_COMPLETE (R522): The copy completes and the configuration digests decide IN_STEP or CFG_MISMATCH. -/
def execResyncComplete (peerDigest : List Byte) (s : State) : Host.Outcome State Fault Refusal :=
  settled (doResyncComplete peerDigest s)

/-- SWITCHBACK (R529): CLM_SWITCHBACK.GO stops controls, waits for acknowledged mirroring and sends YIELD. -/
def execSwitchback (by_ : Origin) (s : State) : Host.Outcome State Fault Refusal := settled (doSwitchback by_ 1 s)

end Sys2Proof.Machine
end

