-- ==== Sys2Proof/Machine/ExecPods.lean ====
section
/-!
DEFINITION. The meanings of the commands of pods and the fault collector: each its effect and what follows by itself.
-/

namespace Sys2Proof.Machine

/-- POD_SPLIT (R434): POD_CMD SPLIT ends lockstep of a worker pod and starts core 1 at POD_SPLIT_ENTRY. -/
def execPodSplit (by_ : Origin) (pod : Nat) (s : State) : Host.Outcome State Fault Refusal :=
  settled (doPodSplit by_ pod s)

/-- POD_PARK (R435): POD_CMD PARK writes back core 1's L1D and stops it parked. -/
def execPodPark (by_ : Origin) (pod : Nat) (s : State) : Host.Outcome State Fault Refusal :=
  settled (doPodPark by_ pod s)

/-- POD_CHECK (R435): POD_CMD CHECK copies core 0's state to core 1 and starts lockstep. -/
def execPodCheck (by_ : Origin) (pod : Nat) (parityOk : Bool) (s : State) : Host.Outcome State Fault Refusal :=
  settled (doPodCheck by_ pod parityOk s)

/-- WARM_RESTART (R431): POD_CMD WARM_RESTART restarts both cores of a pod at POD_RESTART_ENTRY. -/
def execWarmRestart (by_ : Origin) (pod : Nat) (s : State) : Host.Outcome State Fault Refusal :=
  settled (doWarmRestart by_ pod s)

/-- FAULT_EVENT (R446): An error pin reports a CE or UE, which is latched, levelled and given its reaction. -/
def execFaultEvent (ev : FaultIn) (s : State) : Host.Outcome State Fault Refusal := settled (doFaultEvent ev s)

/-- REGION_RESTART_COMPLETE (R448): A region's level-2 restart finishes within its bound. -/
def execRegionRestartComplete (region : Region) (s : State) : Host.Outcome State Fault Refusal :=
  settled (doRegionRestartComplete region s)

/-- FLT_ACK (R445): Writing FLT_ACK bits acknowledges sources and clears their status and pending levels. -/
def execFltAck (by_ : Origin) (mask : Nat) (s : State) : Host.Outcome State Fault Refusal :=
  settled (doFltAck by_ mask s)

/-- FLT_CAPTURE_REARM (R452): Writing 1 to FLT_FIRST_TYPE.VALID re-arms the first-error capture. -/
def execFltCaptureRearm (by_ : Origin) (s : State) : Host.Outcome State Fault Refusal :=
  settled (doFltCaptureRearm by_ s)

/-- FLT_INJECT (R455): Writing FLT_INJECT.GO in MAINTENANCE drives a source's pin once. -/
def execFltInject (by_ : Origin) (v : Nat) (s : State) : Host.Outcome State Fault Refusal :=
  settled (doFltInject by_ v s)

/-- COLLECTOR_HEARTBEAT_MISS (R454): A collector copy misses its 100 µs heartbeat or disagrees and is taken out. -/
def execCollectorHeartbeatMiss (copyB : Bool) (s : State) : Host.Outcome State Fault Refusal :=
  settled (doCollectorHeartbeatMiss copyB s)

/-- SELFTEST_DONE (R437): The comparator self-test finishes and logical pods are assigned. -/
def execSelftestDone (failedPods : List Nat) (s : State) : Host.Outcome State Fault Refusal :=
  settled (doSelftestDone failedPods s)

end Sys2Proof.Machine
end

