-- ==== Sys2Proof/Machine/ExecRing.lean ====
section
/-!
DEFINITION. The meanings of the commands of the ring: each its effect and what follows by itself.
-/

namespace Sys2Proof.Machine

/-- RING_FRAME_RECEIVE (R474): A ring port receives a whole frame, checks it and forwards, delivers or drops it. -/
def execRingFrameReceive (port : Nat) (f : Frame) (crcOk hdrOk : Bool) (s : State) :
    Host.Outcome State Fault Refusal := settled (doRingFrameReceive port f crcOk hdrOk s)

/-- ACK (R477): A received ACK frame releases covered messages of a flow. -/
def execRingAck (src cls cum bitmap : Nat) (s : State) : Host.Outcome State Fault Refusal :=
  settled (doRingAck src cls cum bitmap s)

/-- CLAIM_NACK (R482): A received CLAIM-NACK fails the message and passes the higher claim to the claim block. -/
def execClaimNack (src cls claim seq : Nat) (s : State) : Host.Outcome State Fault Refusal :=
  settled (doClaimNack src cls claim seq s)

/-- ANNOUNCE (R471): A received ANNOUNCE updates the node list and the duplicate-address check. -/
def execRingAnnounce (src mode serial pairId claim session : Nat) (s : State) : Host.Outcome State Fault Refusal :=
  settled (doRingAnnounce src mode serial pairId claim session s)

/-- ANNOUNCE_TICK (R471): Every 1 ms an inserted node sends an ANNOUNCE both ways. -/
def execAnnounceTick (s : State) : Host.Outcome State Fault Refusal := settled (doAnnounceTick s)

/-- NODE_LIST_TIMEOUT (R471): A node not heard for 3 ms leaves the node list. -/
def execNodeListTimeout (node : Nat) (s : State) : Host.Outcome State Fault Refusal :=
  settled (doNodeListTimeout node s)

/-- LEAVE (R465): A received LEAVE removes the node from the list and wraps toward it. -/
def execRingLeave (src port : Nat) (s : State) : Host.Outcome State Fault Refusal := settled (doRingLeave src port s)

/-- CLAIM (R481): A CONTROL CLAIM frame announces a new claim. -/
def execRingClaim (src pairId claim : Nat) (s : State) : Host.Outcome State Fault Refusal :=
  settled (doRingClaim src pairId claim s)

/-- REMOVE (R465): A CONTROL REMOVE frame makes a node of the same pair id leave the ring. -/
def execRingRemove (src pairId : Nat) (s : State) : Host.Outcome State Fault Refusal :=
  settled (doRingRemove src pairId s)

/-- REMOTE_RESET (R483): A REMOTE RESET ends the executing node's programs of a reset function. -/
def execRemoteReset (h : RemoteHdr) (gen : Nat) (s : State) : Host.Outcome State Fault Refusal :=
  settled (doRemoteReset h gen s)

/-- FRAME_TRANSMIT (R475): A node starts a frame once it holds credit for all of it. -/
def execFrameTransmit (port : Nat) (s : State) : Host.Outcome State Fault Refusal := settled (doFrameTransmit port s)

/-- CREDIT_RETURN (R475): Credit returns arrive in idle control blocks. -/
def execCreditReturn (port cls units : Nat) (s : State) : Host.Outcome State Fault Refusal :=
  settled (doCreditReturn port cls units s)

/-- RETX_TIMEOUT (R477): A try of a message goes 50 µs without an ACK and it is sent again with RETX. -/
def execRetxTimeout (dst cls seq : Nat) (s : State) : Host.Outcome State Fault Refusal :=
  settled (doRetxTimeout dst cls seq s)

/-- PORT_LOSS (R469): A ring port detects loss of light or alignment and the node wraps at it. -/
def execPortLoss (port : Nat) (s : State) : Host.Outcome State Fault Refusal := settled (doPortLoss port s)

/-- UNWRAP (R469): A lost span stays locked for 2 ms and the node unwraps. -/
def execPortUnwrap (port : Nat) (s : State) : Host.Outcome State Fault Refusal := settled (doPortUnwrap port s)

/-- SPAN_LOCK_TIMEOUT (R468): A span does not lock within 10 ms and is treated as broken. -/
def execSpanLockTimeout (port : Nat) (s : State) : Host.Outcome State Fault Refusal :=
  settled (doSpanLockTimeout port s)

/-- LOOPBACK_TEST_COMPLETE (R464): The bypass loopback test ends, inserting the node or setting TEST_FAIL. -/
def execLoopbackTestComplete (passW passE : Bool) (s : State) : Host.Outcome State Fault Refusal :=
  settled (doLoopbackTestComplete passW passE s)

/-- MEMS_POSITION_CHECK (R466): 10 ms after a command the sensed MEMS position is compared with the commanded one. -/
def execMemsPositionCheck (sensedBypass : Bool) (s : State) : Host.Outcome State Fault Refusal :=
  settled (doMemsPositionCheck sensedBypass s)

/-- RNG_INSERT_WRITE (R465): A write of RNG_CTL.INSERT makes the node leave with a LEAVE or start insertion. -/
def execRngInsertWrite (by_ : Origin) (v : Nat) (s : State) : Host.Outcome State Fault Refusal :=
  settled (doRngInsertWrite by_ v s)

/-- LEAVE_BYPASS (R465): 1 ms after its LEAVE the node switches to bypass. -/
def execLeaveBypass (s : State) : Host.Outcome State Fault Refusal := settled (doLeaveBypass s)

/-- RING_INJECT_RELEASE (R485): A frame held by a REORDER or DELAY slot is released. -/
def execRingInjectRelease (slot : Nat) (s : State) : Host.Outcome State Fault Refusal :=
  settled (doRingInjectRelease slot s)

/-- RING_LOCK_DONE (R464): The ring-lock step ends and the role is decided. -/
def execRingLockDone (failPort : Option Nat) (peerKeyAbove : Bool) (s : State) : Host.Outcome State Fault Refusal :=
  settled (doRingLockDone failPort peerKeyAbove s)

end Sys2Proof.Machine
end

