-- ==== Sys2Proof/Machine/ExecStream.lean ====
section
/-!
DEFINITION. The meanings of the commands of the data path, channel programs, subchannels and the CHUNK stream: each its effect and what follows by itself.
-/

namespace Sys2Proof.Machine

/-- REGISTER_WRITE (R8): A write by a core, the host or the debug port to a device register that has no row of its
own, applied according to its access code. -/
def execRegisterWrite (by_ : Origin) (addr size v : Nat) (s : State) : Host.Outcome State Fault Refusal :=
  settled (doRegisterWrite by_ addr size v s)

/-- LOW_HALF_READ_LATCH (R11): A 32-bit read of the low half of a 64-bit register through PF BAR0 latches the high
half for the same requester. -/
def execLowHalfRead (by_ : Origin) (addr : Nat) (s : State) : Host.Outcome State Fault Refusal :=
  settled (doLowHalfRead by_ addr s)

/-- HOST_READ_ISSUE (R41): The host port issues a memory read once completion space is reserved in the CHUNK input
FIFO. -/
def execHostReadIssue (sch len : Nat) (s : State) : Host.Outcome State Fault Refusal :=
  settled (doHostReadIssue sch len s)

/-- HOST_READ_COMPLETION (R41): Completion data of a host memory read arrives and enters the reserved CHUNK input FIFO
space. -/
def execHostReadCompletion (sch : Nat) (data : HostRead) (s : State) : Host.Outcome State Fault Refusal :=
  settled (doHostReadCompletion sch data s)

/-- EPB_START (R36): Writing ENG_EPB_CTL.START clears the counters and flags and opens an energy window. -/
def execEpbStart (by_ : Origin) (s : State) : Host.Outcome State Fault Refusal := settled (doEpbStart by_ s)

/-- EPB_STOP (R36): Writing ENG_EPB_CTL.STOP closes the energy window and computes ENG_EPB_RESULT. -/
def execEpbStop (by_ : Origin) (uj : Nat) (s : State) : Host.Outcome State Fault Refusal :=
  settled (doEpbStop by_ uj s)

/-- EPB_CAL (R36): Writing ENG_EPB_CTL.CAL starts a 100 ms idle calibration. -/
def execEpbCal (by_ : Origin) (s : State) : Host.Outcome State Fault Refusal := settled (doEpbCal by_ s)

/-- EPB_CAL_DONE (R36): The 100 ms calibration ends and sets CAL_VALID, or clears it if traffic occurred. -/
def execEpbCalDone (traffic : Bool) (mw : Nat) (s : State) : Host.Outcome State Fault Refusal :=
  settled (doEpbCalDone traffic mw s)

/-- EPB_LIVE_UPDATE (R36): Every 100 ms ENG_EPB_LIVE is recomputed over the last second. -/
def execEpbLiveUpdate (bytes uj : Nat) (s : State) : Host.Outcome State Fault Refusal :=
  settled (doEpbLiveUpdate bytes uj s)

/-- STRIPE_BUFFER_GRANT (R44): A waiting stripe-buffer request is granted in request order, passing over programs at
their one-eighth share. -/
def execStripeBufferGrant (s : State) : Host.Outcome State Fault Refusal := settled (doStripeBufferGrant s)

/-- DOORBELL_WRITE (R107): A 16-byte write to a function's doorbell page enters its control FIFO, or is discarded and
counted in CSS_CTL_LOST. -/
def execDoorbellWrite (fn off : Nat) (data : List Byte) (s : State) : Host.Outcome State Fault Refusal :=
  settled (doDoorbellWrite fn off data s)

/-- START (R113): A START control journals a START record and moves an IDLE subchannel to START PENDING, or is refused
with a condition code. -/
def execCtlStart (fn : Nat) (s : State) : Host.Outcome State Fault Refusal := settled (doCtlStart fn s)

/-- HALT (R115): A HALT control journals a HALTREQ and stops the program at the end of the running order. -/
def execCtlHalt (fn : Nat) (s : State) : Host.Outcome State Fault Refusal := settled (doCtlHalt fn s)

/-- CLEAR (R116): A CLEAR control journals a HALTREQ and ends the program without waiting for an order boundary. -/
def execCtlClear (fn : Nat) (s : State) : Host.Outcome State Fault Refusal := settled (doCtlClear fn s)

/-- RESUME (R92): A RESUME control wakes a pending WAIT of kind 2, or is answered with reason 0x0505. -/
def execCtlResume (fn : Nat) (s : State) : Host.Outcome State Fault Refusal := settled (doCtlResume fn s)

/-- TEST (R112): A TEST control replies with the subchannel's state code. -/
def execCtlTest (fn : Nat) (s : State) : Host.Outcome State Fault Refusal := settled (doCtlTest fn s)

/-- CONTROL_WORD_INVALID (R114): A control word with an invalid control value, non-zero reserved bytes or an unowned
subchannel is answered with condition code 3. -/
def execControlWordInvalid (fn : Nat) (s : State) : Host.Outcome State Fault Refusal :=
  settled (doControlWordInvalid fn s)

/-- ENGINE_SLOT_GRANT (R120): A program in START PENDING is given to the order engine with the fewest active programs
once a slot is free within MAX_ACTIVE. -/
def execEngineSlotGrant (sch : Nat) (s : State) : Host.Outcome State Fault Refusal :=
  settled (doEngineSlotGrant sch s)

/-- ORDER_FETCH (R52): The order engine fetches up to 8 orders ahead along the NEXT chain and checks each before it
runs. -/
def execOrderFetch (sch : Nat) (data : HostRead) (s : State) : Host.Outcome State Fault Refusal :=
  settled (doOrderFetch sch data s)

/-- INGEST (R79): The INGEST order reads archive data from its buffer through the selected stages into stripe buffers.
-/
def execOrdIngest (sch : Nat) (list : HostRead) (s : State) : Host.Outcome State Fault Refusal :=
  settled (doOrdIngest sch list s)

/-- CHUNK (R47): The CHUNK order sets minimum, average and maximum chunk sizes and cuts the open chunk. -/
def execOrdChunk (sch : Nat) (s : State) : Host.Outcome State Fault Refusal := settled (doOrdChunk sch s)

/-- SPREAD (R82): The SPREAD order sets k, m, shard unit and placement block for the stripes that follow. -/
def execOrdSpread (sch : Nat) (block : HostRead) (s : State) : Host.Outcome State Fault Refusal :=
  settled (doOrdSpread sch block s)

/-- DIGEST (R83): The DIGEST order selects object digests and their result area. -/
def execOrdDigest (sch : Nat) (s : State) : Host.Outcome State Fault Refusal := settled (doOrdDigest sch s)

/-- COMMIT (R84): The COMMIT order closes the object, brings its stripes to quorum, journals them and writes the map
and digests. -/
def execOrdCommit (sch : Nat) (s : State) : Host.Outcome State Fault Refusal := settled (doOrdCommit sch s)

/-- GATHER (R88): The GATHER order checks an object map for the following EMIT or VERIFY. -/
def execOrdGather (sch : Nat) (map : HostRead) (s : State) : Host.Outcome State Fault Refusal :=
  settled (doOrdGather sch map s)

/-- EMIT (R87): The EMIT order delivers an object's bytes from a logical offset through GATHER, UNSEAL and UNPACK. -/
def execOrdEmit (sch : Nat) (list : HostRead) (digFault : Bool) (s : State) : Host.Outcome State Fault Refusal :=
  settled (doOrdEmit sch list digFault s)

/-- JUMP_ORDER (R51): The JUMP order transfers the program to another order address. -/
def execOrdJump (sch : Nat) (s : State) : Host.Outcome State Fault Refusal := settled (doOrdJump sch s)

/-- BRANCH (R91): The BRANCH order transfers the program when its condition holds. -/
def execOrdBranch (sch : Nat) (s : State) : Host.Outcome State Fault Refusal := settled (doOrdBranch sch s)

/-- WAIT (R92): The WAIT order holds the program for an interval, until a time or until RESUME. -/
def execOrdWait (sch : Nat) (s : State) : Host.Outcome State Fault Refusal := settled (doOrdWait sch s)

/-- WAIT_EXPIRE (R92): A WAIT's interval, target time or timeout is reached and the program continues. -/
def execWaitExpire (sch : Nat) (s : State) : Host.Outcome State Fault Refusal := settled (doWaitExpire sch s)

/-- NOTE (R68): The NOTE order posts a status word with NOTE set and its value in the residual. -/
def execOrdNote (sch : Nat) (s : State) : Host.Outcome State Fault Refusal := settled (doOrdNote sch s)

/-- CALL_CORE (R93): The CALL-CORE order passes a call to firmware and waits for its 16-bit result. -/
def execOrdCallCore (sch : Nat) (arg : HostRead) (s : State) : Host.Outcome State Fault Refusal :=
  settled (doOrdCallCore sch arg s)

/-- END (R49): The END order ends the program, which writes its FINAL record. -/
def execOrdEnd (sch : Nat) (s : State) : Host.Outcome State Fault Refusal := settled (doOrdEnd sch s)

/-- CALL_POST (R95): A call takes a free slot and its entry is posted at CSS_CALL_CTL.PROD once a slot is free and
ENABLE is 1. -/
def execCallPost (sch : Nat) (s : State) : Host.Outcome State Fault Refusal := settled (doCallPost sch s)

/-- CALL_ANSWER (R97): A write of CSS_CALL_ANS with GO submits a firmware result, copies back results and frees the
slot, or is ignored. -/
def execCallAnswer (by_ : Origin) (v : Nat) (s : State) : Host.Outcome State Fault Refusal :=
  settled (doCallAnswer by_ v s)

/-- CALL_CORE_TIMEOUT (R93): The CALL-CORE timeout expires and the program ends with FAIL 0x0210. -/
def execCallCoreTimeout (sch : Nat) (s : State) : Host.Outcome State Fault Refusal :=
  settled (doCallCoreTimeout sch s)

/-- COH_READY (R99): Writing COH_CTL.READY resets the call ring and redelivers unanswered calls, and releases held
firmware interrupts. -/
def execCohReady (by_ : Origin) (s : State) : Host.Outcome State Fault Refusal := settled (doCohReady by_ s)

/-- CLEAR_DRAINED (R116): The media commands of a cleared program complete and its buffers are free, so it ends with
STOP 0x0502. -/
def execClearDrained (sch : Nat) (s : State) : Host.Outcome State Fault Refusal := settled (doClearDrained sch s)

/-- STATUS_WORD_POST (R124): A status word and its tail index are written to a completion queue once it has room. -/
def execStatusWordPost (fn cq : Nat) (s : State) : Host.Outcome State Fault Refusal :=
  settled (doStatusWordPost fn cq s)

/-- JOURNAL_RECORD_DURABLE (R130): Both copies of a journal record are written, releasing the actions that depend on
it. -/
def execJournalRecordDurable (s : State) : Host.Outcome State Fault Refusal := settled (doJournalRecordDurable s)

/-- RETIRE_RECORD_WRITE (R134): Within RETIRE_DELAY of a head advance a RETIRE record is written. -/
def execRetireRecordWrite (fn cq : Nat) (s : State) : Host.Outcome State Fault Refusal :=
  settled (doRetireRecordWrite fn cq s)

/-- CONTEXT_AGE_TICK (R125): Every AGE_TICK µs the context cache ages all its entries. -/
def execContextAgeTick (s : State) : Host.Outcome State Fault Refusal := settled (doContextAgeTick s)

/-- CONTEXT_FILL (R127): Both lines of a missed context block arrive and the blocked order engine continues. -/
def execContextFill (sch : Nat) (s : State) : Host.Outcome State Fault Refusal := settled (doContextFill sch s)

/-- JOURNAL_REPLAY (R135): Replay reconciles journal slots, re-posts replies and finals with REPOST and posts the
recovery-complete notice. -/
def execJournalReplay (s : State) : Host.Outcome State Fault Refusal := settled (doJournalReplay s)

/-- REDRIVE_START (R138): A program in REDRIVE resumes from its checkpoint, rebuilding its stage set from STAGE
records. -/
def execRedriveStart (sch : Nat) (s : State) : Host.Outcome State Fault Refusal := settled (doRedriveStart sch s)

/-- FUNCTION_RESET (R145): A function reset writes a RESET record, advances the generation and puts the function's
subchannels in RESETTING. -/
def execFunctionReset (fn : Nat) (clearQueues : Bool) (s : State) : Host.Outcome State Fault Refusal :=
  settled (doFunctionReset fn clearQueues s)

/-- FUNCTION_RESET_COMPLETE (R147): The engines finish their blocks, old-generation programs get unposted FINAL
records and the subchannels become IDLE. -/
def execFunctionResetComplete (fn : Nat) (s : State) : Host.Outcome State Fault Refusal :=
  settled (doFunctionResetComplete fn s)

/-- SCH_ASSIGN (R104): CSS_SCH_CMD OP 1 assigns a range of subchannels to a function. -/
def execSchAssign (by_ : Origin) (s : State) : Host.Outcome State Fault Refusal := settled (doSchAssign by_ 1 s)

/-- SCH_RELEASE (R105): CSS_SCH_CMD OP 2 releases a range of IDLE subchannels to the pool. -/
def execSchRelease (by_ : Origin) (s : State) : Host.Outcome State Fault Refusal := settled (doSchRelease by_ 2 s)

/-- STREAM_PLACE_GRANT (R156): A program waiting for a CHUNK stream place takes a freed place in waiting order. -/
def execStreamPlaceGrant (s : State) : Host.Outcome State Fault Refusal := settled (doStreamPlaceGrant s)

/-- CHUNK_INPUT_DATA (R151): Input bytes pass through a CHUNK lane, which updates the rolling hash and CRC. -/
def execChunkInputData (sch n : Nat) (s : State) : Host.Outcome State Fault Refusal :=
  settled (doChunkInputData sch n s)

/-- REMOTE_START (R101): A REMOTE START message starts a program on the executing node. -/
def execRemoteStart (h : RemoteHdr) (addr : Nat) (s : State) : Host.Outcome State Fault Refusal :=
  settled (doRemoteStart h addr s)

/-- REMOTE_CONTROL (R101): A REMOTE CONTROL message carries HALT, CLEAR or RESUME to the executing node. -/
def execRemoteControl (h : RemoteHdr) (ctl tag : Nat) (s : State) : Host.Outcome State Fault Refusal :=
  settled (doRemoteControl h ctl tag s)

/-- REMOTE_READ (R101): A REMOTE READ asks the attached node to read host memory. -/
def execRemoteRead (h : RemoteHdr) (data : HostRead) (s : State) : Host.Outcome State Fault Refusal :=
  settled (doRemoteRead h data s)

/-- READ_DATA (R101): A REMOTE READ-DATA message returns host data to the executing node. -/
def execReadData (h : RemoteHdr) (data : HostRead) (s : State) : Host.Outcome State Fault Refusal :=
  settled (doReadData h data s)

/-- REMOTE_WRITE (R101): A REMOTE WRITE message carries data for host memory to the attached node. -/
def execRemoteWrite (h : RemoteHdr) (bulk : Bool) (data : List Byte) (s : State) : Host.Outcome State Fault Refusal :=
  settled (doRemoteWrite h bulk data s)

/-- REMOTE_STATUS (R103): A REMOTE STATUS message carries a status word for posting on the attached node. -/
def execRemoteStatus (h : RemoteHdr) (word : List Byte) (s : State) : Host.Outcome State Fault Refusal :=
  settled (doRemoteStatus h word s)

/-- QUERY (R143): A REMOTE QUERY asks whether a final was posted for a token. -/
def execRemoteQuery (h : RemoteHdr) (s : State) : Host.Outcome State Fault Refusal := settled (doRemoteQuery h s)

/-- ANSWER (R143): A REMOTE ANSWER tells the executing node whether a final was posted. -/
def execRemoteAnswer (h : RemoteHdr) (posted : Bool) (s : State) : Host.Outcome State Fault Refusal :=
  settled (doRemoteAnswer h posted s)

end Sys2Proof.Machine
end

