-- ==== Sys2Proof/Machine/ExecTrust.lean ====
section
/-!
DEFINITION. The meanings of the commands of Tuber, the change log and debug: each its effect and what follows by itself.
-/

namespace Sys2Proof.Machine

/-- ATTEST (R541): The ATTEST service returns a signed attestation report. -/
def execTmbAttest (s : State) : Host.Outcome State Fault Refusal := settled (doTmbAttest s)

/-- CERTS (R539): The CERTS service returns the DeviceID and alias certificates. -/
def execTmbCerts (s : State) : Host.Outcome State Fault Refusal := settled (doTmbCerts s)

/-- RANDOM (R531): The RANDOM service returns DRBG bytes, or RETRY while health tests fail. -/
def execTmbRandom (s : State) : Host.Outcome State Fault Refusal := settled (doTmbRandom s)

/-- KEY_CREATE (R543): KEY_CREATE draws a data key, allocates a handle and returns its wrapped blob. -/
def execTmbKeyCreate (s : State) : Host.Outcome State Fault Refusal := settled (doTmbKeyCreate s)

/-- KEY_IMPORT (R543): KEY_IMPORT unwraps a blob and allocates a new handle. -/
def execTmbKeyImport (s : State) : Host.Outcome State Fault Refusal := settled (doTmbKeyImport s)

/-- KEY_REVOKE (R545): KEY_REVOKE moves a handle to revoking and later revoked. -/
def execTmbKeyRevoke (s : State) : Host.Outcome State Fault Refusal := settled (doTmbKeyRevoke s)

/-- KEK_PROVISION (R542): KEK_PROVISION loads a KEK into a slot in MAINTENANCE. -/
def execTmbKekProvision (s : State) : Host.Outcome State Fault Refusal := settled (doTmbKekProvision s)

/-- FUSE_SLOT (R536): FUSE_SLOT programs an owner key slot's hash. -/
def execTmbFuseSlot (s : State) : Host.Outcome State Fault Refusal := settled (doTmbFuseSlot s)

/-- FUSE_REVOKE (R536): FUSE_REVOKE blows an owner slot's revocation fuse. -/
def execTmbFuseRevoke (s : State) : Host.Outcome State Fault Refusal := settled (doTmbFuseRevoke s)

/-- ROLLBACK (R537): ROLLBACK raises the anti-rollback value, mirror first. -/
def execTmbRollback (s : State) : Host.Outcome State Fault Refusal := settled (doTmbRollback s)

/-- DEBUG_KILL (R556): The DEBUG_KILL service blows the DEBUG_KILL fuse. -/
def execTmbDebugKill (s : State) : Host.Outcome State Fault Refusal := settled (doTmbDebugKill s)

/-- TMB_KICK (R547): Tuber writes TMB_KICK to restart its watchdog. -/
def execTmbKick (by_ : Origin) (s : State) : Host.Outcome State Fault Refusal := settled (doTmbKick by_ s)

/-- TUBER_WATCHDOG_EXPIRE (R547): The AON watchdog expires and Tuber makes a solo restart. -/
def execTuberWatchdogExpire (s : State) : Host.Outcome State Fault Refusal := settled (doTuberWatchdogExpire s)

/-- TUBER_RESTART_COMPLETE (R548): Tuber's re-verification ends, resuming service or raising source 41 at level 3. -/
def execTuberRestartComplete (readOk : Bool) (s : State) : Host.Outcome State Fault Refusal :=
  settled (doTuberRestartComplete readOk s)

/-- ENTROPY_HEALTH_FAIL (R531): A continuous health test fails and DRBG output stops. -/
def execEntropyHealthFail (s : State) : Host.Outcome State Fault Refusal := settled (doEntropyHealthFail s)

/-- PWR_HOLD_CLEAR (R549): Tuber clears a PWR_HOLD bit and a deferred power request proceeds. -/
def execPwrHoldClear (domain : Nat) (s : State) : Host.Outcome State Fault Refusal :=
  settled (doPwrHoldClear domain s)

/-- PWR_HOLD_TIMEOUT (R549): A deferred request is refused with HELD after 50 ms. -/
def execPwrHoldTimeout (s : State) : Host.Outcome State Fault Refusal := settled (doPwrHoldTimeout s)

/-- PWR_FORCE (R550): PWR_FORCE.GO forces a power request, zeroising the domain's keys first. -/
def execPwrForce (by_ : Origin) (v : Nat) (s : State) : Host.Outcome State Fault Refusal :=
  settled (doPwrForce by_ v s)

/-- LOG_EXPORTED_WRITE (R553): The PF advances LOG_EXPORTED, freeing change-log entries. -/
def execLogExportedWrite (by_ : Origin) (v : Nat) (s : State) : Host.Outcome State Fault Refusal :=
  settled (doLogExportedWrite by_ v s)

/-- LOG_EXPORT_ENABLE (R553): Setting LOG_XQ_CTL.ENABLE starts export at entry LOG_EXPORTED + 1. -/
def execLogExportEnable (by_ : Origin) (v : Nat) (s : State) : Host.Outcome State Fault Refusal :=
  settled (doLogExportEnable by_ v s)

/-- LOG_ENTRY_EXPORT (R553): The device writes the next entry into the host export ring once it has room. -/
def execLogEntryExport (s : State) : Host.Outcome State Fault Refusal := settled (doLogEntryExport s)

/-- CHECKPOINT_CLOSE (R554): A checkpoint closes on its entry count or time and Tuber checks the chain. -/
def execCheckpointClose (badSeq : Option Nat) (s : State) : Host.Outcome State Fault Refusal :=
  settled (doCheckpointClose badSeq s)

/-- CHECKPOINT_SIGNED (R554): A checkpoint's signatures are complete and its kind-14 entry is written. -/
def execCheckpointSigned (s : State) : Host.Outcome State Fault Refusal := settled (doCheckpointSigned s)

/-- LOG_CKPT_EXPORTED_WRITE (R554): The PF advances LOG_CKPT_EXPORTED, freeing checkpoint slots. -/
def execLogCkptExportedWrite (by_ : Origin) (v : Nat) (s : State) : Host.Outcome State Fault Refusal :=
  settled (doLogCkptExportedWrite by_ v s)

/-- DEBUG_REQ (R555): DBG_CTL.REQ in MAINTENANCE makes Tuber fill a challenge. -/
def execDebugReq (by_ : Origin) (level : Nat) (s : State) : Host.Outcome State Fault Refusal :=
  settled (doDebugReq by_ level s)

/-- DEBUG_CHECK (R555): DBG_CTL.CHECK submits the response, granting or refusing the unlock. -/
def execDebugCheck (by_ : Origin) (response : List Byte) (s : State) : Host.Outcome State Fault Refusal :=
  settled (doDebugCheck by_ response s)

/-- DEBUG_CHALLENGE_EXPIRE (R555): A debug challenge expires after 60 s. -/
def execDebugChallengeExpire (s : State) : Host.Outcome State Fault Refusal := settled (doDebugChallengeExpire s)

/-- TUBER_VERIFY_DONE (R534): The ROM finishes verifying the Tuber firmware of the boot or other bank. -/
def execTuberVerifyDone (bootRead otherRead : Bool) (s : State) : Host.Outcome State Fault Refusal :=
  settled (doTuberVerifyDone bootRead otherRead s)

/-- MAIN_IMAGE_LOADED (R534): Tuber verifies and loads the main image and releases the cores. -/
def execMainImageLoaded (bankRead otherRead : Bool) (s : State) : Host.Outcome State Fault Refusal :=
  settled (doMainImageLoaded bankRead otherRead s)

/-- ENTROPY_START_UP_TEST_PASS (R531): The entropy source passes its start-up tests again and DRBG output resumes. -/
def execEntropyStartUpTestPass (s : State) : Host.Outcome State Fault Refusal := settled (doEntropyStartUpTestPass s)

end Sys2Proof.Machine
end

