-- ==== Sys2Proof/Machine/OctipInt.lean ====
section
/-!
DEFINITION. Octip integer instructions (R319, R321, R343 to R351): one meaning for each row, over the operations at the
head of this file.
-/

namespace Sys2Proof.Machine

/-- A shift left by a register count (R351): 0 for 64 or more. -/
def shiftLeft (a b : Word) : Word := if 64 ≤ b.toNat then 0 else a <<< b.toNat

/-- A logical shift right (R351). -/
def shiftRight (a b : Word) : Word := if 64 ≤ b.toNat then 0 else a >>> b.toNat

/-- An arithmetic shift right (R351): all sign for 64 or more. -/
def shiftRightArith (a b : Word) : Word :=
  if 64 ≤ b.toNat then (if a.msb then BitVec.allOnes 64 else 0) else a.sshiftRight b.toNat

/-- Rotation left by the count mod 64 (R351). -/
def rotLeft (a b : Word) : Word := a.rotateLeft (b.toNat % 64)

/-- Rotation right by the count mod 64 (R351). -/
def rotRight (a b : Word) : Word := a.rotateRight (b.toNat % 64)

/-- The low 32 bits, sign-extended (R348). -/
def low32s (a : Word) : Word := (a.setWidth 32).signExtend 64

/-- The low 32 bits, zero-extended (R348). -/
def low32u (a : Word) : Word := (a.setWidth 32).setWidth 64

/-- Signed division (R347 to R350): `rem` selects the remainder. On 32 bits with `w32`. -/
def divSigned (rem w32 : Bool) (a b : Word) : IntRes :=
  let x : Int := if w32 then (low32s a).toInt else a.toInt
  let y : Int := if w32 then (low32s b).toInt else b.toInt
  let least : Int := if w32 then -(2 : Int) ^ 31 else -(2 : Int) ^ 63
  if y = 0 then
    if rem then { val := if w32 then low32s a else a, flags := flagIDZ }
    else { val := BitVec.allOnes 64, flags := flagIDZ }
  else if x = least ∧ y = -1 then
    if rem then { val := 0, flags := flagIOV } else { val := BitVec.ofInt 64 least, flags := flagIOV }
  else { val := BitVec.ofInt 64 (if rem then x.tmod y else x.tdiv y) }

/-- Unsigned division (R347 to R350): `rem` selects the remainder. On 32 bits with `w32`. -/
def divUnsigned (rem w32 : Bool) (a b : Word) : IntRes :=
  let x := if w32 then (low32u a).toNat else a.toNat
  let y := if w32 then (low32u b).toNat else b.toNat
  if y = 0 then
    if rem then { val := if w32 then low32u a else a, flags := flagIDZ }
    else { val := if w32 then 0xFFFFFFFF else BitVec.allOnes 64, flags := flagIDZ }
  else { val := BitVec.ofNat 64 (if rem then x % y else x / y) }

/-- An instruction with two g sources that writes g[D] and ORs flags. -/
def intOp (c : OctCtx) (d : Nat) (res : OctCore → IntRes) (s : State) : State :=
  octip c (fun k => pureOp (fun x => (x.setG d (res k).val).flag (res k).flags) k) s

/-- A result without flags. -/
def plain (v : Word) : IntRes := { val := v }

/-- A compare (R321): the result to p[PT], its complement to p[PF]; naming one register twice, p0 apart, is illegal. -/
def cmpBody (pt pf : Nat) (r : OctCore → Bool) (flags : OctCore → Word) (k : OctCore) (s : State) : Eff :=
  if pt = pf ∧ pt ≠ 0 then illegal s
  else .ok (fun x => ((x.setP pt (r k)).setP pf (!r k)).flag (flags k)) s

/-- An integer compare (R321). -/
def cmpOp (c : OctCtx) (pt pf : Nat) (r : OctCore → Bool) (flags : OctCore → Word) (s : State) : State :=
  octip c (cmpBody pt pf r flags) s

/-- A compare that sets no flag. -/
def intCmp (c : OctCtx) (pt pf a : Nat) (b : Src) (r : Word → Word → Bool) (s : State) : State :=
  cmpOp c pt pf (fun k => r (k.gr a) (k.src b)) (fun _ => 0) s

/-- A predicate instruction: p[D] is written. -/
def predOp (c : OctCtx) (d : Nat) (r : OctCore → Bool) (s : State) : State :=
  octip c (fun k => pureOp (fun x => x.setP d (r k)) k) s


/-- ADD (R350): the low 64 bits of the sum; ADD.v sets IOV on signed overflow. -/
def execOpAdd (c : OctCtx) (ov : Bool) (d a b : Nat) (s : State) : Host.Outcome State Fault Refusal :=
  .next (intOp c d (fun k => ⟨k.gr a + k.gr b, ovFlag ov ((k.gr a).toInt + (k.gr b).toInt)⟩) s)

/-- SUB (R350): the low 64 bits of the difference; SUB.v sets IOV on signed overflow. -/
def execOpSub (c : OctCtx) (ov : Bool) (d a b : Nat) (s : State) : Host.Outcome State Fault Refusal :=
  .next (intOp c d (fun k => ⟨k.gr a - k.gr b, ovFlag ov ((k.gr a).toInt - (k.gr b).toInt)⟩) s)

/-- AND (R319). -/
def execOpAnd (c : OctCtx) (d a b : Nat) (s : State) : Host.Outcome State Fault Refusal :=
  .next (intOp c d (fun k => plain (k.gr a &&& k.gr b)) s)

/-- OR (R319). -/
def execOpOr (c : OctCtx) (d a b : Nat) (s : State) : Host.Outcome State Fault Refusal :=
  .next (intOp c d (fun k => plain (k.gr a ||| k.gr b)) s)

/-- XOR (R319). -/
def execOpXor (c : OctCtx) (d a b : Nat) (s : State) : Host.Outcome State Fault Refusal :=
  .next (intOp c d (fun k => plain (k.gr a ^^^ k.gr b)) s)

/-- ANDN (R319): A and not B. -/
def execOpAndn (c : OctCtx) (d a b : Nat) (s : State) : Host.Outcome State Fault Refusal :=
  .next (intOp c d (fun k => plain (k.gr a &&& ~~~ (k.gr b))) s)

/-- SLL (R351). -/
def execOpSll (c : OctCtx) (d a b : Nat) (s : State) : Host.Outcome State Fault Refusal :=
  .next (intOp c d (fun k => plain (shiftLeft (k.gr a) (k.gr b))) s)

/-- SRL (R351). -/
def execOpSrl (c : OctCtx) (d a b : Nat) (s : State) : Host.Outcome State Fault Refusal :=
  .next (intOp c d (fun k => plain (shiftRight (k.gr a) (k.gr b))) s)

/-- SRA (R351). -/
def execOpSra (c : OctCtx) (d a b : Nat) (s : State) : Host.Outcome State Fault Refusal :=
  .next (intOp c d (fun k => plain (shiftRightArith (k.gr a) (k.gr b))) s)

/-- ROL (R351). -/
def execOpRol (c : OctCtx) (d a b : Nat) (s : State) : Host.Outcome State Fault Refusal :=
  .next (intOp c d (fun k => plain (rotLeft (k.gr a) (k.gr b))) s)

/-- ROR (R351). -/
def execOpRor (c : OctCtx) (d a b : Nat) (s : State) : Host.Outcome State Fault Refusal :=
  .next (intOp c d (fun k => plain (rotRight (k.gr a) (k.gr b))) s)

/-- MIN (R319): the smaller, signed. -/
def execOpMin (c : OctCtx) (d a b : Nat) (s : State) : Host.Outcome State Fault Refusal :=
  .next (intOp c d (fun k => plain (if (k.gr a).toInt ≤ (k.gr b).toInt then k.gr a else k.gr b)) s)

/-- MAX (R319): the larger, signed. -/
def execOpMax (c : OctCtx) (d a b : Nat) (s : State) : Host.Outcome State Fault Refusal :=
  .next (intOp c d (fun k => plain (if (k.gr a).toInt ≤ (k.gr b).toInt then k.gr b else k.gr a)) s)

/-- MINU (R319): the smaller, unsigned. -/
def execOpMinu (c : OctCtx) (d a b : Nat) (s : State) : Host.Outcome State Fault Refusal :=
  .next (intOp c d (fun k => plain (if k.gr a ≤ k.gr b then k.gr a else k.gr b)) s)

/-- MAXU (R319): the larger, unsigned. -/
def execOpMaxu (c : OctCtx) (d a b : Nat) (s : State) : Host.Outcome State Fault Refusal :=
  .next (intOp c d (fun k => plain (if k.gr a ≤ k.gr b then k.gr b else k.gr a)) s)

/-- NEG (R350): NEG.v of the most negative value sets IOV. -/
def execOpNeg (c : OctCtx) (ov : Bool) (d a : Nat) (s : State) : Host.Outcome State Fault Refusal :=
  .next (intOp c d (fun k => ⟨-(k.gr a), ovFlag ov (-(k.gr a).toInt)⟩) s)

/-- MUL (R346): the low 64 bits of the product; MUL.v sets IOV when the signed product does not fit. -/
def execOpMul (c : OctCtx) (ov : Bool) (d a b : Nat) (s : State) : Host.Outcome State Fault Refusal :=
  .next (intOp c d (fun k => ⟨k.gr a * k.gr b, ovFlag ov ((k.gr a).toInt * (k.gr b).toInt)⟩) s)

/-- MULH (R346): the high 64 bits of the signed 128-bit product. -/
def execOpMulh (c : OctCtx) (d a b : Nat) (s : State) : Host.Outcome State Fault Refusal :=
  .next (intOp c d (fun k => plain (BitVec.ofInt 64 ((k.gr a).toInt * (k.gr b).toInt / 2 ^ 64))) s)

/-- MULHU (R346): the high 64 bits of the unsigned product. -/
def execOpMulhu (c : OctCtx) (d a b : Nat) (s : State) : Host.Outcome State Fault Refusal :=
  .next (intOp c d (fun k => plain (BitVec.ofNat 64 ((k.gr a).toNat * (k.gr b).toNat / 2 ^ 64))) s)

/-- DIV and DIV.W (R347 to R350). -/
def execOpDiv (c : OctCtx) (w32 : Bool) (d a b : Nat) (s : State) : Host.Outcome State Fault Refusal :=
  .next (intOp c d (fun k => divSigned false w32 (k.gr a) (k.gr b)) s)

/-- DIVU and DIVU.W (R347 to R350). -/
def execOpDivu (c : OctCtx) (w32 : Bool) (d a b : Nat) (s : State) : Host.Outcome State Fault Refusal :=
  .next (intOp c d (fun k => divUnsigned false w32 (k.gr a) (k.gr b)) s)

/-- REM and REM.W (R347 to R350). -/
def execOpRem (c : OctCtx) (w32 : Bool) (d a b : Nat) (s : State) : Host.Outcome State Fault Refusal :=
  .next (intOp c d (fun k => divSigned true w32 (k.gr a) (k.gr b)) s)

/-- REMU and REMU.W (R347 to R350). -/
def execOpRemu (c : OctCtx) (w32 : Bool) (d a b : Nat) (s : State) : Host.Outcome State Fault Refusal :=
  .next (intOp c d (fun k => divUnsigned true w32 (k.gr a) (k.gr b)) s)

/-- CMP.EQ (R321), against a register or an immediate. -/
def execOpCmpEq (c : OctCtx) (pt pf a : Nat) (b : Src) (s : State) : Host.Outcome State Fault Refusal :=
  .next (intCmp c pt pf a b (fun x y => x == y) s)

/-- CMP.NE (R321), against a register or an immediate. -/
def execOpCmpNe (c : OctCtx) (pt pf a : Nat) (b : Src) (s : State) : Host.Outcome State Fault Refusal :=
  .next (intCmp c pt pf a b (fun x y => x != y) s)

/-- CMP.LT (R321), against a register or an immediate. -/
def execOpCmpLt (c : OctCtx) (pt pf a : Nat) (b : Src) (s : State) : Host.Outcome State Fault Refusal :=
  .next (intCmp c pt pf a b (fun x y => decide (x.toInt < y.toInt)) s)

/-- CMP.GE (R321), against a register or an immediate. -/
def execOpCmpGe (c : OctCtx) (pt pf a : Nat) (b : Src) (s : State) : Host.Outcome State Fault Refusal :=
  .next (intCmp c pt pf a b (fun x y => decide (y.toInt ≤ x.toInt)) s)

/-- CMP.LTU (R321), against a register or an immediate. -/
def execOpCmpLtu (c : OctCtx) (pt pf a : Nat) (b : Src) (s : State) : Host.Outcome State Fault Refusal :=
  .next (intCmp c pt pf a b (fun x y => decide (x < y)) s)

/-- CMP.GEU (R321), against a register or an immediate. -/
def execOpCmpGeu (c : OctCtx) (pt pf a : Nat) (b : Src) (s : State) : Host.Outcome State Fault Refusal :=
  .next (intCmp c pt pf a b (fun x y => decide (y ≤ x)) s)

/-- PAND (R319) on p registers. -/
def execOpPand (c : OctCtx) (d a b : Nat) (s : State) : Host.Outcome State Fault Refusal :=
  .next (predOp c d (fun k => k.pr a && k.pr b) s)

/-- POR (R319) on p registers. -/
def execOpPor (c : OctCtx) (d a b : Nat) (s : State) : Host.Outcome State Fault Refusal :=
  .next (predOp c d (fun k => k.pr a || k.pr b) s)

/-- PXOR (R319) on p registers. -/
def execOpPxor (c : OctCtx) (d a b : Nat) (s : State) : Host.Outcome State Fault Refusal :=
  .next (predOp c d (fun k => k.pr a ^^ k.pr b) s)

/-- PANDN (R319) on p registers. -/
def execOpPandn (c : OctCtx) (d a b : Nat) (s : State) : Host.Outcome State Fault Refusal :=
  .next (predOp c d (fun k => k.pr a && !k.pr b) s)

/-- MOVGP (R319): p[D] is bit 0 of g[A]. -/
def execOpMovgp (c : OctCtx) (d a : Nat) (s : State) : Host.Outcome State Fault Refusal :=
  .next (predOp c d (fun k => (k.gr a).toNat.testBit 0) s)

/-- MOVPG (R319): g[D] is p[A]. -/
def execOpMovpg (c : OctCtx) (d a : Nat) (s : State) : Host.Outcome State Fault Refusal :=
  .next (intOp c d (fun k => plain (if k.pr a then 1 else 0)) s)

/-- ADDI (R319, R350): no flag. -/
def execOpAddi (c : OctCtx) (d a : Nat) (imm : Word) (s : State) : Host.Outcome State Fault Refusal :=
  .next (intOp c d (fun k => plain (k.gr a + imm)) s)

/-- ANDI (R319, R350): no flag. -/
def execOpAndi (c : OctCtx) (d a : Nat) (imm : Word) (s : State) : Host.Outcome State Fault Refusal :=
  .next (intOp c d (fun k => plain (k.gr a &&& imm)) s)

/-- ORI (R319, R350): no flag. -/
def execOpOri (c : OctCtx) (d a : Nat) (imm : Word) (s : State) : Host.Outcome State Fault Refusal :=
  .next (intOp c d (fun k => plain (k.gr a ||| imm)) s)

/-- XORI (R319, R350): no flag. -/
def execOpXori (c : OctCtx) (d a : Nat) (imm : Word) (s : State) : Host.Outcome State Fault Refusal :=
  .next (intOp c d (fun k => plain (k.gr a ^^^ imm)) s)

/-- SLLI (R351): counts 0 to 63. -/
def execOpSlli (c : OctCtx) (d a n : Nat) (s : State) : Host.Outcome State Fault Refusal :=
  .next (intOp c d (fun k => plain (k.gr a <<< n)) s)

/-- SRLI (R351): counts 0 to 63. -/
def execOpSrli (c : OctCtx) (d a n : Nat) (s : State) : Host.Outcome State Fault Refusal :=
  .next (intOp c d (fun k => plain (k.gr a >>> n)) s)

/-- SRAI (R351): counts 0 to 63. -/
def execOpSrai (c : OctCtx) (d a n : Nat) (s : State) : Host.Outcome State Fault Refusal :=
  .next (intOp c d (fun k => plain ((k.gr a).sshiftRight n)) s)

/-- RORI (R351): counts 0 to 63. -/
def execOpRori (c : OctCtx) (d a n : Nat) (s : State) : Host.Outcome State Fault Refusal :=
  .next (intOp c d (fun k => plain ((k.gr a).rotateRight n)) s)

/-- MOV (R319); with D = 0 it is NOP. -/
def execOpMov (c : OctCtx) (d a : Nat) (s : State) : Host.Outcome State Fault Refusal :=
  .next (intOp c d (fun k => plain (k.gr a)) s)

/-- LI (R319). -/
def execOpLi (c : OctCtx) (d : Nat) (imm : Word) (s : State) : Host.Outcome State Fault Refusal :=
  .next (intOp c d (fun _ => plain imm) s)

/-- LIH (R319): bits [63:32] of g[D] are imm[31:0]; bits [31:0] are kept. -/
def execOpLih (c : OctCtx) (d : Nat) (imm : Word) (s : State) : Host.Outcome State Fault Refusal :=
  .next (intOp c d (fun k => plain (imm <<< 32 ||| low32u (k.gr d))) s)

/-- LA (R319): the address of the instruction plus the immediate. -/
def execOpLa (c : OctCtx) (d : Nat) (imm : Word) (s : State) : Host.Outcome State Fault Refusal :=
  .next (intOp c d (fun k => plain (k.pc + imm)) s)

end Sys2Proof.Machine
end

