-- ==== Sys2Proof/Machine/OctipFp.lean ====
section
/-!
DEFINITION. Octip floating point (R352 to R367): binary64 and binary32 values, correct rounding from exact values, and one
meaning for each row.
-/

namespace Sys2Proof.Machine

/-- A floating-point format: precision, exponents of the smallest and largest normal binade, width in bits. -/
structure FpFmt where
  prec : Nat
  emin : Int
  emax : Int
  width : Nat
  deriving DecidableEq, Repr

/-- binary64. -/
def fp64 : FpFmt := ⟨53, -1022, 1023, 64⟩

/-- binary32. -/
def fp32 : FpFmt := ⟨24, -126, 127, 32⟩

/-- The format an X bit selects (R353, R362). -/
def fmtOf (f32 : Bool) : FpFmt := if f32 then fp32 else fp64

/-- The rounding modes (*Rounding modes*). -/
inductive Rm where
  | rne | rtz | rup | rdn | rmm
  deriving DecidableEq, Repr

/-- The mode of cr.fctl. -/
def rmOf (w : Word) : Rm :=
  match wbits w 2 0 with
  | 0 => .rne
  | 1 => .rtz
  | 2 => .rup
  | 3 => .rdn
  | _ => .rmm


/-- What bits stand for. A finite number is `m · 2^e` with its sign. -/
inductive FpVal where
  | nan (signalling : Bool) (raw : Nat)
  | inf (neg : Bool)
  | zero (neg : Bool)
  | fin (neg : Bool) (m : Nat) (e : Int)
  deriving DecidableEq, Repr

/-- A delivered result: its bits in the format, and flags. -/
structure FpRes where
  val : Nat
  flags : Word := 0
  deriving DecidableEq, Repr

/-- The weight of the sign bit. -/
def FpFmt.sign (f : FpFmt) : Nat := 2 ^ (f.width - 1)

/-- The bits of infinity without a sign. -/
def FpFmt.infBits (f : FpFmt) : Nat := f.sign - 2 ^ (f.prec - 1)

/-- The quiet bit: 51 or 22 (R358). -/
def FpFmt.quiet (f : FpFmt) : Nat := 2 ^ (f.prec - 2)

/-- The canonical quiet NaN (R358). -/
def FpFmt.canonNan (f : FpFmt) : Nat := f.infBits + f.quiet

/-- A sign bit. -/
def FpFmt.signOf (f : FpFmt) (neg : Bool) : Nat := if neg then f.sign else 0

/-- What the bits of a format stand for. -/
def unpack (f : FpFmt) (w : Nat) : FpVal :=
  let neg := decide (f.sign ≤ w)
  let mag := w % f.sign
  let frac := mag % 2 ^ (f.prec - 1)
  let ex := mag / 2 ^ (f.prec - 1)
  if f.infBits < mag then .nan (!decide (f.quiet ≤ frac)) w
  else if mag = f.infBits then .inf neg
  else if mag = 0 then .zero neg
  else if ex = 0 then .fin neg frac (f.emin - (f.prec - 1 : Nat))
  else .fin neg (frac + 2 ^ (f.prec - 1)) (f.emin + (ex : Int) - 1 - (f.prec - 1 : Nat))

/-- Whether a magnitude is rounded away from zero: `k` is its truncation, `rem` over `2 · half` what is cut off, `sticky`
more beyond (*Rounding modes*). -/
def roundsUp (rm : Rm) (neg sticky : Bool) (k rem half : Nat) : Bool :=
  let inexact := decide (rem ≠ 0) || sticky
  match rm with
  | .rne => decide (half < rem) || (rem == half && (sticky || k % 2 == 1))
  | .rtz => false
  | .rup => inexact && !neg
  | .rdn => inexact && neg
  | .rmm => decide (half ≤ rem)

/-- `m · 2^e` rounded to a multiple of `2^q`: the multiple and whether it is inexact. -/
def roundAt (rm : Rm) (neg : Bool) (m : Nat) (e : Int) (sticky : Bool) (q : Int) : Nat × Bool :=
  if q ≤ e then (m * 2 ^ (e - q).toNat, sticky)
  else
    let sh := (q - e).toNat
    let k := m / 2 ^ sh
    let rem := m % 2 ^ sh
    (if roundsUp rm neg sticky k rem (2 ^ (sh - 1)) then k + 1 else k, decide (rem ≠ 0) || sticky)

/-- The result of an overflow (R354). -/
def overflowBits (f : FpFmt) (rm : Rm) (neg : Bool) : Nat :=
  let toInf := match rm with
    | .rne | .rmm => true
    | .rtz => false
    | .rup => !neg
    | .rdn => neg
  f.signOf neg + (if toInf then f.infBits else f.infBits - 1)

/-- The correctly rounded result of an exact non-zero value `m · 2^e`, plus something below one unit of `m` when
`sticky` (R352, R354 to R356). With `sticky`, `m` has at least two bits more than the precision. -/
def roundFp (f : FpFmt) (rm : Rm) (neg : Bool) (m : Nat) (e : Int) (sticky : Bool) : FpRes :=
  let top : Int := e + (Nat.log2 m : Nat)
  let qu := top - (f.prec - 1 : Nat)
  let (ku, _) := roundAt rm neg m e sticky qu
  let carry := decide (2 ^ f.prec ≤ ku)
  let topR := if carry then top + 1 else top
  if f.emax < topR then { val := overflowBits f rm neg, flags := flagOF ||| flagNX }
  else
    let q := max qu (f.emin - (f.prec - 1 : Nat))
    let (k, inexact) := roundAt rm neg m e sticky q
    let fl : Word := (if inexact then flagNX else 0) ||| (if inexact && decide (topR < f.emin) then flagUF else 0)
    let bits :=
      if k < 2 ^ (f.prec - 1) then k
      else k + (q - (f.emin - (f.prec - 1 : Nat))).toNat * 2 ^ (f.prec - 1)
    { val := f.signOf neg + bits, flags := fl }

/-- NV when an operand is a signalling NaN (R355). -/
def snanFlag (l : List FpVal) : Word :=
  if l.any (fun v => match v with | .nan s _ => s | _ => false) then flagNV else 0

/-- The first NaN operand, quieted (R358). -/
def firstNan (f : FpFmt) (l : List FpVal) : Option Nat :=
  l.findSome? (fun v => match v with | .nan _ r => some (r ||| f.quiet) | _ => none)

/-- The canonical NaN with NV. -/
def invalid (f : FpFmt) : FpRes := { val := f.canonNan, flags := flagNV }

/-- A term of a sum: sign and exact magnitude; a zero keeps its sign. -/
structure Term where
  neg : Bool
  m : Nat
  e : Int

/-- The exact sum of two terms, rounded (R352, R357). -/
def sumTerms (f : FpFmt) (rm : Rm) (x y : Term) : FpRes :=
  let e := min x.e y.e
  let sx : Int := (x.m * 2 ^ (x.e - e).toNat : Nat) * (if x.neg then -1 else 1)
  let sy : Int := (y.m * 2 ^ (y.e - e).toNat : Nat) * (if y.neg then -1 else 1)
  let t := sx + sy
  if t = 0 then
    let neg := if x.neg == y.neg then x.neg else rm == .rdn
    { val := f.signOf neg }
  else roundFp f rm (decide (t < 0)) t.natAbs e false

/-- A finite value as a term. -/
def termOf (f : FpFmt) : FpVal → Term
  | .fin n m e => ⟨n, m, e⟩
  | .zero n => ⟨n, 0, f.emin - (f.prec - 1 : Nat)⟩
  | _ => ⟨false, 0, 0⟩

/-- The sign of a value that is no NaN. -/
def FpVal.isNeg : FpVal → Bool
  | .inf n | .zero n => n
  | .fin n _ _ => n
  | .nan _ _ => false

/-- A value with its sign changed; a NaN stays as it is. -/
def FpVal.negate : FpVal → FpVal
  | .inf n => .inf (!n)
  | .zero n => .zero (!n)
  | .fin n m e => .fin (!n) m e
  | v => v

/-- Infinite. -/
def FpVal.isInf : FpVal → Bool
  | .inf _ => true
  | _ => false

/-- A zero. -/
def FpVal.isZero : FpVal → Bool
  | .zero _ => true
  | _ => false

/-- FADD; FSUB with the second operand negated (R352, R355, R357, R358). -/
def fpAdd (f : FpFmt) (rm : Rm) (a b : FpVal) : FpRes :=
  match firstNan f [a, b] with
  | some n => { val := n, flags := snanFlag [a, b] }
  | none =>
    if a.isInf && b.isInf then
      if a.isNeg == b.isNeg then { val := f.signOf a.isNeg + f.infBits } else invalid f
    else if a.isInf then { val := f.signOf a.isNeg + f.infBits }
    else if b.isInf then { val := f.signOf b.isNeg + f.infBits }
    else sumTerms f rm (termOf f a) (termOf f b)

/-- FMUL (R352, R355, R358). -/
def fpMul (f : FpFmt) (rm : Rm) (a b : FpVal) : FpRes :=
  match firstNan f [a, b] with
  | some n => { val := n, flags := snanFlag [a, b] }
  | none =>
    let neg := a.isNeg != b.isNeg
    if (a.isInf && b.isZero) || (a.isZero && b.isInf) then invalid f
    else if a.isInf || b.isInf then { val := f.signOf neg + f.infBits }
    else if a.isZero || b.isZero then { val := f.signOf neg }
    else
      let x := termOf f a
      let y := termOf f b
      roundFp f rm neg (x.m * y.m) (x.e + y.e) false

/-- FDIV (R352, R355, R358). -/
def fpDiv (f : FpFmt) (rm : Rm) (a b : FpVal) : FpRes :=
  match firstNan f [a, b] with
  | some n => { val := n, flags := snanFlag [a, b] }
  | none =>
    let neg := a.isNeg != b.isNeg
    if (a.isInf && b.isInf) || (a.isZero && b.isZero) then invalid f
    else if a.isInf then { val := f.signOf neg + f.infBits }
    else if b.isInf || a.isZero then { val := f.signOf neg }
    else if b.isZero then { val := f.signOf neg + f.infBits, flags := flagDZ }
    else
      let x := termOf f a
      let y := termOf f b
      let k := Nat.log2 y.m + f.prec + 4
      let n := x.m * 2 ^ k
      roundFp f rm neg (n / y.m) (x.e - y.e - k) (decide (n % y.m ≠ 0))

/-- The integer square root, over bits below `k`. -/
def isqrtAux : Nat → Nat → Nat → Nat
  | 0, _, r => r
  | k + 1, n, r =>
    let t := r + 2 ^ k
    isqrtAux k n (if t * t ≤ n then t else r)

/-- FSQRT (R352, R355, R357). -/
def fpSqrt (f : FpFmt) (rm : Rm) (a : FpVal) : FpRes :=
  match firstNan f [a] with
  | some n => { val := n, flags := snanFlag [a] }
  | none =>
    if a.isZero then { val := f.signOf a.isNeg }
    else if a.isNeg then invalid f
    else if a.isInf then { val := f.infBits }
    else
      let x := termOf f a
      let sh := 2 * f.prec + 6
      let sh := if (x.e - sh) % 2 = 0 then sh else sh + 1
      let n := x.m * 2 ^ sh
      let r := isqrtAux 96 n 0
      roundFp f rm false r ((x.e - sh) / 2) (decide (r * r ≠ n))

/-- The FMA group: A × B + C, rounded once (R352, R355, R357, R358). DEDUCED, log entry 20. -/
def fpFma (f : FpFmt) (rm : Rm) (negProd negC : Bool) (a b c : FpVal) : FpRes :=
  let zi := (a.isInf && b.isZero) || (a.isZero && b.isInf)
  let nv := snanFlag [a, b, c] ||| (if zi then flagNV else 0)
  match firstNan f [a, b, c] with
  | some n => { val := n, flags := nv }
  | none =>
    if zi then invalid f
    else
      let c := if negC then c.negate else c
      let neg := (a.isNeg != b.isNeg) != negProd
      if a.isInf || b.isInf then
        if c.isInf && c.isNeg != neg then invalid f else { val := f.signOf neg + f.infBits }
      else if c.isInf then { val := f.signOf c.isNeg + f.infBits }
      else
        let x := termOf f a
        let y := termOf f b
        sumTerms f rm ⟨neg, x.m * y.m, x.e + y.e⟩ (termOf f c)

/-- Order of two values that are no NaN: `lt a b`. −0 and +0 compare equal (R361). -/
def fpLt (f : FpFmt) (a b : FpVal) : Bool :=
  let key := fun v : FpVal => match v with
    | .inf n => if n then (-1 : Int) else 1
    | _ => 0
  if a.isInf || b.isInf then decide (key a < key b)
  else
    let x := termOf f a
    let y := termOf f b
    let e := min x.e y.e
    let sx : Int := (x.m * 2 ^ (x.e - e).toNat : Nat) * (if x.neg then -1 else 1)
    let sy : Int := (y.m * 2 ^ (y.e - e).toNat : Nat) * (if y.neg then -1 else 1)
    decide (sx < sy)

/-- A NaN. -/
def FpVal.isNan : FpVal → Bool
  | .nan _ _ => true
  | _ => false

/-- FMIN and FMAX (R357, R359): `x`, `y` are the bits. −0 is below +0. -/
def fpMinMax (f : FpFmt) (max : Bool) (x y : Nat) : FpRes :=
  let a := unpack f x
  let b := unpack f y
  let fl := snanFlag [a, b]
  if a.isNan && b.isNan then { val := (firstNan f [a, b]).getD f.canonNan, flags := fl }
  else if a.isNan then { val := y, flags := fl }
  else if b.isNan then { val := x, flags := fl }
  else
    let less := fpLt f a b || (a.isZero && b.isZero && a.isNeg && !b.isNeg)
    { val := if less == max then y else x, flags := fl }

/-- A binary64 or binary32 operand of an f register; a binary32 operand whose upper half is not all ones reads as the
quiet NaN (R353). -/
def fpOperand (f32 : Bool) (w : Word) : Nat :=
  if f32 then (if wbits w 63 32 = 0xFFFFFFFF then wbits w 31 0 else 0x7FC00000) else w.toNat

/-- A result as its register holds it: binary32 under all ones (R353). -/
def fpBox (f32 : Bool) (v : Nat) : Word :=
  if f32 then BitVec.ofNat 64 (0xFFFFFFFF * 2 ^ 32 + v % 2 ^ 32) else BitVec.ofNat 64 v

/-- FCVT.I and FCVT.U (R363): rounded, then judged against the range. -/
def fpToInt (f : FpFmt) (rm : Rm) (signed : Bool) (a : FpVal) : FpRes :=
  let lo : Int := if signed then -(2 : Int) ^ 63 else 0
  let hi : Int := if signed then (2 : Int) ^ 63 - 1 else (2 : Int) ^ 64 - 1
  let out := fun v : Int => (v % (2 : Int) ^ 64).toNat
  match a with
  | .nan _ _ => { val := 0, flags := flagNV }
  | .inf n => { val := out (if n then lo else hi), flags := flagNV }
  | .zero _ => { val := 0 }
  | .fin n m e =>
    let _ := f
    let (k, inexact) := roundAt rm n m e false 0
    let v : Int := if n then -(k : Int) else k
    if v < lo then { val := out lo, flags := flagNV }
    else if hi < v then { val := out hi, flags := flagNV }
    else { val := out v, flags := if inexact then flagNX else 0 }

/-- ICVT.F and UCVT.F (R364). -/
def intToFp (f : FpFmt) (rm : Rm) (v : Int) : FpRes :=
  if v = 0 then { val := 0 } else roundFp f rm (decide (v < 0)) v.natAbs 0 false

/-- FCVT.P (R364): a NaN keeps its payload, shifted, and is quieted. -/
def fpConvert (src dst : FpFmt) (rm : Rm) (a : FpVal) : FpRes :=
  match a with
  | .nan s r =>
    let neg := decide (src.sign ≤ r)
    let frac := r % 2 ^ (src.prec - 1)
    let frac := if src.prec < dst.prec then frac * 2 ^ 29 else frac / 2 ^ 29
    { val := dst.signOf neg + dst.infBits + (frac ||| dst.quiet), flags := if s then flagNV else 0 }
  | .inf n => { val := dst.signOf n + dst.infBits }
  | .zero n => { val := dst.signOf n }
  | .fin n m e => roundFp dst rm n m e false

/-- An instruction that writes f[D] and ORs flags. -/
def fpOp (c : OctCtx) (f32 : Bool) (d : Nat) (r : OctCore → FpRes) (s : State) : State :=
  octipNotS c (fun k => pureOp (fun x => (x.setF d (fpBox f32 (r k).val)).flag (r k).flags) k) s

/-- An instruction that writes g[D] from f registers and ORs flags. -/
def fpToG (c : OctCtx) (d : Nat) (r : OctCore → IntRes) (s : State) : State :=
  octipNotS c (fun k => pureOp (fun x => (x.setG d (r k).val).flag (r k).flags) k) s

/-- Operand `n` of a core, unpacked. -/
def OctCore.fv (k : OctCore) (f32 : Bool) (n : Nat) : FpVal := unpack (fmtOf f32) (fpOperand f32 (k.fr n))

/-- A floating-point compare (R361): false with a NaN; NV for any NaN when `strict`, else for a signalling one. -/
def fpCmp (c : OctCtx) (f32 strict : Bool) (pt pf a b : Nat) (r : FpVal → FpVal → Bool) (s : State) : State :=
  octipNotS c (cmpBody pt pf (fun k => r (k.fv f32 a) (k.fv f32 b))
    (fun k =>
      let x := k.fv f32 a
      let y := k.fv f32 b
      if strict && (x.isNan || y.isNan) then flagNV else snanFlag [x, y])) s

/-- No NaN among two operands. -/
def ordered (x y : FpVal) : Bool := !x.isNan && !y.isNan


/-- FADD (R352, R355, R357). -/
def execOpFadd (c : OctCtx) (f32 : Bool) (d a b : Nat) (s : State) : Host.Outcome State Fault Refusal :=
  .next (fpOp c f32 d (fun k => fpAdd (fmtOf f32) (rmOf k.fctl) (k.fv f32 a) (k.fv f32 b)) s)

/-- FSUB (R352, R355, R357). -/
def execOpFsub (c : OctCtx) (f32 : Bool) (d a b : Nat) (s : State) : Host.Outcome State Fault Refusal :=
  .next (fpOp c f32 d (fun k => fpAdd (fmtOf f32) (rmOf k.fctl) (k.fv f32 a) (k.fv f32 b).negate) s)

/-- FMUL (R352, R355). -/
def execOpFmul (c : OctCtx) (f32 : Bool) (d a b : Nat) (s : State) : Host.Outcome State Fault Refusal :=
  .next (fpOp c f32 d (fun k => fpMul (fmtOf f32) (rmOf k.fctl) (k.fv f32 a) (k.fv f32 b)) s)

/-- FDIV (R352, R355). -/
def execOpFdiv (c : OctCtx) (f32 : Bool) (d a b : Nat) (s : State) : Host.Outcome State Fault Refusal :=
  .next (fpOp c f32 d (fun k => fpDiv (fmtOf f32) (rmOf k.fctl) (k.fv f32 a) (k.fv f32 b)) s)

/-- FSQRT (R352, R355, R357). -/
def execOpFsqrt (c : OctCtx) (f32 : Bool) (d a : Nat) (s : State) : Host.Outcome State Fault Refusal :=
  .next (fpOp c f32 d (fun k => fpSqrt (fmtOf f32) (rmOf k.fctl) (k.fv f32 a)) s)

/-- FMIN (R359). -/
def execOpFmin (c : OctCtx) (f32 : Bool) (d a b : Nat) (s : State) : Host.Outcome State Fault Refusal :=
  .next (fpOp c f32 d (fun k => fpMinMax (fmtOf f32) false (fpOperand f32 (k.fr a)) (fpOperand f32 (k.fr b))) s)

/-- FMAX (R359). -/
def execOpFmax (c : OctCtx) (f32 : Bool) (d a b : Nat) (s : State) : Host.Outcome State Fault Refusal :=
  .next (fpOp c f32 d (fun k => fpMinMax (fmtOf f32) true (fpOperand f32 (k.fr a)) (fpOperand f32 (k.fr b))) s)

/-- FSGNJ (R360): the magnitude of A with the sign of B; no flag. -/
def execOpFsgnj (c : OctCtx) (f32 : Bool) (d a b : Nat) (s : State) : Host.Outcome State Fault Refusal :=
  .next (fpOp c f32 d (fun k => ⟨fpOperand f32 (k.fr a) % (fmtOf f32).sign + fpOperand f32 (k.fr b) / (fmtOf f32).sign * (fmtOf f32).sign, 0⟩) s)

/-- FCVT.I (R363). -/
def execOpFcvtI (c : OctCtx) (f32 : Bool) (d a : Nat) (s : State) : Host.Outcome State Fault Refusal :=
  .next (fpToG c d (fun k => let r := fpToInt (fmtOf f32) (rmOf k.fctl) true (k.fv f32 a); ⟨BitVec.ofNat 64 r.val, r.flags⟩) s)

/-- FCVT.U (R363). -/
def execOpFcvtU (c : OctCtx) (f32 : Bool) (d a : Nat) (s : State) : Host.Outcome State Fault Refusal :=
  .next (fpToG c d (fun k => let r := fpToInt (fmtOf f32) (rmOf k.fctl) false (k.fv f32 a); ⟨BitVec.ofNat 64 r.val, r.flags⟩) s)

/-- ICVT.F (R364). -/
def execOpIcvtF (c : OctCtx) (f32 : Bool) (d a : Nat) (s : State) : Host.Outcome State Fault Refusal :=
  .next (fpOp c f32 d (fun k => intToFp (fmtOf f32) (rmOf k.fctl) (k.gr a).toInt) s)

/-- UCVT.F (R364). -/
def execOpUcvtF (c : OctCtx) (f32 : Bool) (d a : Nat) (s : State) : Host.Outcome State Fault Refusal :=
  .next (fpOp c f32 d (fun k => intToFp (fmtOf f32) (rmOf k.fctl) (k.gr a).toNat) s)

/-- FCVT.P (R362, R364): narrows binary64, or widens binary32 when X = 1. -/
def execOpFcvtP (c : OctCtx) (widen : Bool) (d a : Nat) (s : State) : Host.Outcome State Fault Refusal :=
  .next (fpOp c (!widen) d (fun k => fpConvert (fmtOf widen) (fmtOf (!widen)) (rmOf k.fctl) (k.fv widen a)) s)

/-- FMOVG (R360): 64 bits of f[A] to g[D]. -/
def execOpFmovg (c : OctCtx) (d a : Nat) (s : State) : Host.Outcome State Fault Refusal :=
  .next (fpToG c d (fun k => plain (k.fr a)) s)

/-- FMOVF (R360): 64 bits of g[A] to f[D]. -/
def execOpFmovf (c : OctCtx) (d a : Nat) (s : State) : Host.Outcome State Fault Refusal :=
  .next (fpOp c false d (fun k => ⟨(k.gr a).toNat, 0⟩) s)

/-- FEQ (R361). -/
def execOpFeq (c : OctCtx) (f32 : Bool) (pt pf a b : Nat) (s : State) : Host.Outcome State Fault Refusal :=
  .next (fpCmp c f32 false pt pf a b (fun x y => ordered x y && !fpLt (fmtOf f32) x y && !fpLt (fmtOf f32) y x) s)

/-- FLT (R361). -/
def execOpFlt (c : OctCtx) (f32 : Bool) (pt pf a b : Nat) (s : State) : Host.Outcome State Fault Refusal :=
  .next (fpCmp c f32 true pt pf a b (fun x y => ordered x y && fpLt (fmtOf f32) x y) s)

/-- FLE (R361). -/
def execOpFle (c : OctCtx) (f32 : Bool) (pt pf a b : Nat) (s : State) : Host.Outcome State Fault Refusal :=
  .next (fpCmp c f32 true pt pf a b (fun x y => ordered x y && !fpLt (fmtOf f32) y x) s)

/-- FUN (R361): true with a NaN. -/
def execOpFun (c : OctCtx) (f32 : Bool) (pt pf a b : Nat) (s : State) : Host.Outcome State Fault Refusal :=
  .next (fpCmp c f32 false pt pf a b (fun x y => !ordered x y) s)

/-- FMADD: A × B + C (R319, R352). -/
def execOpFmadd (c : OctCtx) (f32 : Bool) (d a b cc : Nat) (s : State) : Host.Outcome State Fault Refusal :=
  .next (fpOp c f32 d (fun k => fpFma (fmtOf f32) (rmOf k.fctl) false false (k.fv f32 a) (k.fv f32 b) (k.fv f32 cc)) s)

/-- FMSUB: A × B − C (R319, R352). -/
def execOpFmsub (c : OctCtx) (f32 : Bool) (d a b cc : Nat) (s : State) : Host.Outcome State Fault Refusal :=
  .next (fpOp c f32 d (fun k => fpFma (fmtOf f32) (rmOf k.fctl) false true (k.fv f32 a) (k.fv f32 b) (k.fv f32 cc)) s)

/-- FNMADD: the negated fused multiply-add, −(A × B) − C (R319, R352). DEDUCED, log entry 20. -/
def execOpFnmadd (c : OctCtx) (f32 : Bool) (d a b cc : Nat) (s : State) : Host.Outcome State Fault Refusal :=
  .next (fpOp c f32 d (fun k => fpFma (fmtOf f32) (rmOf k.fctl) true true (k.fv f32 a) (k.fv f32 b) (k.fv f32 cc)) s)

/-- FNMSUB: the negated fused multiply-subtract, −(A × B) + C (R319, R352). DEDUCED, log entry 20. -/
def execOpFnmsub (c : OctCtx) (f32 : Bool) (d a b cc : Nat) (s : State) : Host.Outcome State Fault Refusal :=
  .next (fpOp c f32 d (fun k => fpFma (fmtOf f32) (rmOf k.fctl) true false (k.fv f32 a) (k.fv f32 b) (k.fv f32 cc)) s)

end Sys2Proof.Machine
end

