-- ==== Sys2Proof/Machine/Dispatch.lean ====
section
/-!
DEFINITION. What each command does: one arm for each constructor of `Instr`, each one direct call of its meaning.
-/

namespace Sys2Proof.Machine

def exec (i : Instr) (s : State) : Host.Outcome State Fault Refusal :=
  match i with
  | .registerWrite by_ addr size v => Sys2Proof.Machine.execRegisterWrite by_ addr size v s
  | .lowHalfRead by_ addr => Sys2Proof.Machine.execLowHalfRead by_ addr s
  | .hostReadIssue sch len => Sys2Proof.Machine.execHostReadIssue sch len s
  | .hostReadCompletion sch data => Sys2Proof.Machine.execHostReadCompletion sch data s
  | .epbStart by_ => Sys2Proof.Machine.execEpbStart by_ s
  | .epbStop by_ uj => Sys2Proof.Machine.execEpbStop by_ uj s
  | .epbCal by_ => Sys2Proof.Machine.execEpbCal by_ s
  | .epbCalDone traffic mw => Sys2Proof.Machine.execEpbCalDone traffic mw s
  | .epbLiveUpdate bytes uj => Sys2Proof.Machine.execEpbLiveUpdate bytes uj s
  | .stripeBufferGrant => Sys2Proof.Machine.execStripeBufferGrant s
  | .doorbellWrite fn off data => Sys2Proof.Machine.execDoorbellWrite fn off data s
  | .ctlStart fn => Sys2Proof.Machine.execCtlStart fn s
  | .ctlHalt fn => Sys2Proof.Machine.execCtlHalt fn s
  | .ctlClear fn => Sys2Proof.Machine.execCtlClear fn s
  | .ctlResume fn => Sys2Proof.Machine.execCtlResume fn s
  | .ctlTest fn => Sys2Proof.Machine.execCtlTest fn s
  | .controlWordInvalid fn => Sys2Proof.Machine.execControlWordInvalid fn s
  | .engineSlotGrant sch => Sys2Proof.Machine.execEngineSlotGrant sch s
  | .orderFetch sch data => Sys2Proof.Machine.execOrderFetch sch data s
  | .ordIngest sch list => Sys2Proof.Machine.execOrdIngest sch list s
  | .ordChunk sch => Sys2Proof.Machine.execOrdChunk sch s
  | .ordProbe sch => Sys2Proof.Machine.execOrdProbe sch s
  | .ordPack sch => Sys2Proof.Machine.execOrdPack sch s
  | .ordSeal sch => Sys2Proof.Machine.execOrdSeal sch s
  | .ordSpread sch block => Sys2Proof.Machine.execOrdSpread sch block s
  | .ordDigest sch => Sys2Proof.Machine.execOrdDigest sch s
  | .ordCommit sch => Sys2Proof.Machine.execOrdCommit sch s
  | .ordGather sch map => Sys2Proof.Machine.execOrdGather sch map s
  | .ordUnseal sch => Sys2Proof.Machine.execOrdUnseal sch s
  | .ordUnpack sch => Sys2Proof.Machine.execOrdUnpack sch s
  | .ordEmit sch list digFault => Sys2Proof.Machine.execOrdEmit sch list digFault s
  | .ordVerify sch => Sys2Proof.Machine.execOrdVerify sch s
  | .ordMedia sch block list dataOut => Sys2Proof.Machine.execOrdMedia sch block list dataOut s
  | .ordZone sch => Sys2Proof.Machine.execOrdZone sch s
  | .ordJump sch => Sys2Proof.Machine.execOrdJump sch s
  | .ordBranch sch => Sys2Proof.Machine.execOrdBranch sch s
  | .ordWait sch => Sys2Proof.Machine.execOrdWait sch s
  | .waitExpire sch => Sys2Proof.Machine.execWaitExpire sch s
  | .ordNote sch => Sys2Proof.Machine.execOrdNote sch s
  | .ordCallCore sch arg => Sys2Proof.Machine.execOrdCallCore sch arg s
  | .ordEnd sch => Sys2Proof.Machine.execOrdEnd sch s
  | .callPost sch => Sys2Proof.Machine.execCallPost sch s
  | .callAnswer by_ v => Sys2Proof.Machine.execCallAnswer by_ v s
  | .callCoreTimeout sch => Sys2Proof.Machine.execCallCoreTimeout sch s
  | .cohReady by_ => Sys2Proof.Machine.execCohReady by_ s
  | .clearDrained sch => Sys2Proof.Machine.execClearDrained sch s
  | .statusWordPost fn cq => Sys2Proof.Machine.execStatusWordPost fn cq s
  | .cqCoalesceTimeout fn cq => Sys2Proof.Machine.execCqCoalesceTimeout fn cq s
  | .journalRecordDurable => Sys2Proof.Machine.execJournalRecordDurable s
  | .retireRecordWrite fn cq => Sys2Proof.Machine.execRetireRecordWrite fn cq s
  | .journalCarry => Sys2Proof.Machine.execJournalCarry s
  | .contextAgeTick => Sys2Proof.Machine.execContextAgeTick s
  | .contextFill sch => Sys2Proof.Machine.execContextFill sch s
  | .journalReplay => Sys2Proof.Machine.execJournalReplay s
  | .redriveStart sch => Sys2Proof.Machine.execRedriveStart sch s
  | .functionReset fn clearQueues => Sys2Proof.Machine.execFunctionReset fn clearQueues s
  | .functionResetComplete fn => Sys2Proof.Machine.execFunctionResetComplete fn s
  | .schAssign by_ => Sys2Proof.Machine.execSchAssign by_ s
  | .schRelease by_ => Sys2Proof.Machine.execSchRelease by_ s
  | .streamPlaceGrant => Sys2Proof.Machine.execStreamPlaceGrant s
  | .chunkInputData sch n => Sys2Proof.Machine.execChunkInputData sch n s
  | .probeLookup sch => Sys2Proof.Machine.execProbeLookup sch s
  | .domCreate by_ => Sys2Proof.Machine.execDomCreate by_ s
  | .domDestroy by_ => Sys2Proof.Machine.execDomDestroy by_ s
  | .domSet by_ => Sys2Proof.Machine.execDomSet by_ s
  | .domainCmdComplete ok => Sys2Proof.Machine.execDomainCmdComplete ok s
  | .idxClear by_ => Sys2Proof.Machine.execIdxClear by_ s
  | .idxClearComplete => Sys2Proof.Machine.execIdxClearComplete s
  | .idxPurge by_ => Sys2Proof.Machine.execIdxPurge by_ s
  | .purgeScanComplete slot => Sys2Proof.Machine.execPurgeScanComplete slot s
  | .purgeSlotFree by_ mask => Sys2Proof.Machine.execPurgeSlotFree by_ mask s
  | .idxLoad by_ => Sys2Proof.Machine.execIdxLoad by_ s
  | .idxLoadComplete => Sys2Proof.Machine.execIdxLoadComplete s
  | .packChunkDone sch ordinal engine mismatch => Sys2Proof.Machine.execPackChunkDone sch ordinal engine mismatch s
  | .unpackChunk sch => Sys2Proof.Machine.execUnpackChunk sch s
  | .sealChunk sch lanePair mismatch => Sys2Proof.Machine.execSealChunk sch lanePair mismatch s
  | .unsealChunk sch mismatch => Sys2Proof.Machine.execUnsealChunk sch mismatch s
  | .keySlotLoad handle unwraps => Sys2Proof.Machine.execKeySlotLoad handle unwraps s
  | .spreadChunk sch synFault digFault => Sys2Proof.Machine.execSpreadChunk sch synFault digFault s
  | .shardWriteIssue stripe shard answer => Sys2Proof.Machine.execShardWriteIssue stripe shard answer s
  | .shardWriteComplete stripe shard status => Sys2Proof.Machine.execShardWriteComplete stripe shard status s
  | .commitDlogWrite sch => Sys2Proof.Machine.execCommitDlogWrite sch s
  | .dlogHeadWrite by_ v => Sys2Proof.Machine.execDlogHeadWrite by_ v s
  | .dirRequestPost => Sys2Proof.Machine.execDirRequestPost s
  | .dreqHeadWrite by_ v => Sys2Proof.Machine.execDreqHeadWrite by_ v s
  | .dreqRearm by_ => Sys2Proof.Machine.execDreqRearm by_ s
  | .dirFilled by_ kind => Sys2Proof.Machine.execDirFilled by_ kind s
  | .dirAbsent by_ kind => Sys2Proof.Machine.execDirAbsent by_ kind s
  | .dirFlush by_ => Sys2Proof.Machine.execDirFlush by_ s
  | .dirFlushComplete => Sys2Proof.Machine.execDirFlushComplete s
  | .epochClose => Sys2Proof.Machine.execEpochClose s
  | .epochSigned => Sys2Proof.Machine.execEpochSigned s
  | .manifestWriteComplete statuses => Sys2Proof.Machine.execManifestWriteComplete statuses s
  | .manifestNoticePost => Sys2Proof.Machine.execManifestNoticePost s
  | .manifestRetry => Sys2Proof.Machine.execManifestRetry s
  | .laneLinkChange lane up rate sasAddr => Sys2Proof.Machine.execLaneLinkChange lane up rate sasAddr s
  | .discRun by_ => Sys2Proof.Machine.execDiscRun by_ s
  | .broadcastChange lane => Sys2Proof.Machine.execBroadcastChange lane s
  | .discoveryComplete found expanders => Sys2Proof.Machine.execDiscoveryComplete found expanders s
  | .devRelease by_ => Sys2Proof.Machine.execDevRelease by_ s
  | .mediaCommandTimeout cmd => Sys2Proof.Machine.execMediaCommandTimeout cmd s
  | .mediaOrderComplete sch status data => Sys2Proof.Machine.execMediaOrderComplete sch status data s
  | .syncCacheComplete dev status => Sys2Proof.Machine.execSyncCacheComplete dev status s
  | .writeFilemarksComplete dev status => Sys2Proof.Machine.execWriteFilemarksComplete dev status s
  | .scrubPace dev answer => Sys2Proof.Machine.execScrubPace dev answer s
  | .scrubVerifyComplete dev status => Sys2Proof.Machine.execScrubVerifyComplete dev status s
  | .mediaEventPost => Sys2Proof.Machine.execMediaEventPost s
  | .injectReorderRelease slot => Sys2Proof.Machine.execInjectReorderRelease slot s
  | .memRead req line errs => Sys2Proof.Machine.execMemRead req line errs s
  | .memWrite req addr data => Sys2Proof.Machine.execMemWrite req addr data s
  | .channelTimeout stripe channel => Sys2Proof.Machine.execChannelTimeout stripe channel s
  | .frontEndSwitchComplete => Sys2Proof.Machine.execFrontEndSwitchComplete s
  | .stripeMark by_ stripe => Sys2Proof.Machine.execStripeMark by_ stripe s
  | .stripeClear by_ stripe => Sys2Proof.Machine.execStripeClear by_ stripe s
  | .memAgePromote group => Sys2Proof.Machine.execMemAgePromote group s
  | .refreshDue group => Sys2Proof.Machine.execRefreshDue group s
  | .mr4Poll rates => Sys2Proof.Machine.execMr4Poll rates s
  | .dqsOscCheck stripe channel drift => Sys2Proof.Machine.execDqsOscCheck stripe channel drift s
  | .channelRetrainComplete stripe channel ok => Sys2Proof.Machine.execChannelRetrainComplete stripe channel ok s
  | .patrolScrubRead errs => Sys2Proof.Machine.execPatrolScrubRead errs s
  | .mramWriteComplete => Sys2Proof.Machine.execMramWriteComplete s
  | .jnlScrubRead area block badA badB => Sys2Proof.Machine.execJnlScrubRead area block badA badB s
  | .mramDieFail die => Sys2Proof.Machine.execMramDieFail die s
  | .supplyFault => Sys2Proof.Machine.execSupplyFault s
  | .coreStart pod core => Sys2Proof.Machine.execCoreStart pod core s
  | .opAdd c ov d a b => Sys2Proof.Machine.execOpAdd c ov d a b s
  | .opSub c ov d a b => Sys2Proof.Machine.execOpSub c ov d a b s
  | .opAnd c d a b => Sys2Proof.Machine.execOpAnd c d a b s
  | .opOr c d a b => Sys2Proof.Machine.execOpOr c d a b s
  | .opXor c d a b => Sys2Proof.Machine.execOpXor c d a b s
  | .opAndn c d a b => Sys2Proof.Machine.execOpAndn c d a b s
  | .opSll c d a b => Sys2Proof.Machine.execOpSll c d a b s
  | .opSrl c d a b => Sys2Proof.Machine.execOpSrl c d a b s
  | .opSra c d a b => Sys2Proof.Machine.execOpSra c d a b s
  | .opRol c d a b => Sys2Proof.Machine.execOpRol c d a b s
  | .opRor c d a b => Sys2Proof.Machine.execOpRor c d a b s
  | .opMin c d a b => Sys2Proof.Machine.execOpMin c d a b s
  | .opMax c d a b => Sys2Proof.Machine.execOpMax c d a b s
  | .opMinu c d a b => Sys2Proof.Machine.execOpMinu c d a b s
  | .opMaxu c d a b => Sys2Proof.Machine.execOpMaxu c d a b s
  | .opNeg c ov d a => Sys2Proof.Machine.execOpNeg c ov d a s
  | .opMul c ov d a b => Sys2Proof.Machine.execOpMul c ov d a b s
  | .opMulh c d a b => Sys2Proof.Machine.execOpMulh c d a b s
  | .opMulhu c d a b => Sys2Proof.Machine.execOpMulhu c d a b s
  | .opDiv c w32 d a b => Sys2Proof.Machine.execOpDiv c w32 d a b s
  | .opDivu c w32 d a b => Sys2Proof.Machine.execOpDivu c w32 d a b s
  | .opRem c w32 d a b => Sys2Proof.Machine.execOpRem c w32 d a b s
  | .opRemu c w32 d a b => Sys2Proof.Machine.execOpRemu c w32 d a b s
  | .opCmpEq c pt pf a b => Sys2Proof.Machine.execOpCmpEq c pt pf a b s
  | .opCmpNe c pt pf a b => Sys2Proof.Machine.execOpCmpNe c pt pf a b s
  | .opCmpLt c pt pf a b => Sys2Proof.Machine.execOpCmpLt c pt pf a b s
  | .opCmpGe c pt pf a b => Sys2Proof.Machine.execOpCmpGe c pt pf a b s
  | .opCmpLtu c pt pf a b => Sys2Proof.Machine.execOpCmpLtu c pt pf a b s
  | .opCmpGeu c pt pf a b => Sys2Proof.Machine.execOpCmpGeu c pt pf a b s
  | .opPand c d a b => Sys2Proof.Machine.execOpPand c d a b s
  | .opPor c d a b => Sys2Proof.Machine.execOpPor c d a b s
  | .opPxor c d a b => Sys2Proof.Machine.execOpPxor c d a b s
  | .opPandn c d a b => Sys2Proof.Machine.execOpPandn c d a b s
  | .opMovgp c d a => Sys2Proof.Machine.execOpMovgp c d a s
  | .opMovpg c d a => Sys2Proof.Machine.execOpMovpg c d a s
  | .opAddi c d a imm => Sys2Proof.Machine.execOpAddi c d a imm s
  | .opAndi c d a imm => Sys2Proof.Machine.execOpAndi c d a imm s
  | .opOri c d a imm => Sys2Proof.Machine.execOpOri c d a imm s
  | .opXori c d a imm => Sys2Proof.Machine.execOpXori c d a imm s
  | .opSlli c d a n => Sys2Proof.Machine.execOpSlli c d a n s
  | .opSrli c d a n => Sys2Proof.Machine.execOpSrli c d a n s
  | .opSrai c d a n => Sys2Proof.Machine.execOpSrai c d a n s
  | .opRori c d a n => Sys2Proof.Machine.execOpRori c d a n s
  | .opMov c d a => Sys2Proof.Machine.execOpMov c d a s
  | .opLi c d imm => Sys2Proof.Machine.execOpLi c d imm s
  | .opLih c d imm => Sys2Proof.Machine.execOpLih c d imm s
  | .opLa c d imm => Sys2Proof.Machine.execOpLa c d imm s
  | .opLd c size sx aq d a off => Sys2Proof.Machine.execOpLd c size sx aq d a off s
  | .opSt c size rl d a off => Sys2Proof.Machine.execOpSt c size rl d a off s
  | .opFld c size aq d a off => Sys2Proof.Machine.execOpFld c size aq d a off s
  | .opFst c size rl d a off => Sys2Proof.Machine.execOpFst c size rl d a off s
  | .opJump c off => Sys2Proof.Machine.execOpJump c off s
  | .opCall c off => Sys2Proof.Machine.execOpCall c off s
  | .opJumpr c a => Sys2Proof.Machine.execOpJumpr c a s
  | .opCallr c a => Sys2Proof.Machine.execOpCallr c a s
  | .opRet c => Sys2Proof.Machine.execOpRet c s
  | .opEret c => Sys2Proof.Machine.execOpEret c s
  | .opFadd c f32 d a b => Sys2Proof.Machine.execOpFadd c f32 d a b s
  | .opFsub c f32 d a b => Sys2Proof.Machine.execOpFsub c f32 d a b s
  | .opFmul c f32 d a b => Sys2Proof.Machine.execOpFmul c f32 d a b s
  | .opFdiv c f32 d a b => Sys2Proof.Machine.execOpFdiv c f32 d a b s
  | .opFsqrt c f32 d a => Sys2Proof.Machine.execOpFsqrt c f32 d a s
  | .opFmin c f32 d a b => Sys2Proof.Machine.execOpFmin c f32 d a b s
  | .opFmax c f32 d a b => Sys2Proof.Machine.execOpFmax c f32 d a b s
  | .opFsgnj c f32 d a b => Sys2Proof.Machine.execOpFsgnj c f32 d a b s
  | .opFcvtI c f32 d a => Sys2Proof.Machine.execOpFcvtI c f32 d a s
  | .opFcvtU c f32 d a => Sys2Proof.Machine.execOpFcvtU c f32 d a s
  | .opIcvtF c f32 d a => Sys2Proof.Machine.execOpIcvtF c f32 d a s
  | .opUcvtF c f32 d a => Sys2Proof.Machine.execOpUcvtF c f32 d a s
  | .opFcvtP c widen d a => Sys2Proof.Machine.execOpFcvtP c widen d a s
  | .opFmovg c d a => Sys2Proof.Machine.execOpFmovg c d a s
  | .opFmovf c d a => Sys2Proof.Machine.execOpFmovf c d a s
  | .opFeq c f32 pt pf a b => Sys2Proof.Machine.execOpFeq c f32 pt pf a b s
  | .opFlt c f32 pt pf a b => Sys2Proof.Machine.execOpFlt c f32 pt pf a b s
  | .opFle c f32 pt pf a b => Sys2Proof.Machine.execOpFle c f32 pt pf a b s
  | .opFun c f32 pt pf a b => Sys2Proof.Machine.execOpFun c f32 pt pf a b s
  | .opFmadd c f32 d a b cc => Sys2Proof.Machine.execOpFmadd c f32 d a b cc s
  | .opFmsub c f32 d a b cc => Sys2Proof.Machine.execOpFmsub c f32 d a b cc s
  | .opFnmadd c f32 d a b cc => Sys2Proof.Machine.execOpFnmadd c f32 d a b cc s
  | .opFnmsub c f32 d a b cc => Sys2Proof.Machine.execOpFnmsub c f32 d a b cc s
  | .opFence c => Sys2Proof.Machine.execOpFence c s
  | .opFenceC c => Sys2Proof.Machine.execOpFenceC c s
  | .opIsync c => Sys2Proof.Machine.execOpIsync c s
  | .opMcall c service => Sys2Proof.Machine.execOpMcall c service s
  | .opBrk c service => Sys2Proof.Machine.execOpBrk c service s
  | .opWfi c => Sys2Proof.Machine.execOpWfi c s
  | .opCrr c d k => Sys2Proof.Machine.execOpCrr c d k s
  | .opCrw c k a => Sys2Proof.Machine.execOpCrw c k a s
  | .opTlbw c itlb => Sys2Proof.Machine.execOpTlbw c itlb s
  | .opTlbr c itlb a => Sys2Proof.Machine.execOpTlbr c itlb a s
  | .opTlbiA c itlb a b => Sys2Proof.Machine.execOpTlbiA c itlb a b s
  | .opTlbiT c itlb a => Sys2Proof.Machine.execOpTlbiT c itlb a s
  | .opTlbiAll c itlb => Sys2Proof.Machine.execOpTlbiAll c itlb s
  | .opTlbiLk c itlb => Sys2Proof.Machine.execOpTlbiLk c itlb s
  | .opIn c size d a off => Sys2Proof.Machine.execOpIn c size d a off s
  | .opOut c size d a off => Sys2Proof.Machine.execOpOut c size d a off s
  | .opLdi c size d a off => Sys2Proof.Machine.execOpLdi c size d a off s
  | .opSti c size d a off => Sys2Proof.Machine.execOpSti c size d a off s
  | .amoAdd c m => Sys2Proof.Machine.execAmoAdd c m s
  | .amoSwap c m => Sys2Proof.Machine.execAmoSwap c m s
  | .amoCas c m cc => Sys2Proof.Machine.execAmoCas c m cc s
  | .amoAnd c m => Sys2Proof.Machine.execAmoAnd c m s
  | .amoOr c m => Sys2Proof.Machine.execAmoOr c m s
  | .amoXor c m => Sys2Proof.Machine.execAmoXor c m s
  | .amoMax c m => Sys2Proof.Machine.execAmoMax c m s
  | .amoMin c m => Sys2Proof.Machine.execAmoMin c m s
  | .interruptTake pod core => Sys2Proof.Machine.execInterruptTake pod core s
  | .ipiRaise by_ pod core => Sys2Proof.Machine.execIpiRaise by_ pod core s
  | .timecmpMatch pod core => Sys2Proof.Machine.execTimecmpMatch pod core s
  | .cohMaintAddrWrite c v => Sys2Proof.Machine.execCohMaintAddrWrite c v s
  | .mtClean c => Sys2Proof.Machine.execMtClean c s
  | .mtCleanInv c => Sys2Proof.Machine.execMtCleanInv c s
  | .mtInv c => Sys2Proof.Machine.execMtInv c s
  | .mtZero c => Sys2Proof.Machine.execMtZero c s
  | .mtLock c => Sys2Proof.Machine.execMtLock c s
  | .mtUnlock c => Sys2Proof.Machine.execMtUnlock c s
  | .getShared pod line => Sys2Proof.Machine.execGetShared pod line s
  | .getExclusive pod line => Sys2Proof.Machine.execGetExclusive pod line s
  | .putLine pod line => Sys2Proof.Machine.execPutLine pod line s
  | .snoop pod line => Sys2Proof.Machine.execSnoop pod line s
  | .cohNackRetry pod line => Sys2Proof.Machine.execCohNackRetry pod line s
  | .cohAgentTimeout agent => Sys2Proof.Machine.execCohAgentTimeout agent s
  | .coreDomainRestart regionOk => Sys2Proof.Machine.execCoreDomainRestart regionOk s
  | .cacheScrub array outcome => Sys2Proof.Machine.execCacheScrub array outcome s
  | .lockstepMismatch pod lanes retire checkpointBad => Sys2Proof.Machine.execLockstepMismatch pod lanes retire checkpointBad s
  | .comparatorFault pod => Sys2Proof.Machine.execComparatorFault pod s
  | .retrySuccess pod => Sys2Proof.Machine.execRetrySuccess pod s
  | .sparingTimeout pod => Sys2Proof.Machine.execSparingTimeout pod s
  | .sparingComplete pod => Sys2Proof.Machine.execSparingComplete pod s
  | .podSplit by_ pod => Sys2Proof.Machine.execPodSplit by_ pod s
  | .podPark by_ pod => Sys2Proof.Machine.execPodPark by_ pod s
  | .podCheck by_ pod parityOk => Sys2Proof.Machine.execPodCheck by_ pod parityOk s
  | .warmRestart by_ pod => Sys2Proof.Machine.execWarmRestart by_ pod s
  | .faultEvent ev => Sys2Proof.Machine.execFaultEvent ev s
  | .regionRestartComplete region => Sys2Proof.Machine.execRegionRestartComplete region s
  | .fltAck by_ mask => Sys2Proof.Machine.execFltAck by_ mask s
  | .fltCaptureRearm by_ => Sys2Proof.Machine.execFltCaptureRearm by_ s
  | .fltInject by_ v => Sys2Proof.Machine.execFltInject by_ v s
  | .collectorHeartbeatMiss copyB => Sys2Proof.Machine.execCollectorHeartbeatMiss copyB s
  | .ringFrameReceive port f crcOk hdrOk => Sys2Proof.Machine.execRingFrameReceive port f crcOk hdrOk s
  | .ringAck src cls cum bitmap => Sys2Proof.Machine.execRingAck src cls cum bitmap s
  | .claimNack src cls claim seq => Sys2Proof.Machine.execClaimNack src cls claim seq s
  | .ringAnnounce src mode serial pairId claim session => Sys2Proof.Machine.execRingAnnounce src mode serial pairId claim session s
  | .announceTick => Sys2Proof.Machine.execAnnounceTick s
  | .nodeListTimeout node => Sys2Proof.Machine.execNodeListTimeout node s
  | .ringLeave src port => Sys2Proof.Machine.execRingLeave src port s
  | .ringClaim src pairId claim => Sys2Proof.Machine.execRingClaim src pairId claim s
  | .ringRemove src pairId => Sys2Proof.Machine.execRingRemove src pairId s
  | .mirrorMessage src seq m => Sys2Proof.Machine.execMirrorMessage src seq m s
  | .remoteStart h addr => Sys2Proof.Machine.execRemoteStart h addr s
  | .remoteControl h ctl tag => Sys2Proof.Machine.execRemoteControl h ctl tag s
  | .remoteRead h data => Sys2Proof.Machine.execRemoteRead h data s
  | .readData h data => Sys2Proof.Machine.execReadData h data s
  | .remoteWrite h bulk data => Sys2Proof.Machine.execRemoteWrite h bulk data s
  | .remoteStatus h word => Sys2Proof.Machine.execRemoteStatus h word s
  | .remoteQuery h => Sys2Proof.Machine.execRemoteQuery h s
  | .remoteAnswer h posted => Sys2Proof.Machine.execRemoteAnswer h posted s
  | .remoteReset h gen => Sys2Proof.Machine.execRemoteReset h gen s
  | .frameTransmit port => Sys2Proof.Machine.execFrameTransmit port s
  | .creditReturn port cls units => Sys2Proof.Machine.execCreditReturn port cls units s
  | .retxTimeout dst cls seq => Sys2Proof.Machine.execRetxTimeout dst cls seq s
  | .portLoss port => Sys2Proof.Machine.execPortLoss port s
  | .portUnwrap port => Sys2Proof.Machine.execPortUnwrap port s
  | .spanLockTimeout port => Sys2Proof.Machine.execSpanLockTimeout port s
  | .loopbackTestComplete passW passE => Sys2Proof.Machine.execLoopbackTestComplete passW passE s
  | .memsPositionCheck sensedBypass => Sys2Proof.Machine.execMemsPositionCheck sensedBypass s
  | .rngInsertWrite by_ v => Sys2Proof.Machine.execRngInsertWrite by_ v s
  | .leaveBypass => Sys2Proof.Machine.execLeaveBypass s
  | .ringInjectRelease slot => Sys2Proof.Machine.execRingInjectRelease slot s
  | .hostPortReset wasUp refclk => Sys2Proof.Machine.execHostPortReset wasUp refclk s
  | .linkUpconfigure upcfg speed width => Sys2Proof.Machine.execLinkUpconfigure upcfg speed width s
  | .configRequest fn reg wr => Sys2Proof.Machine.execConfigRequest fn reg wr s
  | .flr vf => Sys2Proof.Machine.execFlr vf s
  | .vfEnableClear => Sys2Proof.Machine.execVfEnableClear s
  | .powerStateChange fn d3 => Sys2Proof.Machine.execPowerStateChange fn d3 s
  | .fnCqCfgWrite fn cq base v => Sys2Proof.Machine.execFnCqCfgWrite fn cq base v s
  | .fnCqHeadWrite fn cq v => Sys2Proof.Machine.execFnCqHeadWrite fn cq v s
  | .vfCreate by_ => Sys2Proof.Machine.execVfCreate by_ s
  | .vfDestroy by_ => Sys2Proof.Machine.execVfDestroy by_ s
  | .vfmReset by_ => Sys2Proof.Machine.execVfmReset by_ s
  | .vfmPause by_ => Sys2Proof.Machine.execVfmPause by_ s
  | .vfmUnpause by_ => Sys2Proof.Machine.execVfmUnpause by_ s
  | .vfmSetwin by_ => Sys2Proof.Machine.execVfmSetwin by_ s
  | .mailboxSend fromPf vf len => Sys2Proof.Machine.execMailboxSend fromPf vf len s
  | .mailboxAck fromPf vf => Sys2Proof.Machine.execMailboxAck fromPf vf s
  | .dirtySync by_ => Sys2Proof.Machine.execDirtySync by_ s
  | .dirtySyncComplete fn => Sys2Proof.Machine.execDirtySyncComplete fn s
  | .heartbeatSend => Sys2Proof.Machine.execHeartbeatSend s
  | .heartbeatReceive frame => Sys2Proof.Machine.execHeartbeatReceive frame s
  | .heartbeatLoss => Sys2Proof.Machine.execHeartbeatLoss s
  | .takeoverConfirm => Sys2Proof.Machine.execTakeoverConfirm s
  | .takeoverComplete => Sys2Proof.Machine.execTakeoverComplete s
  | .isolationCheck holder => Sys2Proof.Machine.execIsolationCheck holder s
  | .clmTakeover by_ => Sys2Proof.Machine.execClmTakeover by_ s
  | .forceActive by_ => Sys2Proof.Machine.execForceActive by_ s
  | .clmDetach by_ => Sys2Proof.Machine.execClmDetach by_ s
  | .clmResync by_ => Sys2Proof.Machine.execClmResync by_ s
  | .resyncComplete peerDigest => Sys2Proof.Machine.execResyncComplete peerDigest s
  | .switchback by_ => Sys2Proof.Machine.execSwitchback by_ s
  | .tmbAttest => Sys2Proof.Machine.execTmbAttest s
  | .tmbCerts => Sys2Proof.Machine.execTmbCerts s
  | .tmbRandom => Sys2Proof.Machine.execTmbRandom s
  | .tmbKeyCreate => Sys2Proof.Machine.execTmbKeyCreate s
  | .tmbKeyImport => Sys2Proof.Machine.execTmbKeyImport s
  | .tmbKeyRevoke => Sys2Proof.Machine.execTmbKeyRevoke s
  | .tmbKekProvision => Sys2Proof.Machine.execTmbKekProvision s
  | .tmbFuseSlot => Sys2Proof.Machine.execTmbFuseSlot s
  | .tmbFuseRevoke => Sys2Proof.Machine.execTmbFuseRevoke s
  | .tmbRollback => Sys2Proof.Machine.execTmbRollback s
  | .tmbDebugKill => Sys2Proof.Machine.execTmbDebugKill s
  | .tmbKick by_ => Sys2Proof.Machine.execTmbKick by_ s
  | .tuberWatchdogExpire => Sys2Proof.Machine.execTuberWatchdogExpire s
  | .tuberRestartComplete readOk => Sys2Proof.Machine.execTuberRestartComplete readOk s
  | .entropyHealthFail => Sys2Proof.Machine.execEntropyHealthFail s
  | .pwrReq by_ v => Sys2Proof.Machine.execPwrReq by_ v s
  | .pwrHoldClear domain => Sys2Proof.Machine.execPwrHoldClear domain s
  | .pwrHoldTimeout => Sys2Proof.Machine.execPwrHoldTimeout s
  | .pwrForce by_ v => Sys2Proof.Machine.execPwrForce by_ v s
  | .domainPowerComplete domain => Sys2Proof.Machine.execDomainPowerComplete domain s
  | .pwrPodMhzWrite by_ pod v => Sys2Proof.Machine.execPwrPodMhzWrite by_ pod v s
  | .logExportedWrite by_ v => Sys2Proof.Machine.execLogExportedWrite by_ v s
  | .logExportEnable by_ v => Sys2Proof.Machine.execLogExportEnable by_ v s
  | .logEntryExport => Sys2Proof.Machine.execLogEntryExport s
  | .checkpointClose badSeq => Sys2Proof.Machine.execCheckpointClose badSeq s
  | .checkpointSigned => Sys2Proof.Machine.execCheckpointSigned s
  | .logCkptExportedWrite by_ v => Sys2Proof.Machine.execLogCkptExportedWrite by_ v s
  | .debugReq by_ level => Sys2Proof.Machine.execDebugReq by_ level s
  | .debugCheck by_ response => Sys2Proof.Machine.execDebugCheck by_ response s
  | .debugChallengeExpire => Sys2Proof.Machine.execDebugChallengeExpire s
  | .modRestart by_ retain clear => Sys2Proof.Machine.execModRestart by_ retain clear s
  | .modDormant by_ => Sys2Proof.Machine.execModDormant by_ s
  | .modWake by_ => Sys2Proof.Machine.execModWake by_ s
  | .modMaintenance by_ => Sys2Proof.Machine.execModMaintenance by_ s
  | .maintenanceDrainTimeout => Sys2Proof.Machine.execMaintenanceDrainTimeout s
  | .modInstall by_ set => Sys2Proof.Machine.execModInstall by_ set s
  | .wakeTimeReached => Sys2Proof.Machine.execWakeTimeReached s
  | .wakeFail cause => Sys2Proof.Machine.execWakeFail cause s
  | .supplyInRegulation posId => Sys2Proof.Machine.execSupplyInRegulation posId s
  | .sporeReady => Sys2Proof.Machine.execSporeReady s
  | .sporeRetryDelay => Sys2Proof.Machine.execSporeRetryDelay s
  | .tuberVerifyDone bootRead otherRead => Sys2Proof.Machine.execTuberVerifyDone bootRead otherRead s
  | .dramTrainingDone failedStripes => Sys2Proof.Machine.execDramTrainingDone failedStripes s
  | .selftestDone failedPods => Sys2Proof.Machine.execSelftestDone failedPods s
  | .ringLockDone failPort peerKeyAbove => Sys2Proof.Machine.execRingLockDone failPort peerKeyAbove s
  | .mainImageLoaded bankRead otherRead => Sys2Proof.Machine.execMainImageLoaded bankRead otherRead s
  | .startWatchdogExpire => Sys2Proof.Machine.execStartWatchdogExpire s
  | .startCountClear => Sys2Proof.Machine.execStartCountClear s
  | .timEpochWrite by_ v => Sys2Proof.Machine.execTimEpochWrite by_ v s
  | .timSave => Sys2Proof.Machine.execTimSave s
  | .setEndpointId op eid => Sys2Proof.Machine.execSetEndpointId op eid s
  | .getEndpointId => Sys2Proof.Machine.execGetEndpointId s
  | .getMctpVersionSupport msgType => Sys2Proof.Machine.execGetMctpVersionSupport msgType s
  | .getMessageTypeSupport => Sys2Proof.Machine.execGetMessageTypeSupport s
  | .getVendorDefinedMessageSupport selector => Sys2Proof.Machine.execGetVendorDefinedMessageSupport selector s
  | .getStatus inst data => Sys2Proof.Machine.execGetStatus inst data s
  | .getSensors inst data => Sys2Proof.Machine.execGetSensors inst data s
  | .requestMode inst data => Sys2Proof.Machine.execRequestMode inst data s
  | .getSpore inst data => Sys2Proof.Machine.execGetSpore inst data s
  | .resetNAssert => Sys2Proof.Machine.execResetNAssert s
  | .resetNRelease => Sys2Proof.Machine.execResetNRelease s
  | .thermalStep tj lid island => Sys2Proof.Machine.execThermalStep tj lid island s
  | .ageMonitorRead needs => Sys2Proof.Machine.execAgeMonitorRead needs s
  | .refreshPassComplete => Sys2Proof.Machine.execRefreshPassComplete s
  | .shardReadComplete sch stripe shard status data => Sys2Proof.Machine.execShardReadComplete sch stripe shard status data s
  | .persistentReserveComplete dev kind status data => Sys2Proof.Machine.execPersistentReserveComplete dev kind status data s
  | .fillData pod line => Sys2Proof.Machine.execFillData pod line s
  | .putAck pod line => Sys2Proof.Machine.execPutAck pod line s
  | .snoopAnswer pod line => Sys2Proof.Machine.execSnoopAnswer pod line s
  | .entropyStartUpTestPass => Sys2Proof.Machine.execEntropyStartUpTestPass s

end Sys2Proof.Machine
end

