-- ==== Sys2Proof/Machine/Tick.lean ====
section
/-!
DEFINITION. What happens at a tick of the clock, when no command waits: time, buffered stores, the FIFOs of the media lanes and
PANIC time (R246, R373, R568; DESIGN CHOICE, log entry 4).
-/

namespace Sys2Proof.Machine

/-- Each lane's link takes a free number of bytes from its FIFO. DESIGN CHOICE, log entry 4. DESIGN CHOICE, log entry 92. -/
def drainLanes (s : State) : State :=
  (kvKeys s.mpt.lanes).foldl (fun s l =>
    let (n, s) := s.draw
    laneDrain l (Config.freeNat n % 262145) s) s

/-- Time during which some lane asserts PANIC is counted (MEM_PANIC_TIME). DESIGN CHOICE, log entry 4. -/
def panicTime (s : State) : State := if s.get .MPT_PANIC_LANES = 0 then s else s.bump .MEM_PANIC_TIME_NS

/-- One nanosecond passes; without 12 V nothing does. DESIGN CHOICE, log entry 4. -/
def tick (s : State) : State :=
  if s.mode = Mode.off then s
  else settle (wrapDue (drainLanes (panicTime (drainOne (s.bump .TIM_NOW_NS)))))

end Sys2Proof.Machine
end

