-- ==== Sys2Proof/Safety.lean ====
section
/-!
DEFINITION. The terms in which claims about the block are stated: what lets a command reach its work, what a run keeps, and
what counts as a safe command.
-/

namespace Sys2Proof.Machine

/-! ## When a command reaches its work -/

/-- An access of an origin reaches a register: the module has power, the origin has a way to the register (R13, R494, R495)
and the register's block is lit (R14, R493). No high half is latched that the access would discard (R11). -/
abbrev State.lit (s : State) (o : Origin) (r : Reg) : Prop :=
  s.mode ≠ Mode.off ∧ s.wayTo o (regBase r) = true ∧ s.blockDark (regBase r) = false ∧ s.hst.latch = none

/-- A main core is ready to do the work of an instruction: it runs, it waits for nothing, every parcel can be fetched, the
prefix sequence and the fixed fields are as the form asks, and the guard is true (R320, R337). -/
abbrev OctReady (c : OctCtx) (k : OctCore) (s : State) : Prop :=
  c.pod ≠ 16 ∧ kvGet? s.cores (coreKey c) = some k ∧ k.run = .running ∧ k.wait = none ∧
  fetchFault s k c.parcels = none ∧ c.prefixOk = true ∧ guardOf c k = true ∧ c.fieldsOk = true

/-- Tuber's core is ready to do the work of an instruction (R340). -/
abbrev TuberReady (c : OctCtx) (k : OctCore) (s : State) : Prop :=
  c.pod = 16 ∧ c.core = 0 ∧ s.tub.core = some k ∧ tuberFetchFault k c.parcels = none ∧ c.prefixOk = true ∧
  guardOf c k = true ∧ c.fieldsOk = true

/-- The state in which the core of `c`, now `k`, has retired its instruction with its registers as in `k'` and goes on with
the instruction at `pc`. -/
def retiredAt (c : OctCtx) (k k' : OctCore) (pc : Word) (s : State) : State :=
  { s with cores := kvSet s.cores (coreKey c) { k' with pc := pc, retire := k.retire + 1 } }

/-- The same, going on with the next instruction. -/
def retired (c : OctCtx) (k k' : OctCore) (s : State) : State := retiredAt c k k' (nextPc c k) s

/-- Tuber's core has retired its instruction with its registers as in `k'`. -/
def tuberRetired (c : OctCtx) (k k' : OctCore) (s : State) : State :=
  { s with tub := { s.tub with core := some { k' with pc := nextPc c k, retire := k.retire + 1 } } }

/-- A core, a main one or Tuber's, is ready for an instruction that is the same on both. -/
abbrev OnCore (c : OctCtx) (k : OctCore) (s : State) : Prop := OctReady c k s ∨ TuberReady c k s

/-- The core of `c` has retired its instruction with its registers as in `k'`. -/
def retiredOn (c : OctCtx) (k k' : OctCore) (s : State) : State :=
  if c.pod = 16 then tuberRetired c k k' s else retired c k k' s

/-- The core of `c`, a main one that stood as `k`, is changed by `f`, retires and goes on at `pc`. -/
def goesTo (c : OctCtx) (pc : Word) (f : OctCore → OctCore) (s : State) : State :=
  s.modCore (coreKey c) (fun x => retireTo pc (f x))

/-- The same, going on with the next instruction. -/
def goesOn (c : OctCtx) (k : OctCore) (f : OctCore → OctCore) (s : State) : State := goesTo c (nextPc c k) f s

/-- Tuber's core is changed by `f`, retires and goes on at `pc`. -/
def tuberGoesTo (pc : Word) (f : OctCore → OctCore) (s : State) : State := s.modTuber (fun x => retireTo pc (f x))

/-- A data access of a core passes every check (R326, R332, R337, R372): its physical pieces. -/
abbrev Reaches (s : State) (k : OctCore) (need : Need) (acc : Access) (writes amo : Bool) (va : Word) (n : Nat)
    (l : List (Nat × Nat)) : Prop :=
  checkAccess s k { need := need, access := acc, writes := writes, amo := amo } va n = .ok l

/-! ## When an order runs -/

/-- The order at the front of the program `p` of subchannel `k`, of opcode `op`, can run: the program may act, its context is
in the cache (`u` is the state after the lookup), it runs no order and the fetch succeeded (R48, R125). -/
abbrev OrderReady (k op : Nat) (p : Prog) (f : Fetched) (t : List Fetched) (s u : State) : Prop :=
  s.live k = some p ∧ ctxTouch k (p.engine.getD 0) s = (true, u) ∧ p.run = none ∧ p.fetched = f :: t ∧
  f.failed = false ∧ (parseOrd f.raw).op = op

/-- The transfer an order begins with: fresh, or that of the join it continues (R66). -/
def beginXfer (p : Prog) (f : Fetched) : Xfer :=
  let o := parseOrd f.raw
  let n := if countsBytes o.op then o.count else 0
  match p.join with
  | some (_, r) => { r.x with total := r.x.total + n, short := o.short, sink := o.sink, mark := o.mark, dev := o.dev }
  | none => { addr := f.addr, sel := o.sel, total := n, short := o.short, sink := o.sink, mark := o.mark, dev := o.dev }

/-- The run an order begins with. -/
def beginRun (p : Prog) (f : Fetched) (place : RunAt) : Run :=
  { addr := f.addr, raw := f.raw, x := beginXfer p f, place := place }

/-- The program once its order has begun: the order is off the list, and data, completion and CALL-CORE orders end a row of
control transfers (R91). -/
def beginProg (p : Prog) (f : Fetched) (t : List Fetched) (place : RunAt) : Prog :=
  { p with
    run := some (beginRun p f place), fetched := t
    transfers := if clearsTransfers (parseOrd f.raw).op then 0 else p.transfers }

/-- The state once its order has begun: more orders are asked for when it was the last but seven fetched (R52). -/
def beginState (k : Nat) (p : Prog) (f : Fetched) (t : List Fetched) (place : RunAt) (u : State) : State :=
  let s := modProg k (fun _ => beginProg p f t place) u
  if t.length = 7 then fetchMore k s else s

/-! ## Octip instructions among the commands -/

/-- Who runs an Octip instruction; none for any other command. -/
def octipCtx : Instr → Option OctCtx
  | .opAdd c _ _ _ _ => some c
  | .opSub c _ _ _ _ => some c
  | .opAnd c _ _ _ => some c
  | .opOr c _ _ _ => some c
  | .opXor c _ _ _ => some c
  | .opAndn c _ _ _ => some c
  | .opSll c _ _ _ => some c
  | .opSrl c _ _ _ => some c
  | .opSra c _ _ _ => some c
  | .opRol c _ _ _ => some c
  | .opRor c _ _ _ => some c
  | .opMin c _ _ _ => some c
  | .opMax c _ _ _ => some c
  | .opMinu c _ _ _ => some c
  | .opMaxu c _ _ _ => some c
  | .opNeg c _ _ _ => some c
  | .opMul c _ _ _ _ => some c
  | .opMulh c _ _ _ => some c
  | .opMulhu c _ _ _ => some c
  | .opDiv c _ _ _ _ => some c
  | .opDivu c _ _ _ _ => some c
  | .opRem c _ _ _ _ => some c
  | .opRemu c _ _ _ _ => some c
  | .opCmpEq c _ _ _ _ => some c
  | .opCmpNe c _ _ _ _ => some c
  | .opCmpLt c _ _ _ _ => some c
  | .opCmpGe c _ _ _ _ => some c
  | .opCmpLtu c _ _ _ _ => some c
  | .opCmpGeu c _ _ _ _ => some c
  | .opPand c _ _ _ => some c
  | .opPor c _ _ _ => some c
  | .opPxor c _ _ _ => some c
  | .opPandn c _ _ _ => some c
  | .opMovgp c _ _ => some c
  | .opMovpg c _ _ => some c
  | .opAddi c _ _ _ => some c
  | .opAndi c _ _ _ => some c
  | .opOri c _ _ _ => some c
  | .opXori c _ _ _ => some c
  | .opSlli c _ _ _ => some c
  | .opSrli c _ _ _ => some c
  | .opSrai c _ _ _ => some c
  | .opRori c _ _ _ => some c
  | .opMov c _ _ => some c
  | .opLi c _ _ => some c
  | .opLih c _ _ => some c
  | .opLa c _ _ => some c
  | .opLd c _ _ _ _ _ _ => some c
  | .opSt c _ _ _ _ _ => some c
  | .opFld c _ _ _ _ _ => some c
  | .opFst c _ _ _ _ _ => some c
  | .opJump c _ => some c
  | .opCall c _ => some c
  | .opJumpr c _ => some c
  | .opCallr c _ => some c
  | .opRet c => some c
  | .opEret c => some c
  | .opFadd c _ _ _ _ => some c
  | .opFsub c _ _ _ _ => some c
  | .opFmul c _ _ _ _ => some c
  | .opFdiv c _ _ _ _ => some c
  | .opFsqrt c _ _ _ => some c
  | .opFmin c _ _ _ _ => some c
  | .opFmax c _ _ _ _ => some c
  | .opFsgnj c _ _ _ _ => some c
  | .opFcvtI c _ _ _ => some c
  | .opFcvtU c _ _ _ => some c
  | .opIcvtF c _ _ _ => some c
  | .opUcvtF c _ _ _ => some c
  | .opFcvtP c _ _ _ => some c
  | .opFmovg c _ _ => some c
  | .opFmovf c _ _ => some c
  | .opFeq c _ _ _ _ _ => some c
  | .opFlt c _ _ _ _ _ => some c
  | .opFle c _ _ _ _ _ => some c
  | .opFun c _ _ _ _ _ => some c
  | .opFmadd c _ _ _ _ _ => some c
  | .opFmsub c _ _ _ _ _ => some c
  | .opFnmadd c _ _ _ _ _ => some c
  | .opFnmsub c _ _ _ _ _ => some c
  | .opFence c => some c
  | .opFenceC c => some c
  | .opIsync c => some c
  | .opMcall c _ => some c
  | .opBrk c _ => some c
  | .opWfi c => some c
  | .opCrr c _ _ => some c
  | .opCrw c _ _ => some c
  | .opTlbw c _ => some c
  | .opTlbr c _ _ => some c
  | .opTlbiA c _ _ _ => some c
  | .opTlbiT c _ _ => some c
  | .opTlbiAll c _ => some c
  | .opTlbiLk c _ => some c
  | .opIn c _ _ _ _ => some c
  | .opOut c _ _ _ _ => some c
  | .opLdi c _ _ _ _ => some c
  | .opSti c _ _ _ _ => some c
  | .amoAdd c _ => some c
  | .amoSwap c _ => some c
  | .amoCas c _ _ => some c
  | .amoAnd c _ => some c
  | .amoOr c _ => some c
  | .amoXor c _ => some c
  | .amoMax c _ => some c
  | .amoMin c _ => some c
  | .cohMaintAddrWrite c _ => some c
  | .mtClean c => some c
  | .mtCleanInv c => some c
  | .mtInv c => some c
  | .mtZero c => some c
  | .mtLock c => some c
  | .mtUnlock c => some c
  | _ => none

/-- The instructions that only compute: integer, predicate, compare, floating point and moves. -/
def onlyComputes : Instr → Bool
  | .opAdd _ _ _ _ _ | .opSub _ _ _ _ _ | .opAnd _ _ _ _
  | .opOr _ _ _ _ | .opXor _ _ _ _ | .opAndn _ _ _ _
  | .opSll _ _ _ _ | .opSrl _ _ _ _ | .opSra _ _ _ _
  | .opRol _ _ _ _ | .opRor _ _ _ _ | .opMin _ _ _ _
  | .opMax _ _ _ _ | .opMinu _ _ _ _ | .opMaxu _ _ _ _
  | .opNeg _ _ _ _ | .opMul _ _ _ _ _ | .opMulh _ _ _ _
  | .opMulhu _ _ _ _ | .opDiv _ _ _ _ _ | .opDivu _ _ _ _ _
  | .opRem _ _ _ _ _ | .opRemu _ _ _ _ _ | .opCmpEq _ _ _ _ _
  | .opCmpNe _ _ _ _ _ | .opCmpLt _ _ _ _ _ | .opCmpGe _ _ _ _ _
  | .opCmpLtu _ _ _ _ _ | .opCmpGeu _ _ _ _ _ | .opPand _ _ _ _
  | .opPor _ _ _ _ | .opPxor _ _ _ _ | .opPandn _ _ _ _
  | .opMovgp _ _ _ | .opMovpg _ _ _ | .opAddi _ _ _ _
  | .opAndi _ _ _ _ | .opOri _ _ _ _ | .opXori _ _ _ _
  | .opSlli _ _ _ _ | .opSrli _ _ _ _ | .opSrai _ _ _ _
  | .opRori _ _ _ _ | .opMov _ _ _ | .opLi _ _ _
  | .opLih _ _ _ | .opLa _ _ _ | .opFadd _ _ _ _ _
  | .opFsub _ _ _ _ _ | .opFmul _ _ _ _ _ | .opFdiv _ _ _ _ _
  | .opFsqrt _ _ _ _ | .opFmin _ _ _ _ _ | .opFmax _ _ _ _ _
  | .opFsgnj _ _ _ _ _ | .opFcvtI _ _ _ _ | .opFcvtU _ _ _ _
  | .opIcvtF _ _ _ _ | .opUcvtF _ _ _ _ | .opFcvtP _ _ _ _
  | .opFmovg _ _ _ | .opFmovf _ _ _ | .opFeq _ _ _ _ _ _
  | .opFlt _ _ _ _ _ _ | .opFle _ _ _ _ _ _ | .opFun _ _ _ _ _ _
  | .opFmadd _ _ _ _ _ _ | .opFmsub _ _ _ _ _ _ | .opFnmadd _ _ _ _ _ _
  | .opFnmsub _ _ _ _ _ _ => true
  | _ => false

/-! ## What every run keeps -/

/-- The interrupt sources of the shared units read on every core as their units stand (*Interrupt sources*). -/
def State.levelsAgree (s : State) : Prop :=
  ∀ k ∈ kvKeys s.cores, ∀ src ∈ [3, 4, 5, 6], s.bitB .POD_INT_PEND_LEVEL k (src - 2) = s.irqLevel src

/-- PWR_HOLD reads as Tuber holds domains: PD1 always, PD28 while a SEAL slot is loaded, PD29 while a PROBE domain key is
(*Power against Tuber-held domains*). -/
def State.holdsAgree (s : State) : Prop :=
  s.bitB .PWR_HOLD_HELD 0 1 = true ∧ s.bitB .PWR_HOLD_HELD 0 28 = !s.eng.slots.isEmpty ∧
  s.bitB .PWR_HOLD_HELD 0 29 = (s.pdOn 29 && s.eng.doms.any (fun q => !s.eng.probeOut.contains q.1) && !s.going 29)

/-- What every step keeps. -/
def State.Inv (s : State) : Prop := s.levelsAgree ∧ s.holdsAgree

/-! ## Safe commands -/

/-- Whether a command touches only memory that exists: everything but a MEM_READ or MEM_WRITE past the DRAM (R271). -/
def inDram : Instr → Bool
  | .memRead _ line _ => decide (line < 2 ^ 31)
  | .memWrite _ addr data => decide (addr + data.length ≤ dramSize)
  | _ => true

/-- A run that cannot stop: every waiting command touches memory that exists. -/
def State.safe (s : State) : Bool := s.pending.all inDram

end Sys2Proof.Machine
end

