-- ==== Sys2Proof/Certificates/Slice0/Obligations.lean ====
section
/-!
DEFINITION. What is stated of the block: its commands, family by family, what each completes with; what every step keeps;
what reset leaves. A command's next state is written `settle t`, `t` being the effect the rules give it and `settle` what
follows any command by itself; `SettleIsQuietWhenNothingWaits` says when that is nothing but the two registers that mirror the
rest of the state.
-/

open Sys2Proof Sys2Proof.Machine

/-- ADD, SUB, NEG, MUL, MULH, MULHU and ADDI write the low 64 bits of the exact result (MULH, MULHU: the high 64 bits of
the exact product) to g[D]; a `.v` form sets IOV exactly when the exact signed result does not fit in 64 bits, and no
other form sets a flag (R346, R350). The core retires and nothing else of the state changes. -/
def Obligations.IntArithmeticWritesLowBits : Prop :=
  ∀ (c : OctCtx) (k : OctCore) (s : State), OnCore c k s → ∀ (ov : Bool) (d a b : Nat) (imm : Word),
    let fits := fun x : Int => -(2 : Int) ^ 63 ≤ x ∧ x < (2 : Int) ^ 63
    let flagged := fun (x : Int) (r : OctCore) => if ov = true ∧ ¬ fits x then r.flag 0x100 else r
    exec (.opAdd c ov d a b) s =
      .next (retiredOn c k (flagged ((k.gr a).toInt + (k.gr b).toInt) (k.setG d (k.gr a + k.gr b))) s) ∧
    exec (.opSub c ov d a b) s =
      .next (retiredOn c k (flagged ((k.gr a).toInt - (k.gr b).toInt) (k.setG d (k.gr a - k.gr b))) s) ∧
    exec (.opNeg c ov d a) s =
      .next (retiredOn c k (flagged (-(k.gr a).toInt) (k.setG d (0 - k.gr a))) s) ∧
    exec (.opMul c ov d a b) s =
      .next (retiredOn c k (flagged ((k.gr a).toInt * (k.gr b).toInt) (k.setG d (k.gr a * k.gr b))) s) ∧
    exec (.opMulh c d a b) s =
      .next (retiredOn c k
        (k.setG d ((((k.gr a).signExtend 128 * (k.gr b).signExtend 128) >>> 64).setWidth 64)) s) ∧
    exec (.opMulhu c d a b) s =
      .next (retiredOn c k (k.setG d ((((k.gr a).setWidth 128 * (k.gr b).setWidth 128) >>> 64).setWidth 64)) s) ∧
    exec (.opAddi c d a imm) s = .next (retiredOn c k (k.setG d (k.gr a + imm)) s)

/-- AND, OR, XOR, ANDN, MIN, MAX, MINU, MAXU, the immediate forms, MOV, LI, LIH, LA and MOVPG write g[D] with their result and
set no flag (R319, R351). -/
def Obligations.IntLogicAndMovesWriteResult : Prop :=
  ∀ (c : OctCtx) (k : OctCore) (s : State), OnCore c k s → ∀ (d a b : Nat) (imm : Word),
    let writes := fun v : Word => Host.Outcome.next (φ := Fault) (ρ := Refusal) (retiredOn c k (k.setG d v) s)
    exec (.opAnd c d a b) s = writes (k.gr a &&& k.gr b) ∧
    exec (.opOr c d a b) s = writes (k.gr a ||| k.gr b) ∧
    exec (.opXor c d a b) s = writes (k.gr a ^^^ k.gr b) ∧
    exec (.opAndn c d a b) s = writes (k.gr a &&& ~~~ k.gr b) ∧
    exec (.opMin c d a b) s = writes (if (k.gr a).slt (k.gr b) then k.gr a else k.gr b) ∧
    exec (.opMax c d a b) s = writes (if (k.gr a).slt (k.gr b) then k.gr b else k.gr a) ∧
    exec (.opMinu c d a b) s = writes (if (k.gr a).ult (k.gr b) then k.gr a else k.gr b) ∧
    exec (.opMaxu c d a b) s = writes (if (k.gr a).ult (k.gr b) then k.gr b else k.gr a) ∧
    exec (.opAndi c d a imm) s = writes (k.gr a &&& imm) ∧
    exec (.opOri c d a imm) s = writes (k.gr a ||| imm) ∧
    exec (.opXori c d a imm) s = writes (k.gr a ^^^ imm) ∧
    exec (.opMov c d a) s = writes (k.gr a) ∧
    exec (.opLi c d imm) s = writes imm ∧
    exec (.opLih c d imm) s = writes (imm.setWidth 32 ++ (k.gr d).setWidth 32) ∧
    exec (.opLa c d imm) s = writes (k.pc + imm) ∧
    exec (.opMovpg c d a) s = writes (if k.pr a then 1 else 0)

/-- A register-count shift or rotate takes its count from g[B] as a 64-bit unsigned value, with 0 (SRA: the sign) for a count
of 64 or more and rotates mod 64; the immediate forms shift by their count; no flag is set (R351). -/
def Obligations.ShiftsFollowTheirCount : Prop :=
  ∀ (c : OctCtx) (k : OctCore) (s : State), OnCore c k s → ∀ (d a b n : Nat), n < 64 →
    let writes := fun v : Word => Host.Outcome.next (φ := Fault) (ρ := Refusal) (retiredOn c k (k.setG d v) s)
    let x := k.gr a
    let count := (k.gr b).toNat
    exec (.opSll c d a b) s = writes (if 64 ≤ count then 0 else x <<< count) ∧
    exec (.opSrl c d a b) s = writes (if 64 ≤ count then 0 else x >>> count) ∧
    exec (.opSra c d a b) s = writes (if 64 ≤ count then (if x.toInt < 0 then 0xFFFFFFFFFFFFFFFF else 0)
      else BitVec.ofInt 64 (x.toInt / (2 : Int) ^ count)) ∧
    exec (.opRol c d a b) s = writes (x <<< (count % 64) ||| x >>> ((64 - count % 64) % 64)) ∧
    exec (.opRor c d a b) s = writes (x >>> (count % 64) ||| x <<< ((64 - count % 64) % 64)) ∧
    exec (.opSlli c d a n) s = writes (x <<< n) ∧
    exec (.opSrli c d a n) s = writes (x >>> n) ∧
    exec (.opSrai c d a n) s = writes (BitVec.ofInt 64 (x.toInt / (2 : Int) ^ n)) ∧
    exec (.opRori c d a n) s = writes (x >>> n ||| x <<< ((64 - n) % 64))

/-- DIV, DIVU, REM and REMU, 64-bit and `.W`: a signed quotient is truncated toward zero and a signed remainder takes the sign
of the dividend (R349); the `.W` forms work on bits [31:0], signed results sign-extended and unsigned ones zero-extended
(R348); the divisor zero and the most negative value by −1 give the results and flags of the table (R350). -/
def Obligations.DivisionFollowsTables : Prop :=
  ∀ (c : OctCtx) (k : OctCore) (s : State), OnCore c k s → ∀ (w32 : Bool) (d a b : Nat),
    let sx := fun w : Word => if w32 then (w.setWidth 32).signExtend 64 else w
    let zx := fun w : Word => if w32 then (w.setWidth 32).setWidth 64 else w
    let least : Int := if w32 then -(2 : Int) ^ 31 else -(2 : Int) ^ 63
    let x := k.gr a
    let y := k.gr b
    let edge := (sx x).toInt = least ∧ (sx y).toInt = -1
    let ends := fun (v flags : Word) =>
      Host.Outcome.next (φ := Fault) (ρ := Refusal) (retiredOn c k ((k.setG d v).flag flags) s)
    exec (.opDiv c w32 d a b) s =
      (if (sx y).toInt = 0 then ends 0xFFFFFFFFFFFFFFFF 0x200
       else if edge then ends (BitVec.ofInt 64 least) 0x100 else ends ((sx x).sdiv (sx y)) 0) ∧
    exec (.opRem c w32 d a b) s =
      (if (sx y).toInt = 0 then ends (sx x) 0x200 else if edge then ends 0 0x100 else ends ((sx x).srem (sx y)) 0) ∧
    exec (.opDivu c w32 d a b) s =
      (if zx y = 0 then ends (if w32 then 0xFFFFFFFF else 0xFFFFFFFFFFFFFFFF) 0x200 else ends ((zx x).udiv (zx y)) 0) ∧
    exec (.opRemu c w32 d a b) s = (if zx y = 0 then ends (zx x) 0x200 else ends ((zx x).umod (zx y)) 0)

/-- A compare writes its result to p[PT] and the complement to p[PF] in one step, integer compares without a flag; naming one
register other than p0 twice is an illegal instruction and writes neither (R321). FEQ, FLT, FLE and FUN compare the same
way, with NV set by any NaN for FLT and FLE and by a signalling NaN for FEQ and FUN (R361); on Tuber's core they are
illegal (R340). -/
def Obligations.ComparesWriteResultAndComplement : Prop :=
  ∀ (c : OctCtx) (k : OctCore) (s : State) (pt pf a : Nat),
    let writes := fun (r : Bool) (flags : Word) => Host.Outcome.next (φ := Fault) (ρ := Refusal)
      (retiredOn c k (((k.setP pt r).setP pf (!r)).flag flags) s)
    (OnCore c k s → (pt ≠ pf ∨ pt = 0) → ∀ b : Src,
      let x := k.gr a
      let y := k.src b
      exec (.opCmpEq c pt pf a b) s = writes (decide (x = y)) 0 ∧
      exec (.opCmpNe c pt pf a b) s = writes (decide (x ≠ y)) 0 ∧
      exec (.opCmpLt c pt pf a b) s = writes (decide (x.toInt < y.toInt)) 0 ∧
      exec (.opCmpGe c pt pf a b) s = writes (decide (y.toInt ≤ x.toInt)) 0 ∧
      exec (.opCmpLtu c pt pf a b) s = writes (decide (x.toNat < y.toNat)) 0 ∧
      exec (.opCmpGeu c pt pf a b) s = writes (decide (y.toNat ≤ x.toNat)) 0) ∧
    (OctReady c k s → (pt ≠ pf ∨ pt = 0) → ∀ (f32 : Bool) (b : Nat),
      let x := k.fv f32 a
      let y := k.fv f32 b
      let nan := x.isNan || y.isNan
      let less := fpLt (fmtOf f32) x y
      let more := fpLt (fmtOf f32) y x
      exec (.opFeq c f32 pt pf a b) s = writes (!nan && !less && !more) (snanFlag [x, y]) ∧
      exec (.opFlt c f32 pt pf a b) s = writes (!nan && less) (if nan then 0x10 else 0) ∧
      exec (.opFle c f32 pt pf a b) s = writes (!nan && !more) (if nan then 0x10 else 0) ∧
      exec (.opFun c f32 pt pf a b) s = writes nan (snanFlag [x, y])) ∧
    (OctReady c k s → pt = pf → pt ≠ 0 → ∀ (f32 : Bool) (b : Src) (b' : Nat), ∀ i ∈ [Instr.opCmpEq c pt pf a b,
        .opCmpNe c pt pf a b, .opCmpLt c pt pf a b, .opCmpGe c pt pf a b, .opCmpLtu c pt pf a b, .opCmpGeu c pt pf a b,
        .opFeq c f32 pt pf a b', .opFlt c f32 pt pf a b', .opFle c f32 pt pf a b', .opFun c f32 pt pf a b'],
      exec i s = .next (s.modCore (coreKey c) (takeException s.mBase 0x01 .none 0))) ∧
    (TuberReady c k s → ∀ (f32 : Bool) (b : Nat), ∀ i ∈ [Instr.opFeq c f32 pt pf a b, .opFlt c f32 pt pf a b,
        .opFle c f32 pt pf a b, .opFun c f32 pt pf a b],
      exec i s = .next (s.modTuber (enterTuber 0x100 k.pc 0x01 0)))

/-- PAND, POR, PXOR, PANDN and MOVGP write p[D], a write to p0 being discarded (R311, R319). -/
def Obligations.PredicateOperationsWriteP : Prop :=
  ∀ (c : OctCtx) (k : OctCore) (s : State), OnCore c k s → ∀ (d a b : Nat),
    let writes := fun r : Bool => Host.Outcome.next (φ := Fault) (ρ := Refusal)
      (retiredOn c k (if d = 0 then k else { k with p := k.p.set d r }) s)
    exec (.opPand c d a b) s = writes (k.pr a && k.pr b) ∧
    exec (.opPor c d a b) s = writes (k.pr a || k.pr b) ∧
    exec (.opPxor c d a b) s = writes (k.pr a != k.pr b) ∧
    exec (.opPandn c d a b) s = writes (k.pr a && !k.pr b) ∧
    exec (.opMovgp c d a) s = writes ((k.gr a).toNat % 2 == 1)

/-- The hard-wired registers: a write to g0 and to p0 is discarded, g0 reads 0 and p0 reads true, and any other register reads
what was written to it while the rest keep their values (R310, R311). -/
def Obligations.HardWiredRegistersDiscardWrites : Prop :=
  ∀ (k : OctCore) (v : Word) (b : Bool),
    (k.setG 0 v = k ∧ k.gr 0 = 0 ∧ k.setP 0 b = k ∧ k.pr 0 = true) ∧
    (k.g.length = 32 → ∀ n m, 0 < n → n < 32 → (k.setG n v).gr m = if m = n then v else k.gr m) ∧
    (k.p.length = 8 → ∀ n m, 0 < n → n < 8 → (k.setP n b).pr m = if m = n then b else k.pr m) ∧
    (k.f.length = 32 → ∀ n m, n < 32 → (k.setF n v).fr m = if m = n then v else k.fr m)

/-- The floating-point instructions that write f[D] or g[D] complete with the value and the flags of the named operation in
the rounding mode of cr.fctl, a binary32 result under all ones (R353), flags by OR into cr.astat (R344); FSGNJ, FMOVG and
FMOVF set none (R360). The signs of FNMADD and FNMSUB are the model's reading (DEDUCED, log entry 20). On Tuber's core each is
illegal (R340). -/
def Obligations.FloatingPointWritesRoundedResult : Prop :=
  ∀ (c : OctCtx) (k : OctCore) (s : State) (f32 : Bool) (d a b e : Nat),
    let fmt := fmtOf f32
    let rm := rmOf k.fctl
    let x := k.fv f32 a
    let y := k.fv f32 b
    let z := k.fv f32 e
    let xb := fpOperand f32 (k.fr a)
    let yb := fpOperand f32 (k.fr b)
    let toF := fun (single : Bool) (r : FpRes) => Host.Outcome.next (φ := Fault) (ρ := Refusal)
      (retired c k ((k.setF d (if single then (0xFFFFFFFF : BitVec 32) ++ BitVec.ofNat 32 r.val else BitVec.ofNat 64 r.val)).flag r.flags) s)
    let toG := fun (v flags : Word) => Host.Outcome.next (φ := Fault) (ρ := Refusal)
      (retired c k ((k.setG d v).flag flags) s)
    (OctReady c k s →
      exec (.opFadd c f32 d a b) s = toF f32 (fpAdd fmt rm x y) ∧
      exec (.opFsub c f32 d a b) s = toF f32 (fpAdd fmt rm x y.negate) ∧
      exec (.opFmul c f32 d a b) s = toF f32 (fpMul fmt rm x y) ∧
      exec (.opFdiv c f32 d a b) s = toF f32 (fpDiv fmt rm x y) ∧
      exec (.opFsqrt c f32 d a) s = toF f32 (fpSqrt fmt rm x) ∧
      exec (.opFmin c f32 d a b) s = toF f32 (fpMinMax fmt false xb yb) ∧
      exec (.opFmax c f32 d a b) s = toF f32 (fpMinMax fmt true xb yb) ∧
      exec (.opFsgnj c f32 d a b) s = toF f32 ⟨xb % fmt.sign + yb / fmt.sign * fmt.sign, 0⟩ ∧
      exec (.opFmadd c f32 d a b e) s = toF f32 (fpFma fmt rm false false x y z) ∧
      exec (.opFmsub c f32 d a b e) s = toF f32 (fpFma fmt rm false true x y z) ∧
      exec (.opFnmadd c f32 d a b e) s = toF f32 (fpFma fmt rm true true x y z) ∧
      exec (.opFnmsub c f32 d a b e) s = toF f32 (fpFma fmt rm true false x y z) ∧
      exec (.opIcvtF c f32 d a) s = toF f32 (intToFp fmt rm (k.gr a).toInt) ∧
      exec (.opUcvtF c f32 d a) s = toF f32 (intToFp fmt rm (k.gr a).toNat) ∧
      exec (.opFcvtP c f32 d a) s = toF (!f32) (fpConvert fmt (fmtOf (!f32)) rm x) ∧
      exec (.opFmovf c d a) s = .next (retired c k (k.setF d (k.gr a)) s) ∧
      exec (.opFmovg c d a) s = .next (retired c k (k.setG d (k.fr a)) s) ∧
      exec (.opFcvtI c f32 d a) s =
        (let r := fpToInt fmt rm true x; toG (BitVec.ofNat 64 r.val) r.flags) ∧
      exec (.opFcvtU c f32 d a) s =
        (let r := fpToInt fmt rm false x; toG (BitVec.ofNat 64 r.val) r.flags)) ∧
    (TuberReady c k s → ∀ i ∈ [Instr.opFadd c f32 d a b, .opFsub c f32 d a b, .opFmul c f32 d a b, .opFdiv c f32 d a b,
        .opFsqrt c f32 d a, .opFmin c f32 d a b, .opFmax c f32 d a b, .opFsgnj c f32 d a b, .opFmadd c f32 d a b e,
        .opFmsub c f32 d a b e, .opFnmadd c f32 d a b e, .opFnmsub c f32 d a b e, .opIcvtF c f32 d a, .opUcvtF c f32 d a,
        .opFcvtP c f32 d a, .opFmovf c d a, .opFmovg c d a, .opFcvtI c f32 d a, .opFcvtU c f32 d a],
      exec i s = .next (s.modTuber (enterTuber 0x100 k.pc 0x01 0)))

/-- Binary64 operations give the results and flags of *Edge results, binary64* (R366), row by row in the table's order, and
the conversions those of *Conversion edges, RNE* that its format can hold (R365). -/
def Obligations.Binary64EdgesFollowTable : Prop :=
  let max := 0x7FEFFFFFFFFFFFFF
  let nmax := 0xFFEFFFFFFFFFFFFF
  let minsub := 1
  let nminsub := 0x8000000000000001
  let minnorm := 0x0010000000000000
  let below1 := 0x3FEFFFFFFFFFFFFF
  let one := 0x3FF0000000000000
  let two := 0x4000000000000000
  let half := 0x3FE0000000000000
  let inf := 0x7FF0000000000000
  let ninf := 0xFFF0000000000000
  let nan := 0x7FF8000000000000
  let v := unpack fp64
  let ofnx : Word := 0x5
  let ufnx : Word := 0x3
  let add := fun rm (x y : Nat) => fpAdd fp64 rm (v x) (v y)
  let sub := fun rm (x y : Nat) => fpAdd fp64 rm (v x) (v y).negate
  let mul := fun rm (x y : Nat) => fpMul fp64 rm (v x) (v y)
  let div := fun rm (x y : Nat) => fpDiv fp64 rm (v x) (v y)
  let sqrt := fun (x : Nat) => fpSqrt fp64 .rne (v x)
  let fma := fun (x y z : Nat) => fpFma fp64 .rne false false (v x) (v y) (v z)
  let toI := fun rm (x : Nat) => fpToInt fp64 rm true (v x)
  let toU := fun (x : Nat) => fpToInt fp64 .rne false (v x)
  (mul .rne max two = ⟨inf, ofnx⟩ ∧ mul .rtz max two = ⟨max, ofnx⟩ ∧ mul .rdn max two = ⟨max, ofnx⟩ ∧
    mul .rup nmax two = ⟨nmax, ofnx⟩ ∧ add .rne max max = ⟨inf, ofnx⟩ ∧ mul .rne max max = ⟨inf, ofnx⟩ ∧
    mul .rne max one = ⟨max, 0⟩ ∧ sub .rne max max = ⟨0, 0⟩ ∧ sub .rdn max max = ⟨2 ^ 63, 0⟩ ∧
    fpFma fp64 .rne false true (v max) (v two) (v max) = ⟨max, 0⟩) ∧
  (div .rne minsub two = ⟨0, ufnx⟩ ∧ div .rup minsub two = ⟨minsub, ufnx⟩ ∧ div .rmm minsub two = ⟨minsub, ufnx⟩ ∧
    mul .rne minsub minsub = ⟨0, ufnx⟩ ∧ mul .rne minsub nminsub = ⟨2 ^ 63, ufnx⟩ ∧ add .rne minsub minsub = ⟨2, 0⟩ ∧
    fma minsub half minsub = ⟨2, ufnx⟩ ∧ mul .rne minnorm below1 = ⟨minnorm, ufnx⟩ ∧
    mul .rtz minnorm below1 = ⟨0x000FFFFFFFFFFFFF, ufnx⟩ ∧ div .rne one minsub = ⟨inf, ofnx⟩ ∧
    div .rne minsub max = ⟨0, ufnx⟩ ∧ div .rne max minsub = ⟨inf, ofnx⟩) ∧
  (sqrt minsub = ⟨0x1E60000000000000, 0⟩ ∧ sqrt nminsub = ⟨nan, 0x10⟩ ∧ sqrt (2 ^ 63) = ⟨2 ^ 63, 0⟩ ∧
    div .rne one 0 = ⟨inf, 0x8⟩ ∧ div .rne 0 0 = ⟨nan, 0x10⟩ ∧ add .rne inf ninf = ⟨nan, 0x10⟩ ∧
    fma 0 inf 0x7FF8000000000123 = ⟨0x7FF8000000000123, 0x10⟩ ∧
    add .rne minsub 0x7FF0000000000001 = ⟨0x7FF8000000000001, 0x10⟩) ∧
  (toI .rne max = ⟨0x7FFFFFFFFFFFFFFF, 0x10⟩ ∧ toI .rne nmax = ⟨0x8000000000000000, 0x10⟩ ∧
    toI .rne 0xC3E0000000000000 = ⟨0x8000000000000000, 0⟩ ∧ toI .rne minsub = ⟨0, 0x1⟩ ∧ toI .rup minsub = ⟨1, 0x1⟩ ∧
    toU 0xBFD3333333333333 = ⟨0, 0x1⟩ ∧ toU 0xBFE6666666666666 = ⟨0, 0x10⟩ ∧ toI .rne nan = ⟨0, 0x10⟩ ∧
    toU nan = ⟨0, 0x10⟩ ∧ fpConvert fp64 fp32 .rne (v max) = ⟨0x7F800000, ofnx⟩ ∧
    fpConvert fp64 fp32 .rne (v minsub) = ⟨0, ufnx⟩ ∧ intToFp fp64 .rne 0x7FFFFFFFFFFFFFFF = ⟨0x43E0000000000000, 0x1⟩)

/-- Rounding an exact magnitude `m · 2^e` to a multiple of `2^q` with `e < q` obeys its mode (*Rounding modes*): the result
is one of the two multiples around the value, it is exact exactly when nothing is cut off, RTZ never exceeds the magnitude,
RUP and RDN never lie on the wrong side, RNE and RMM are within half a unit, and at half a unit RNE is even and RMM is the
larger. -/
def Obligations.RoundingObeysItsMode : Prop :=
  ∀ (rm : Rm) (neg : Bool) (m : Nat) (e q : Int), e < q →
    let unit := 2 ^ (q - e).toNat
    let r := (roundAt rm neg m e false q).1
    let inexact := (roundAt rm neg m e false q).2
    (r * unit < m + unit ∧ m < r * unit + unit) ∧ (inexact = false ↔ r * unit = m) ∧
    (rm = .rtz → r * unit ≤ m) ∧
    (rm = .rup → if neg then r * unit ≤ m else m ≤ r * unit) ∧
    (rm = .rdn → if neg then m ≤ r * unit else r * unit ≤ m) ∧
    (rm = .rne ∨ rm = .rmm → 2 * m ≤ 2 * (r * unit) + unit ∧ 2 * (r * unit) ≤ 2 * m + unit) ∧
    (rm = .rne → (2 * m = 2 * (r * unit) + unit ∨ 2 * (r * unit) = 2 * m + unit) → r % 2 = 0) ∧
    (rm = .rmm → 2 * m ≠ 2 * (r * unit) + unit)

/-- LD, FLD, RET and LDI read the bytes their checks let through and complete with the register written: LD extended as S
says, FLD of size 2 under all ones (R353), RET with sp + 8 and the transfer (R329), LDI zero-extended. An LD of 8 bytes that
follows the LD of the low half of its 16-byte block in DRAM returns the half as it stood then (R371). On Tuber's core LD and RET
read its ROM and SRAM, and FLD and LDI are illegal (R340). -/
def Obligations.LoadsCompleteWithTheBytesRead : Prop :=
  ∀ (c : OctCtx) (k : OctCore) (s : State) (size d a : Nat) (sx aq : Bool) (off : Word),
    let va := k.gr a + off
    let n := 2 ^ size
    (OctReady c k s → ∀ l bytes t, Reaches s k .read .load false false va n l → loadPieces c.pod k.buf l s = .data bytes t →
      let v := leNat bytes
      let follows := fun h => k.half = some h ∧ l = [(h.pa, 8)] ∧ h.aq = aq ∧ h.retire = k.retire
      let reads := fun got => ∃ half, exec (.opLd c size sx aq d a off) s = .next (settle (goesOn c k (fun x =>
        { x.setG d (if sx then BitVec.ofInt 64 (sext got (8 * n)) else BitVec.ofNat 64 got) with half := half }) t))
      (∀ h, follows h → reads h.value) ∧ ((∀ h, ¬ follows h) → reads v) ∧
      (size = 2 → exec (.opFld c size aq d a off) s = .next (settle (goesOn c k (fun x =>
        x.setF d (BitVec.ofNat 64 (0xFFFFFFFF00000000 + v))) t))) ∧
      (size = 3 → exec (.opFld c size aq d a off) s = .next (settle (goesOn c k (fun x => x.setF d (BitVec.ofNat 64 v)) t)))) ∧
    (OctReady c k s → ∀ l bytes t, Reaches s k .read .pop false false (k.gr 31) 8 l →
      loadPieces c.pod k.buf l s = .data bytes t → leNat bytes % 2 = 0 →
      exec (.opRet c) s = .next (settle (goesTo c (BitVec.ofNat 64 (leNat bytes)) (fun x => x.setG 31 (k.gr 31 + 8)) t))) ∧
    (OctReady c k s → stPl k.status ≠ 0 → size ≠ 0 → ∀ l, instrPieces s k false va n = .ok l → piecesPoisoned l s = false →
      exec (.opLdi c size d a off) s = .next (settle (goesOn c k (fun x => x.setG d (BitVec.ofNat 64
        (leNat (l.flatMap (fun p => ((cohLine (lineOf p.1) s).1.1.drop (p.1 % 128)).take p.2))))) s))) ∧
    (TuberReady c k s → tuberFault false va n = none →
      exec (.opLd c size sx aq d a off) s = .next (settle (tuberGoesTo (nextPc c k) (fun x =>
        x.setG d (if sx then BitVec.ofInt 64 (sext (s.tuberRead va n) (8 * n)) else BitVec.ofNat 64 (s.tuberRead va n))) s))) ∧
    (TuberReady c k s → tuberFault false (k.gr 31) 8 = none → s.tuberRead (k.gr 31) 8 % 2 = 0 →
      exec (.opRet c) s = .next (settle (tuberGoesTo (BitVec.ofNat 64 (s.tuberRead (k.gr 31) 8))
        (fun x => x.setG 31 (k.gr 31 + 8)) s))) ∧
    (TuberReady c k s → ∀ i ∈ [Instr.opFld c size aq d a off, .opLdi c size d a off],
      exec i s = .next (settle (s.modTuber (enterTuber 0x100 k.pc 0x01 0))))

/-- ST and FST put their bytes into the core's store buffer at the checked physical address, in one piece when the access does
not cross an 8-byte boundary, and nothing else changes but the core's own retirement: every byte of memory is as before until
the buffer drains (R372, R379). An ST of the high half of a 16-byte block of DRAM joins the ST of its low half just before it
(R371). FST of size 2 stores bits [31:0] (R353). STI writes a code region through its home at once
(R323). On Tuber's core ST writes its SRAM (R340). -/
def Obligations.StoresEnterTheStoreBuffer : Prop :=
  ∀ (c : OctCtx) (k : OctCore) (s : State) (size d a : Nat) (rl : Bool) (off : Word),
    let va := k.gr a + off
    let n := 2 ^ size
    let buffered := fun (buf : List BufStore) => retired c k { k with buf := buf } s
    let store := fun (pa v : Nat) (half : Option Word) => ({ addr := pa, data := leBytes n v, rel := rl, half := half } : BufStore)
    let joins := fun (pa : Nat) (e : BufStore) => n = 8 ∧ k.buf.getLast? = some e ∧ pa % 16 = 8 ∧ e.addr + 8 = pa ∧ e.rel = rl ∧
      e.half = some k.retire
    (OctReady c k s → ∀ pa, Reaches s k .write .store true false va n [(pa, n)] →
      ((∀ e, ¬ joins pa e) → exec (.opSt c size rl d a off) s = .next (settle (buffered (k.buf ++ [store pa (k.gr d).toNat
        (if n = 8 ∧ pa % 16 = 0 ∧ pa < dramSize then some (k.retire + 1) else none)])))) ∧
      (∀ e, joins pa e → exec (.opSt c size rl d a off) s = .next (settle (buffered (k.buf.dropLast ++
        [{ e with data := e.data ++ leBytes 8 (k.gr d).toNat, half := none }])))) ∧
      (2 ≤ size → exec (.opFst c size rl d a off) s =
        .next (settle (buffered (k.buf ++ [store pa (k.fr d).toNat none]))))) ∧
    (OctReady c k s → ∀ p q m, n = m + (n - m) → m < n → Reaches s k .write .store true false va n [(p, m), (q, n - m)] →
      exec (.opSt c size rl d a off) s = .next (settle (retired c k { k with buf := k.buf ++
        [{ addr := p, data := (leBytes n (k.gr d).toNat).take m, rel := rl },
         { addr := q, data := ((leBytes n (k.gr d).toNat).drop m).take (n - m), rel := rl }] } s))) ∧
    (OctReady c k s → stPl k.status ≠ 0 → size ≠ 0 → ∀ l t, instrPieces s k true va n = .ok l →
      stiPieces c k l (leBytes n (k.gr d).toNat) s = some t →
      exec (.opSti c size d a off) s = .next (settle (goesOn c k id t))) ∧
    (TuberReady c k s → tuberFault true va n = none →
      exec (.opSt c size rl d a off) s =
        .next (settle (tuberGoesTo (nextPc c k) id (tuberWrite va (leBytes n (k.gr d).toNat) s)))) ∧
    (TuberReady c k s → ∀ i ∈ [Instr.opFst c size rl d a off, .opSti c size d a off],
      exec i s = .next (settle (s.modTuber (enterTuber 0x100 k.pc 0x01 0))))

/-- An atomic operation reads the location at A, writes g[D] with the old value and stores the result with B (*48-bit
opcodes*, R405): ADD, SWAP, AND, OR, XOR, and CAS only on a match; MAX and MIN of signed values are the model's reading (log
entry 21). What it does to the line is `amoAt`, near or far. An 8-byte operation near its line, with the line writable in the
pod and not poisoned, reads and writes the line's eight bytes, and the near count goes up by one (R405, R406). -/
def Obligations.AtomicsApplyTheirOperation : Prop :=
  (∀ (c : OctCtx) (k : OctCore) (s t : State) (m : AmoOp) (e pa : Nat) (l : List (Nat × Nat)), OctReady c k s →
      Reaches s k .both .amo true true (k.gr m.a) (if m.eight then 8 else 4) ((pa, if m.eight then 8 else 4) :: l) →
      drainCore (coreKey c) s = (true, t) →
      let expected := if m.eight then k.gr e else BitVec.ofInt 64 (sext ((k.gr e).toNat % 2 ^ 32) 32)
      let runs := fun (i : Instr) (f : AmoFun) => ∀ g u, amoAt c m f (k.gr m.a) pa k t = some (.ok g u) →
        exec i s = .next (settle (goesOn c k g u))
      runs (.amoAdd c m) (fun o b => some (o + b)) ∧
      runs (.amoSwap c m) (fun _ b => some b) ∧
      runs (.amoCas c m e) (fun o b => if o = expected then some b else none) ∧
      runs (.amoAnd c m) (fun o b => some (o &&& b)) ∧
      runs (.amoOr c m) (fun o b => some (o ||| b)) ∧
      runs (.amoXor c m) (fun o b => some (o ^^^ b)) ∧
      runs (.amoMax c m) (fun o b => some (if o.slt b then b else o)) ∧
      runs (.amoMin c m) (fun o b => some (if b.slt o then b else o))) ∧
  (∀ (c : OctCtx) (k : OctCore) (s u : State) (m : AmoOp) (f : AmoFun) (pa : Nat) (e : L2Line), m.eight = true → m.hint = 1 →
      acquire c.pod (lineOf pa) true s = some u → u.coh.l2At c.pod (lineOf pa) = some e → e.poison = false →
      let old := BitVec.ofNat 64 (fieldAt e.data (pa % 128) 8)
      let counted := trainPred c.pod (coreKey c) (k.gr m.a) (lineOf pa) (u.bump .COH_AMO_NEAR_COUNT)
      let drawn := { counted with free := counted.free + 1 }
      amoAt c m f (k.gr m.a) pa k s = some (.ok (fun x => x.setG m.d old)
        (match f old (k.gr m.b) with
          | none => drawn
          | some v => modifyLine c.pod (lineOf pa) (pa % 128) (leBytes 8 v.toNat) drawn)))

/-- JUMP and JUMPR transfer to an even target, CALL and CALLR push the address of the next instruction at sp − 8, set sp
to it and transfer (R329); a target with bit 0 set is a misaligned-access fault with cr.badaddr the target, nothing is
pushed and the transfer does not take place (R330). -/
def Obligations.TransfersAndCalls : Prop :=
  ∀ (c : OctCtx) (k : OctCore) (s : State) (a : Nat) (off : Word),
    let sp := k.gr 31 - 8
    let next := (nextPc c k).toNat
    let target := fun r : Bool => if r then k.gr a else k.pc + 2 * off
    let jump := fun r : Bool => if r then Instr.opJumpr c a else .opJump c off
    let call := fun r : Bool => if r then Instr.opCallr c a else .opCall c off
    ∀ r : Bool,
    (OctReady c k s → (target r).toNat % 2 = 0 →
      exec (jump r) s = .next (settle (goesTo c (target r) id s)) ∧
      ∀ l, Reaches s k .write .push true false sp 8 l → piecesPoisoned l s = false →
        exec (call r) s =
          .next (settle (goesTo c (target r) (fun x => bufferPieces false l (leBytes 8 next) (x.setG 31 sp)) s))) ∧
    (OctReady c k s → (target r).toNat % 2 = 1 → ∀ i ∈ [jump r, call r],
      exec i s = .next (settle (s.modCore (coreKey c) (takeException s.mBase 0x0C .none (target r))))) ∧
    (TuberReady c k s → (target r).toNat % 2 = 0 →
      exec (jump r) s = .next (settle (tuberGoesTo (target r) id s)) ∧
      (tuberFault true sp 8 = none →
        exec (call r) s = .next (settle (tuberGoesTo (target r) (fun x => x.setG 31 sp) (tuberWrite sp (leBytes 8 next) s)))))

/-- FENCE completes once the core's store buffer has drained (R375), FENCE.C once accepted MRAM writes are in both copies too
(R376), ISYNC gives fetch the current ITLB, tag and code regions (R323, R325, R386), WFI retires and stalls the core unless an
interrupt is pending (R339). On Tuber's core each retires. -/
def Obligations.FencesAndWaitsComplete : Prop :=
  ∀ (c : OctCtx) (k : OctCore) (s : State),
    (OctReady c k s → ∀ t, drainCore (coreKey c) s = (true, t) →
      exec (.opFence c) s = .next (settle (goesOn c k id t)) ∧
      (t.jnl.writes = 0 → exec (.opFenceC c) s = .next (settle (goesOn c k id t)))) ∧
    (OctReady c k s →
      exec (.opIsync c) s = .next (settle (retired c k
        { k with seenItlb := k.itlb, seenAsid := k.asid, seenCode := s.codeRegions } s)) ∧
      exec (.opWfi c) s = .next (settle (retired c k (if s.intPend (coreKey c) = 0 then { k with run := .wfi } else k) s))) ∧
    (TuberReady c k s → ∀ i ∈ [Instr.opFence c, .opFenceC c, .opIsync c, .opWfi c],
      exec i s = .next (settle (tuberRetired c k k s)))

/-- MCALL at U or S enters the M vector for MCALL with cr.epc (M copy) the address of the next instruction, cr.cause CODE
0x0D and cr.badaddr the service number; the level is M with IE, IT, DT and WORLD 0 (R331, R336); at M it is an illegal
instruction. BRK takes a breakpoint: at U or S in the normal world to cr.vbase + 0x100 with the S copies of cr.estatus, cr.epc
(the BRK itself), cr.cause (0x0F) and cr.badaddr written; at M or inside an enclave to COH_CODE_BASE0 + 0x180 with the M
copies; while TLBM is 1 as a double fault, code 0x10 with NESTED 0x0F. The other copies keep their values (R335, R338). -/
def Obligations.McallAndBreakpointEnterTheirVectors : Prop :=
  ∀ (c : OctCtx) (k : OctCore) (s : State) (service : Nat), OctReady c k s →
    (stTlbm k.status = false →
      (stPl k.status ≠ 2 → exec (.opMcall c service) s = .next (settle (retiredAt c k
        { k with estatusM := k.status, epcM := nextPc c k, causeM := 0x0D, badM := BitVec.ofNat 64 service, status := 2 }
        (s.mBase + 0x80) s))) ∧
      (stPl k.status = 2 → exec (.opMcall c service) s =
        .next (settle (s.modCore (coreKey c) (takeException s.mBase 0x01 .none 0))))) ∧
    let bad := BitVec.ofNat 64 service
    let enters := fun k' : OctCore =>
      Host.Outcome.next (φ := Fault) (ρ := Refusal) (settle { s with cores := kvSet s.cores (coreKey c) k' })
    exec (.opBrk c service) s =
      if stTlbm k.status then
        enters { k with estatusM := k.status, epcM := k.pc, causeM := 0x0F0010, badM := bad,
                        status := 0x22, pc := s.mBase + 0x100 }
      else if stPl k.status = 2 ∨ stWorld k.status ≠ 0 then
        enters { k with estatusM := k.status, epcM := k.pc, causeM := 0x0F, badM := bad, status := 2,
                        pc := s.mBase + 0x180 }
      else
        enters { k with estatusS := k.status, epcS := k.pc, causeS := 0x0F, badS := bad, status := 1, pc := k.vbase + 0x100 }

/-- ERET restores cr.status from the level's cr.estatus and goes to its cr.epc (R336): at M from the M copies, with a world
other than 0 only in FIDDLEHEAD, MAINTENANCE or CRUST and an enclave fault at M otherwise (R333); at S from the S copies when
they name U or S (DESIGN CHOICE, log entry 22); at U it is a privileged instruction. -/
def Obligations.EretRestoresStatus : Prop :=
  ∀ (c : OctCtx) (k : OctCore) (s : State), OctReady c k s →
    let returns := fun (status pc : Word) => Host.Outcome.next (φ := Fault) (ρ := Refusal)
      (settle (retiredAt c k { k with status := status } pc s))
    let raises := fun (code : Nat) (bad : Word) => Host.Outcome.next (φ := Fault) (ρ := Refusal)
      (settle (s.modCore (coreKey c) (takeException s.mBase code .none bad)))
    let mayEnter := s.mode = Mode.fiddlehead ∨ s.mode = Mode.maintenance ∨ s.mode = Mode.crust
    (stPl k.status = 0 → exec (.opEret c) s = raises 0x02 0) ∧
    (stPl k.status = 1 → stPl k.estatusS < 2 → exec (.opEret c) s = returns (k.estatusS &&& 0x3F) k.epcS) ∧
    (stPl k.status = 2 → stPl k.estatusM ≠ 3 → (stWorld k.estatusM = 0 ∨ mayEnter) →
      exec (.opEret c) s = returns (k.estatusM &&& 0x73F) k.epcM) ∧
    (stPl k.status = 2 → stPl k.estatusM ≠ 3 → stWorld k.estatusM ≠ 0 → ¬ mayEnter →
      exec (.opEret c) s = raises 0x0E k.epcM)

/-- CRR and CRW reach the control register the number names: numbers 12 to 31 are illegal; at U only 9 to 11, the rest
privileged; at S the S copies of 1 to 4, a set bank select being illegal; at M the M copies with bank select 0 and the S copies
with 1 (R312). CRW of cr.status at S changes IE, IT and DT only, and at M a write of 3 to PL is illegal and changes nothing
(R313); 5 to 7 leave cr.fctl as it is; CRW of cr.astat replaces bits [4:0] and [9:8] (R344); cr.retire is read only. -/
def Obligations.ControlRegistersFollowLevel : Prop :=
  ∀ (c : OctCtx) (k : OctCore) (s : State) (d a n : Nat) (bank : Bool), OctReady c k s → n < 32 →
    let kk := n + (if bank then 32 else 0)
    let v := k.gr a
    let pl := stPl k.status
    let raises := fun (code : Nat) => Host.Outcome.next (φ := Fault) (ρ := Refusal)
      (settle (s.modCore (coreKey c) (takeException s.mBase code .none 0)))
    let ends := fun k' : OctCore => Host.Outcome.next (φ := Fault) (ρ := Refusal) (settle (retired c k k' s))
    (12 ≤ n → exec (.opCrr c d kk) s = raises 0x01 ∧ exec (.opCrw c kk a) s = raises 0x01) ∧
    (pl = 0 → n < 9 → exec (.opCrr c d kk) s = raises 0x02 ∧ exec (.opCrw c kk a) s = raises 0x02) ∧
    (pl = 1 → n < 12 → bank = true → exec (.opCrr c d kk) s = raises 0x01 ∧ exec (.opCrw c kk a) s = raises 0x01) ∧
    (n = 9 → (pl ≠ 1 ∨ bank = false) → pl ≤ 2 → exec (.opCrr c d kk) s = ends (k.setG d k.astat) ∧
      exec (.opCrw c kk a) s = ends { k with astat := v &&& 0x31F }) ∧
    (n = 10 → (pl ≠ 1 ∨ bank = false) → pl ≤ 2 → exec (.opCrr c d kk) s = ends (k.setG d k.fctl) ∧
      exec (.opCrw c kk a) s = ends (if 5 ≤ v.toNat % 8 then k else { k with fctl := v &&& 7 })) ∧
    (n = 11 → (pl ≠ 1 ∨ bank = false) → pl ≤ 2 → exec (.opCrr c d kk) s = ends (k.setG d k.retire) ∧
      exec (.opCrw c kk a) s = ends k) ∧
    (n = 0 → pl = 1 → bank = false → exec (.opCrr c d kk) s = ends (k.setG d k.status) ∧
      exec (.opCrw c kk a) s = ends { k with status := (k.status &&& ~~~0x1C) ||| (v &&& 0x1C) }) ∧
    (n = 0 → pl = 2 → exec (.opCrr c d kk) s = ends (k.setG d k.status) ∧
      exec (.opCrw c kk a) s = if v.toNat % 4 = 3 then raises 0x01 else ends { k with status := v &&& 0x73F }) ∧
    (n = 2 → (pl = 1 ∧ bank = false ∨ pl = 2 ∧ bank = true) → exec (.opCrr c d kk) s = ends (k.setG d k.epcS) ∧
      exec (.opCrw c kk a) s = ends { k with epcS := v &&& ~~~1 }) ∧
    (n = 2 → pl = 2 → bank = false → exec (.opCrr c d kk) s = ends (k.setG d k.epcM) ∧
      exec (.opCrw c kk a) s = ends { k with epcM := v &&& ~~~1 }) ∧
    (n = 4 → (pl = 1 ∧ bank = false ∨ pl = 2 ∧ bank = true) → exec (.opCrr c d kk) s = ends (k.setG d k.badS) ∧
      exec (.opCrw c kk a) s = ends { k with badS := v }) ∧
    (n = 4 → pl = 2 → bank = false → exec (.opCrr c d kk) s = ends (k.setG d k.badM) ∧
      exec (.opCrw c kk a) s = ends { k with badM := v })

/-- The TLB instructions at S or M: TLBW writes the entry of cr.tlbhi and cr.tlblo into the slot `tlbSlot` names unless it
would be the ninth locked one, TLBR loads an entry into them, zeros for an index out of range or never written, TLBI.A, .T,
.ALL and .LK drop the entries they name (R382 to R384). At U each is a privileged instruction; on Tuber's core illegal (R340).
-/
def Obligations.TlbInstructionsChangeTheirTlb : Prop :=
  ∀ (c : OctCtx) (k : OctCore) (s : State) (itlb : Bool) (a b : Nat),
    let t := if itlb then k.itlb else k.dtlb
    let size := if itlb then 48 else 64
    let put := fun u : KV TlbEnt => if itlb then { k with itlb := u } else { k with dtlb := u }
    let ends := fun k' : OctCore => Host.Outcome.next (φ := Fault) (ρ := Refusal) (settle (retired c k k' s))
    let e := tlbMake k.tlbhi k.tlblo k.stamp
    let locked := fun x : TlbEnt => x.lo.toNat.testBit 0 && x.lo.toNat.testBit 5
    let tag := fun x : TlbEnt => wbits x.hi 63 48
    let all := [Instr.opTlbw c itlb, .opTlbr c itlb a, .opTlbiA c itlb a b, .opTlbiT c itlb a, .opTlbiAll c itlb,
      .opTlbiLk c itlb]
    (OctReady c k s → stPl k.status ≠ 0 →
      (∀ i, tlbSlot t size e = some i →
        (e.lo.toNat.testBit 5 = false ∨ (t.filter (fun p => locked p.2 && p.1 != i)).length < 8) →
        exec (.opTlbw c itlb) s = ends { put (kvSet t i e) with stamp := k.stamp + 1 }) ∧
      (let found := if (k.gr a).toNat < size then kvGet? t (k.gr a).toNat else none
       exec (.opTlbr c itlb a) s =
        ends { k with tlbhi := (found.map (·.hi)).getD 0, tlblo := (found.map (·.lo)).getD 0 }) ∧
      exec (.opTlbiA c itlb a b) s =
        ends (put (t.filter (fun p => !tlbMatch ((k.gr b).toNat % 2 ^ 16) (k.gr a).toNat p.2))) ∧
      exec (.opTlbiT c itlb a) s =
        ends (put (t.filter (fun p => !(tag p.2 == (k.gr a).toNat % 2 ^ 16 && !p.2.hi.toNat.testBit 2)))) ∧
      exec (.opTlbiAll c itlb) s = ends (put (t.filter (fun p => locked p.2))) ∧
      exec (.opTlbiLk c itlb) s = ends (put (t.filter (fun p => !locked p.2)))) ∧
    (OctReady c k s → stPl k.status = 0 → ∀ i ∈ all,
      exec i s = .next (settle (s.modCore (coreKey c) (takeException s.mBase 0x02 .none 0)))) ∧
    (TuberReady c k s → ∀ i ∈ all, exec i s = .next (settle (s.modTuber (enterTuber 0x100 k.pc 0x01 0))))

/-- IN and OUT of 4 or 8 bytes at an aligned, granted address of a lit block below 0x0080_0000 complete: IN with the
register's value, a 4-byte one zero-extended, in g[D]; OUT with the write applied as `ioStore` says. COH_MAINT_CMD starts
maintenance instead. Otherwise the first failing check of R327 and R328 raises its exception with cr.badaddr the I/O address,
and nothing is read or written. -/
def Obligations.IoAccessesFollowTheChecks : Prop :=
  ∀ (c : OctCtx) (k : OctCore) (s : State) (d a : Nat) (size : Nat) (off : Word), OctReady c k s → (size = 2 ∨ size = 3) →
    let at_ := (k.gr a + off).toNat
    let n := 2 ^ size
    let v := (k.gr d).toNat % 2 ^ (8 * n)
    let pl := stPl k.status
    let cohM := 0x100800 ≤ at_ ∧ at_ < 0x100C00
    let raises := fun (code : Nat) (acc : Access) => Host.Outcome.next (φ := Fault) (ρ := Refusal)
      (settle (s.modCore (coreKey c) (takeException s.mBase code acc (k.gr a + off))))
    let passes := at_ % n = 0 ∧ s.granted pl (at_ / 0x10000) = true ∧ at_ < 0x800000 ∧ s.blockDark at_ = false
    (passes → exec (.opIn c size d a off) s = .next (settle (goesOn c k
      (fun x => x.setG d (BitVec.ofNat 64 (s.ioValue at_ n c.pod c.core))) (usedFree (dropLatch s))))) ∧
    (passes → (¬ cohM ∨ pl = 2) → at_ ≠ regBase .COH_MAINT_CMD → exec (.opOut c size d a off) s =
      .next (settle (goesOn c k id (ioStore (.fw c.pod c.core (stWorld k.status) pl) at_ n v c.pod c.core (dropLatch s))))) ∧
    (at_ % n ≠ 0 → exec (.opIn c size d a off) s = raises 0x0C .input ∧ exec (.opOut c size d a off) s = raises 0x0C .output) ∧
    (at_ % n = 0 → s.granted pl (at_ / 0x10000) = false →
      exec (.opIn c size d a off) s = raises 0x09 .input ∧ exec (.opOut c size d a off) s = raises 0x09 .output) ∧
    (at_ % n = 0 → s.granted pl (at_ / 0x10000) = true → cohM → pl ≠ 2 → exec (.opOut c size d a off) s = raises 0x09 .output) ∧
    (at_ % n = 0 → s.granted pl (at_ / 0x10000) = true → 0x800000 ≤ at_ →
      exec (.opIn c size d a off) s = raises 0x07 .input ∧ exec (.opOut c size d a off) s = raises 0x07 .output) ∧
    (at_ % n = 0 → s.granted pl (at_ / 0x10000) = true → at_ < 0x800000 → (¬ cohM ∨ pl = 2) → s.blockDark at_ = true →
      exec (.opIn c size d a off) s = raises 0x0A .input ∧ exec (.opOut c size d a off) s = raises 0x0A .output)

/-- An instruction whose guard is false is a no-op: it retires, counts in cr.retire and raises no exception, not even for fields
it would otherwise check (R320). For every Octip instruction, `octipCtx` giving who runs it: on a main core that runs, waits for
nothing and fetches every parcel of it, and on Tuber's core, with its prefix sequence allowed. -/
def Obligations.FalseGuardIsANoOp : Prop :=
  (∀ (i : Instr) (c : OctCtx) (k : OctCore) (s : State), octipCtx i = some c → c.pod ≠ 16 →
    kvGet? s.cores (coreKey c) = some k → k.run = .running → k.wait = none → fetchFault s k c.parcels = none →
    c.prefixOk = true → guardOf c k = false →
    exec i s = .next (retired c k k s) ∨ exec i s = .next (settle (retired c k k s))) ∧
  (∀ (i : Instr) (c : OctCtx) (k : OctCore) (s : State), octipCtx i = some c → c.pod = 16 → c.core = 0 →
    s.tub.core = some k → tuberFetchFault k c.parcels = none → c.prefixOk = true → guardOf c k = false →
    exec i s = .next (tuberRetired c k k s) ∨ exec i s = .next (settle (tuberRetired c k k s))) ∧
  (∀ (c : OctCtx) (k : OctCore), guardOf c k = if c.gN then !(k.pr c.gP) else k.pr c.gP)

/-- With the guard true, a field or prefix sequence the form does not allow gives an illegal-instruction exception and nothing
else happens (R315, R317, R319). For every Octip instruction, on a main core and on Tuber's, whose one vector is 0x100 (R340). -/
def Obligations.BadFieldsAreIllegal : Prop :=
  (∀ (i : Instr) (c : OctCtx) (k : OctCore) (s : State), octipCtx i = some c → c.pod ≠ 16 →
    kvGet? s.cores (coreKey c) = some k → k.run = .running → k.wait = none → fetchFault s k c.parcels = none →
    (c.prefixOk = false ∨ (guardOf c k = true ∧ c.fieldsOk = false)) →
    let raised := s.modCore (coreKey c) (takeException s.mBase 0x01 .none 0)
    exec i s = .next raised ∨ exec i s = .next (settle raised)) ∧
  (∀ (i : Instr) (c : OctCtx) (k : OctCore) (s : State), octipCtx i = some c → c.pod = 16 → c.core = 0 →
    s.tub.core = some k → tuberFetchFault k c.parcels = none →
    (c.prefixOk = false ∨ (guardOf c k = true ∧ c.fieldsOk = false)) →
    let raised := s.modTuber (enterTuber 0x100 k.pc 0x01 0)
    exec i s = .next raised ∨ exec i s = .next (settle raised))

/-- An Octip instruction leaves memory, every other core, and everything of its own core but what it names, alone: for the
instructions that only compute (integer, predicate, compare, floating point, moves), whatever they come to (result,
exception, or nothing on a core that is not ready), DRAM, its poison marks, the caches, the outputs and the queue are as
before, every other core is as before, every register field but MEM_POISON_READS is as before. -/
def Obligations.ComputingLeavesTheRestAlone : Prop :=
  ∀ (i : Instr) (c : OctCtx) (s t : State), octipCtx i = some c → onlyComputes i = true → exec i s = .next t →
    t.mem = s.mem ∧ t.coh = s.coh ∧ t.out = s.out ∧ t.pending = s.pending ∧ t.jnl = s.jnl ∧ t.css = s.css ∧ t.log = s.log ∧
    (∀ key, key ≠ coreKey c ∨ c.pod = 16 → kvGet? t.cores key = kvGet? s.cores key) ∧
    (∀ f n, f ≠ .MEM_POISON_READS_COUNT → t.getB f n = s.getB f n)

/-- CORE_START of a logical core whose domain runs starts it at M from the start of code region 0 with every other register of
the core clear (R311); INTERRUPT_TAKE takes the lowest pending and enabled source, at S vector 0x180 with the S copies, inside
an enclave at M vector 0x200 with the M copies, cr.epc the next instruction and cr.cause the source with INT 1 (R336, R339);
IPI_RAISE and TIMECMP_MATCH make sources 0 and 1 of a running core pending (R339). -/
def Obligations.CoresStartAndTakeInterrupts : Prop :=
  ∀ (pod core : Nat) (by_ : Origin) (s : State),
    let key := pod * 2 + core
    let mode := s.getB .POD_MODE_MODE pod
    (s.coreUp = true → pod < s.get .POD_SPARES_LOGICAL → mode ≠ 3 → (core = 0 ∨ mode = 1) →
      let fresh : OctCore := { run := .running, pc := s.mBase, status := 2, seenCode := s.codeRegions }
      exec (.coreStart pod core) s = .next (settle { s with cores := kvSet s.cores key fresh })) ∧
    (∀ k n, kvGet? s.cores key = some k → k.run = .running → k.wait = none → intOpen k = true → s.takeable key k = some n →
      let cause := BitVec.ofNat 64 (n + 2 ^ 63)
      let atS := { k with estatusS := k.status, epcS := k.pc, causeS := cause, badS := 0, status := 1,
                          pc := k.vbase + 0x180, bounds := kvDel k.bounds n }
      let atM := { k with estatusM := k.status, epcM := k.pc, causeM := cause, badM := 0, status := 2,
                          pc := s.mBase + 0x200, bounds := kvDel k.bounds n }
      exec (.interruptTake pod core) s =
        .next (settle { s with cores := kvSet s.cores key (if stWorld k.status = 0 then atS else atM) })) ∧
    (isFw by_ = true → kvHas s.cores key = true → exec (.ipiRaise by_ pod core) s = .next (settle (pendInt key 0 s))) ∧
    (∀ k, kvGet? s.cores key = some k → k.timed = false → exec (.timecmpMatch pod core) s = .next (settle
      (pendInt key 1 ((timeTo (s.getB .POD_TIMECMP_TIME key) s).modCore key (fun c => { c with timed := true })))))

/-- A write of COH_MAINT_ADDR sets COH_MAINT_PROG too (R403). CLEAN, CLEAN_INV, INV, ZERO, LOCK and UNLOCK give RESULT 1 for a
length of 0, over 1 GiB or no multiple of 128, 2 for a range past the DRAM, 3 for a ZERO that overlaps a code region, and then
touch no line (R402); otherwise the lines from COH_MAINT_PROG on are worked one by one, to the end or, with an interrupt to
take, one only; PROG is the next line and DONE reads 1 at the end (R403, R404). What one line is worked with is `mtLine`,
stated where no transaction holds the line. -/
def Obligations.MaintenanceWorksLineByLine : Prop :=
  ∀ (c : OctCtx) (k : OctCore) (s : State), OctReady c k s → s.granted (stPl k.status) 0x10 = true → s.pdOn 18 = true →
    let key := coreKey c
    let a := s.getB .COH_MAINT_ADDR_ADDR key * 128
    let len := s.getB .COH_MAINT_LEN_LEN key
    let s0 := s.setB .COH_MAINT_CMD_DONE key 0
    let badLen := len = 0 ∨ len % 128 ≠ 0 ∨ 2 ^ 30 < len
    let badEnd := dramSize < a + len
    let inCode := ∃ r ∈ s0.codeRegions, a < r.limit ∧ r.base < a + len
    (∀ v, exec (.cohMaintAddrWrite c v) s = .next (settle (goesOn c k id
      ((s.setB .COH_MAINT_ADDR_ADDR key (bits v 45 7)).setB .COH_MAINT_PROG_NEXT key (bits v 45 7))))) ∧
    (∀ op i, (op, i) ∈ [(1, Instr.mtClean c), (2, .mtCleanInv c), (3, .mtInv c), (4, .mtZero c), (5, .mtLock c),
        (6, .mtUnlock c)] →
      let refused := fun r : Nat => exec i s = .next (settle (goesOn c k id (s0.setB .COH_MAINT_CMD_RESULT key r)))
      (badLen → refused 1) ∧ (¬ badLen → badEnd → refused 2) ∧ (¬ badLen → ¬ badEnd → op = 4 → inCode → refused 3) ∧
      (¬ badLen → ¬ badEnd → (op ≠ 4 ∨ ¬ inCode) →
        let first := s.getB .COH_MAINT_PROG_NEXT key
        let last := (a + len) / 128
        let s1 := if first * 128 = a then s0.setB .COH_MAINT_CMD_RESULT key 0 else s0
        let n := if intOpen k && (s1.takeable key k).isSome then min 1 (last - first) else last - first
        ∀ next t, mtLines op c.pod key n first s1 = (false, next, t) →
          let u := t.setB .COH_MAINT_PROG_NEXT key next
          exec i s = .next (settle (goesOn c k id (if last ≤ next then u.setB .COH_MAINT_CMD_DONE key 1 else u))))) ∧
    (∀ line t, (t.coh.dirAt line).trans = none →
      mtLine 1 c.pod line t = .ok (cleanLine line t) ∧ mtLine 2 c.pod line t = .ok (purgeLine true line t) ∧
      mtLine 3 c.pod line t = .ok (purgeLine false line t) ∧
      mtLine 4 c.pod line t = .ok (putLine line (zeros 128) (purgeLine false line t)) ∧
      (∀ u, lockLine c.pod line t = some (false, u) → mtLine 5 c.pod line t = .ok u) ∧
      (∀ u, lockLine c.pod line t = some (true, u) → mtLine 5 c.pod line t = .skipped u) ∧
      mtLine 6 c.pod line t = .ok (setLocked c.pod line false t))

/-- GET_SHARED and GET_EXCLUSIVE at a home whose line no transaction holds: the line becomes transient for the requester and a
snoop leaves for each copy that must be given up (exclusive: every other holder; shared: the owner); with a transaction under
way, or another request's token, the request is answered NACK, and at the sixteenth joins the token queue (R397, R398).
COH_NACK_RETRY sends the same request again. -/
def Obligations.DirectoryServesOneRequestAtATime : Prop :=
  ∀ (pod line : Nat) (excl : Bool) (s t : State), s.cohLive pod line = true → s.coh.l2At pod line = none →
    let get := if excl then Instr.getExclusive pod line else .getShared pod line
    let target := fun c : CohState => if excl then (c.holders line).filter (· != pod)
      else match (c.dirAt line).owner with
        | some q => if q = pod then [] else [q]
        | none => []
    let served := fun (u : State) => u.withCoh (fun c =>
      let c' := { c with reqs := c.reqs.filter (fun r => !(r.pod == pod && r.line == line)) }
      let l := target c
      { c' with
        dir := kvSet c'.dir line { c'.dirAt line with
          trans := some { pod := pod, excl := excl, left := l, filling := l.isEmpty, token := false } }
        snoops := c'.snoops ++ l.map (fun q => { pod := q, line := line, inval := excl }) })
    (s.coh.tokenOf line = none → (s.coh.dirAt line).trans = none → dirRoom line s = some t →
      exec get s = .next (settle (served t))) ∧
    (∀ x, (s.coh.dirAt line).trans = some x → x.pod ≠ pod → exec get s = .next (settle (nack pod line excl s))) ∧
    (∀ r, s.coh.tokenOf line = some r → r.line = line → r.pod ≠ pod → (s.coh.dirAt line).trans = none →
      exec get s = .next (settle (nack pod line excl s))) ∧
    (∀ r, s.coh.reqOf pod line = some r → r.excl = excl → exec (.cohNackRetry pod line) s = exec get s)

/-- PUT of an unlocked copy: it enters EVICTING and its write-back reaches the home unless a snoop of it waits there, in which
case it is only marked; PUT_ACK ends EVICTING (R399, R400). A SNOOP that meets a fill of a maintenance operation marks it NOINSTALL, one
that crosses a write-back answers EVICTING, any other gives the copy up or shares it (R400, R401); SNOOP_ANSWER takes the
answer off the network and lets the waiting request go on; FILL_DATA installs the line and the transaction ends (R397). -/
def Obligations.ProtocolMessagesMoveTheLine : Prop :=
  ∀ (pod line : Nat) (s : State),
    let key := l2Key pod line
    (∀ e, s.coh.l2At pod line = some e → e.locked = false → key ∉ s.coh.acks → e.evicting = false →
      (s.coh.snooped pod line = false →
        exec (.putLine pod line) s = .next (settle (rerunAll (putArrives pod line (markEvicting pod line s))))) ∧
      (s.coh.snooped pod line = true → exec (.putLine pod line) s = .next (settle (markEvicting pod line s)))) ∧
    (∀ e, s.coh.l2At pod line = some e → e.evicting = true → key ∈ s.coh.acks →
      exec (.putAck pod line) s = .next (settle
        { s with coh := { s.coh with acks := s.coh.acks.erase key, l2 := kvDel s.coh.l2 key } })) ∧
    (∀ sn, s.coh.snoopOf pod line false = some sn →
      (∀ t, (s.coh.dirAt line).trans = some t → t.maint = true → t.pod = pod → t.filling = true →
        exec (.snoop pod line) s = .next (settle (s.withCoh (fun c =>
          { c with dir := kvSet c.dir line { s.coh.dirAt line with trans := some { t with noInstall := true } } })))) ∧
      (∀ t e, (s.coh.dirAt line).trans = some t → t.maint = false → s.coh.l2At pod line = some e →
        exec (.snoop pod line) s = .next (settle (
          if e.evicting then (s.bump .COH_CROSSED_COUNT).withCoh (answerSnoop sn true)
          else (if sn.inval then evictCopy pod line s else downgrade pod line s).withCoh (answerSnoop sn false))))) ∧
    (∀ sn t, s.coh.snoopOf pod line true = some sn → sn.evicting = false → (s.coh.dirAt line).trans = some t →
      t.maint = false → exec (.snoopAnswer pod line) s = .next (settle
        ((s.withCoh (fun c => { c with snoops := c.snoops.erase sn })).withCoh (answered pod line)))) ∧
    (∀ t, (s.coh.dirAt line).trans = some t → t.pod = pod → t.filling = true → t.maint = false → t.noInstall = false →
      let read := cohLine line s
      let kept := if kvHas read.2.coh.l3 line then read.2 else l3Put line read.1.1 false read.1.2 read.2
      let left := victimLeaves pod line kept
      let put := rerunPod pod (installLine pod line (fillState pod line t.excl left.coh) read.1.1 read.1.2 left)
      exec (.fillData pod line) s = .next (settle (rerunAll (put.withCoh (fun c =>
        { c with dir := kvSet c.dir line { c.dirAt line with trans := none } })))))

/-- COH_AGENT_TIMEOUT captures the agent, the first only, and raises source 24 at level 2 (R408). CORE_DOMAIN_RESTART with the
region as measured starts the cores again with READY 0; with a difference the event goes to level 3 (R409). CACHE_SCRUB: a
corrected array error is a CE of its pod or slice; an uncorrectable directory entry restarts the domain; an uncorrectable L3 line is
dropped, a dirty one written back poisoned first (R391). -/
def Obligations.CoherentDomainFaultsAreHandled : Prop :=
  ∀ (agent slice line pod a b : Nat) (s : State), s.coreUp = true →
    let src := 16 + slice % 8
    (agent ≤ 24 → exec (.cohAgentTimeout agent) s = .next (settle (raiseUe 24 2 0 0 0 0
      (if s.on .COH_DEAD_VALID then s else (s.set .COH_DEAD_AGENT agent).set .COH_DEAD_VALID 1)))) ∧
    (∀ e, s.coh.restarting = true → s.flt.coreEvent = some e →
      let t := { s with flt := { s.flt with coreEvent := none } }
      exec (.coreDomainRestart true) s = .next (settle (thawCoreDomain (t.endRestart .coreDomain))) ∧
      (let u := logHw 10 e.source 0 3 (if t.fltUnacked e.source then t.setPlevel e.source 3 else t)
       exec (.coreDomainRestart false) s = .next (settle { u with flt := { u.flt with todo := u.flt.todo ++ [⟨e, 3⟩] } }))) ∧
    (exec (.cacheScrub (.l1d pod a b) .corrected) s = .next (settle (raiseCe (s.physPod pod) 13 0 0 0 s)) ∧
      exec (.cacheScrub (.l2 pod a) .corrected) s = .next (settle (raiseCe (s.physPod pod) 13 0 0 0 s)) ∧
      exec (.cacheScrub (.l3 slice line) .corrected) s = .next (settle (raiseCe src 13 0 0 0 s)) ∧
      exec (.cacheScrub (.directory slice line) .corrected) s = .next (settle (raiseCe src 13 0 0 0 s)) ∧
      exec (.cacheScrub (.directory slice line) .uncorrectable) s =
        .next (settle (raiseUe src 2 13 1 (line * 128) 0 s))) ∧
    (∀ e, kvGet? s.coh.l3 line = some e →
      let t := s.withCoh (fun c => { c with l3 := kvDel c.l3 line })
      exec (.cacheScrub (.l3 slice line) .uncorrectable) s = .next (settle (
        if e.dirty then raiseUe src 1 13 1 (line * 128) 0 (writeBack line e.data true t)
        else raiseCe src 13 1 (line * 128) 0 t)))

/-- LOCKSTEP_MISMATCH in a CHECKED pod retries while it may, a second failure in a row or too many within a second being a hard
fault (R422 to R426); COMPARATOR_FAULT is one at once (R418); RETRY_SUCCESS counts and raises a CE (R424). A hard fault
with a spare freezes the pod for sparing; with none the pod is FAILED and its source raised at level 2 (R427, R430).
SPARING_COMPLETE puts the spare in the pod's place and raises its source at level 1 (R427, R428); SPARING_TIMEOUT makes
the failing pod a dead agent (R429). -/
def Obligations.LockstepFaultsRetryThenSpare : Prop :=
  ∀ (pod lanes retire : Nat) (s : State),
    let x := s.podAt pod
    let noted := (s.setB .POD_STATUS_LANES pod lanes).setB .POD_STATUS_RETIRE pod retire
    let phys := s.physPod pod
    (s.checkedPod pod = true → x.sparing = none →
      ((x.retry = 1 ∨ (x.retry = 0 ∧ x.recent.length ≤ max 1 (noted.get .POD_RETRY_CTL_LIMIT))) →
        exec (.lockstepMismatch pod lanes retire false) s =
          .next (settle (noted.modPod pod (fun x => { x with retry := x.retry + 1 })))) ∧
      ((x.retry = 2 ∨ (x.retry = 0 ∧ max 1 (noted.get .POD_RETRY_CTL_LIMIT) < x.recent.length)) →
        exec (.lockstepMismatch pod lanes retire false) s =
        .next (settle (hardFault pod 1 (noted.setB .POD_STATUS_COMPFAULT pod 0)))) ∧
      (x.retry ≠ 0 →
        let counted := s.bumpB .POD_RETRIES_COUNT pod 1
        let last := x.recent.filter (fun t => decide (counted.now < t + 1000000000)) ++ [counted.now]
        let t := counted.modPod pod (fun x => { x with retry := 0, recent := last })
        exec (.retrySuccess pod) s = .next (settle (raiseCe (t.physPod pod) 0 0 0 0 t)))) ∧
    (s.checkedPod pod = true → exec (.comparatorFault pod) s =
      .next (settle (hardFault pod 2 (s.setB .POD_STATUS_COMPFAULT pod 1)))) ∧
    (x.sparing = none → ∀ cause, (∀ n, s.spare = some n → hardFault pod cause s =
        (setRun pod .frozen s).modPod pod (fun x => { x with sparing := some (phys, cause), retry := 0 })) ∧
      (s.spare = none → hardFault pod cause s = podError pod 2 0 0 0 0 (failPhys phys s))) ∧
    (∀ old cause new, x.sparing = some (old, cause) → s.spare = some new →
      exec (.sparingComplete pod) s = .next (settle (noteFault
        { source := old, ue := true, base := 1, detail := detailOf old 1 true }
        (((bringSpare pod old new cause (emptyL2 pod (drainCore (2 * pod) s).2)).modCore (2 * pod) sparedCore).setB
          .POD_STATUS_ERR pod 1)))) ∧
    (∀ old cause, x.sparing = some (old, cause) → s.coreUp = true → pod ≤ 24 →
      let t := (failPhys old s).modPod pod (fun x => { x with sparing := none })
      exec (.sparingTimeout pod) s = .next (settle (raiseUe 24 2 0 0 0 0
        (if t.on .COH_DEAD_VALID then t else (t.set .COH_DEAD_AGENT pod).set .COH_DEAD_VALID 1))))

/-- The pod commands of the pod's own cores, BUSY 0: SPLIT starts core 1 at POD_SPLIT_ENTRY at S with core 0's cr.vbase (R434);
PARK by core 1 parks it and discards its pending latched interrupts; CHECK by core 0 of a parked pod with equal parity goes back
to lockstep (R435); WARM_RESTART starts the pod's cores at POD_RESTART_ENTRY at S (R431); each with RESULT 0 (R436). -/
def Obligations.PodCommandsChangeTheMode : Prop :=
  ∀ (pod core world level : Nat) (s : State), s.onB .POD_CMD_BUSY pod = false →
    let own := Origin.fw pod core world level
    let core1 := Origin.fw pod 1 world level
    let core0 := Origin.fw pod 0 world level
    let result := fun (r : Nat) (t : State) => t.setB .POD_CMD_RESULT pod r
    let mode := s.getB .POD_MODE_MODE pod
    let at_ := fun (e : Nat) => BitVec.ofNat 64 e
    (mode = 0 → s.onB .POD_MODE_SERVICE pod = false → s.inCode (s.getB .POD_SPLIT_ENTRY_ADDR pod * 2) = true →
      let fresh : OctCore :=
        { run := .running, pc := at_ (s.getB .POD_SPLIT_ENTRY_ADDR pod * 2), status := 1, seenCode := s.codeRegions,
          vbase := ((kvGet? s.cores (2 * pod)).map (·.vbase)).getD 0 }
      exec (.podSplit own pod) s = .next (settle (result 0
        { s.setB .POD_MODE_MODE pod 1 with cores := kvSet s.cores (2 * pod + 1) fresh }))) ∧
    (mode = 1 → exec (.podPark core1 pod) s = .next (settle (result 0
      ((((drainCore (2 * pod + 1) s).2.modCore (2 * pod + 1) (fun c => { c with run := .parked, bounds := [] })).setB
        .POD_INT_PEND_LATCHED (2 * pod + 1) 0).setB .POD_MODE_PARKED pod 1)))) ∧
    (mode ≠ 3 → s.onB .POD_MODE_SERVICE pod = false → s.onB .POD_MODE_PARKED pod = true →
      exec (.podCheck core0 pod true) s = .next (settle (result 0
        { (s.setB .POD_MODE_MODE pod 0).setB .POD_MODE_PARKED pod 0 with cores := kvDel s.cores (2 * pod + 1) })) ∧
      exec (.podCheck core0 pod false) s = .next (settle (result 3 s))) ∧
    (mode ≠ 3 → s.inCode (s.getB .POD_RESTART_ENTRY_ADDR pod * 2) = true →
      exec (.warmRestart own pod) s = .next (settle (result 0 (restartCores pod
        (if s.onB .POD_STATUS_ERR pod then loseStores (2 * pod + 1) (loseStores (2 * pod) s)
         else (drainCore (2 * pod + 1) (drainCore (2 * pod) s).2).2)))))

/-- The collector: FAULT_EVENT notes an event of an error pin at a base level its row lists and, in a SPLIT pod, begins a warm restart (R431, R440, R446); FLT_ACK clears the named bits
of FLT_STATUS and their pending levels, and with none left withdraws the firmware interrupt (R445); rearming clears
FLT_FIRST_TYPE.VALID (R452); FLT_INJECT, logged once as the RWL register it is (R601), notes in MAINTENANCE an injected event (R455); with GO 0 it only stores
the fields, and refused by the log it does neither (R10); a heartbeat miss takes the copy out, the second at level 3 (R454); a region that restarts goes on (R448); COH_READY delivers an
interrupt that was held (R444). -/
def Obligations.CollectorCommandsActOnFaults : Prop :=
  ∀ (e : FaultIn) (o : Origin) (mask v : Nat) (copyB : Bool) (s : State), s.mode ≠ Mode.off →
    (let t := noteFault { e with injected := false, noReact := false, base := pinBase e } s
     exec (.faultEvent e) s = .next (settle (match t.logicalOf e.source with
      | some p => if e.source < 16 ∧ e.ue ∧ pinBase e = 1 ∧ t.getB .POD_MODE_MODE p = 1 ∧ t.coreUp then collectorRestart p t
        else t
      | none => t))) ∧
    (let t := ((List.range 56).filter (fun n => mask.testBit n && s.fltUnacked n)).foldl
      (fun s n => (s.setBitB .FLT_STATUS_SRC 0 n false).setPlevel n 0) s
     s.lit o .FLT_ACK → exec (.fltAck o mask) s = .next (settle (if t.get .FLT_STATUS_SRC = 0 then
        unpendInt (t.get .FLT_CTL_IRQ_POD * 2) 2 { t with flt := { t.flt with irqHeld := false } } else t))) ∧
    (s.lit o .FLT_FIRST_TYPE → exec (.fltCaptureRearm o) s = .next (settle (s.set .FLT_FIRST_TYPE_VALID 0))) ∧
    (s.lit o .FLT_INJECT →
      let stored := setInject v (logBy o 1 (regBase .FLT_INJECT) (s.regRaw .FLT_INJECT 0) ((setInject v s).regRaw .FLT_INJECT 0) s)
      (s.logTakes o = true → v / 256 % 2 = 0 → exec (.fltInject o v) s = .next (settle stored)) ∧
      (s.logTakes o = true → v / 256 % 2 = 1 → s.mode = Mode.maintenance → v % 64 < 56 →
        let n := v % 64
        let base := (ueLevels n).headD 1
        exec (.fltInject o v) s = .next (settle (noteFault
          { source := n, ue := v / 64 % 2 == 1, base := base, origin := originCode o,
            detail := detailOf n base (v / 64 % 2 == 1), injected := true, noReact := v / 128 % 2 == 1 }
          (stored.set .FLT_INJECT_RESULT 0)))) ∧
      (s.logTakes o = false → exec (.fltInject o v) s = .next (settle ((logRefuse s).set .FLT_INJECT_RESULT 3)))) ∧
    (s.get .FLT_CTL_COLL = 0 → exec (.collectorHeartbeatMiss copyB) s =
      .next (settle (raiseUe 55 1 0 0 0 0 (s.set .FLT_CTL_COLL (if copyB then 1 else 2))))) ∧
    (s.get .FLT_CTL_COLL = (if copyB then 2 else 1) → exec (.collectorHeartbeatMiss copyB) s =
      .next (settle (raiseUe 55 3 0 0 0 0 s))) ∧
    (∀ r, s.flt.restarting.contains r = true → r ≠ .coreDomain → r ≠ .tuber →
      let t := s.endRestart r
      exec (.regionRestartComplete r) s = .next (settle (match r with
        | .code => ((t.set .ENG_ONLINE_CODE_RST 0).set .ENG_ONLINE_CHUNK 0xFF).set .ENG_ONLINE_PROBE 0x3FF
        | .pack0 => packBack 0 (t.set .ENG_ONLINE_PACK0_RST 0)
        | .pack1 => packBack 4 (t.set .ENG_ONLINE_PACK1_RST 0)
        | _ => t)))

/-- MEM_READ of an existing line that nothing holds and no earlier request waits for: the symbol errors of the read are in the line until it is written, its bank
is touched, and the line is decoded by `readLine` (R277); a media read then fills a lane FIFO (R246). MEM_WRITE writes
its bytes line by line, by read-modify-write where it covers a part (R272, R279). A read of a clean line gives the bytes of the
line and changes nothing; one that decodes as poisoned gives none and counts (R281); a whole-line write clears poison and
wrong symbols, a part of a poisoned line is not written (R279). A request that is held waits in its front end (R275, R287), and
one of a device to enclave memory does nothing (R332). -/
def Obligations.MemoryReadsAndWritesLines : Prop :=
  ∀ (req : MemClient) (line addr : Nat) (errs : List SymbolError) (data : List Byte) (s : State),
    (line < 2 ^ 31 → s.memHolds line false = false → s.lineQueued line = false → (fromDevice req = false ∨ s.inEnclave (line * 128) = none) →
      let t := (readLine false line (touchBank line (if errs.isEmpty then s
        else s.withMem (fun m => { m with errs := kvSet m.errs line (kvGet m.errs line [] ++ errs) })))).2
      exec (.memRead req line errs) s = .next (settle (if req = .media then laneFetch t else t))) ∧
    (line < 2 ^ 31 → (s.memHolds line false = true ∨ s.lineQueued line = true) →
      (fromDevice req = false ∨ s.inEnclave (line * 128) = none) → exec (.memRead req line errs) s = .next (settle (s.withMem (fun m =>
        { m with reqs := m.reqs ++ [{ client := req, line := line, errs := errs, at_ := s.now }] })))) ∧
    (line < 2 ^ 31 → fromDevice req = true → s.inEnclave (line * 128) ≠ none → exec (.memRead req line errs) s = .next (settle s)) ∧
    (2 ^ 31 ≤ line → exec (.memRead req line errs) s = .fault (.noSuchLine (line * 128))) ∧
    (addr + data.length ≤ 2 ^ 38 → (∀ p ∈ piecesOf addr data.length, s.memHolds p.1 true = false ∧ s.lineQueued p.1 = false ∧
        (fromDevice req = false ∨ s.inEnclave (p.1 * 128) = none)) →
      let t := ((piecesOf addr data.length).map (·.1)).foldl (fun s l => queueWrite l (touchBank l s)) s
      exec (.memWrite req addr data) s = .next (settle (devWriteAux (piecesOf addr data.length) data t).2)) ∧
    (0 < data.length → addr % 128 + data.length ≤ 128 → addr + data.length ≤ 2 ^ 38 →
      (s.memHolds (addr / 128) true = true ∨ s.lineQueued (addr / 128) = true) →
      (fromDevice req = false ∨ s.inEnclave (addr / 128 * 128) = none) →
      exec (.memWrite req addr data) s = .next (settle (s.withMem (fun m => { m with reqs := m.reqs ++
        [{ client := req, line := addr / 128, write := some (addr % 128, data), at_ := s.now }] })))) ∧
    (2 ^ 38 < addr + data.length → exec (.memWrite req addr data) s = .fault (.noSuchLine addr)) ∧
    (kvGet s.mem.errs line [] = [] → s.poisoned line = false → (s.leftOut line).length < 2 →
      readLine false line s = (some (s.mem.line line), s)) ∧
    (data.length = 128 → writeLine line 0 data s = (true, s.withMem (fun m => { m with
      dram := cellPut m.dram (line * 128) data, poison := m.poison.filter (· != line), errs := kvDel m.errs line }))) ∧
    (∀ off t, ¬ (off = 0 ∧ data.length = 128) → readLine false line s = (none, t) → writeLine line off data s = (false, t))

/-- Marking a stripe: CHANNEL_TIMEOUT marks it by hardware, STRIPE_MARK by command with its RESULT (R282, R285); STRIPE_CLEAR in
MAINTENANCE takes effect at the next start (R283); FRONT_END_SWITCH_COMPLETE makes the lowest domain on whose stripe is not
failed the active one (R274). A stripe already failed is not marked again. -/
def Obligations.StripesAreMarkedAndSwitched : Prop :=
  ∀ (o : Origin) (stripe channel : Nat) (s : State),
    (stripe ≤ 5 → channel ≤ 3 → exec (.channelTimeout stripe channel) s = .next (settle (markStripe 0 stripe s))) ∧
    (s.bitB .MEM_STRIPE_STATUS_FAILED 0 stripe = true → ∀ n, markStripe n stripe s = s) ∧
    (s.lit o .MEM_STRIPE_CMD → s.logTakes o = true → stripe ≤ 5 →
      let entered := fun op => (logBy o 1 (regBase .MEM_STRIPE_CMD) 0 (op + stripe * 4) s).set .MEM_STRIPE_CMD_RESULT 0
      (s.otherStripeFailed stripe = false →
        exec (.stripeMark o stripe) s = .next (settle (markStripe (originCode o) stripe (entered 1)))) ∧
      (s.otherStripeFailed stripe = true → s.bitB .MEM_STRIPE_STATUS_FAILED 0 stripe = false →
        exec (.stripeMark o stripe) s = .next (settle (s.set .MEM_STRIPE_CMD_RESULT 2))) ∧
      (s.mode = Mode.maintenance → exec (.stripeClear o stripe) s = .next (settle ((entered 2).withMem (fun m =>
        { m with clearNext := if m.clearNext.contains stripe then m.clearNext else m.clearNext ++ [stripe] })))) ∧
      (s.mode ≠ Mode.maintenance → exec (.stripeClear o stripe) s = .next (settle (s.set .MEM_STRIPE_CMD_RESULT 3)))) ∧
    (s.mem.switching = true → ∀ k, s.nextFrontEnd = some k →
      exec .frontEndSwitchComplete s = .next (settle (((s.withMem (fun m => { m with switching := false })).set
        .MEM_STRIPE_STATUS_FE_ACTIVE k).bump .MEM_FE_SWITCHES_COUNT)))

/-- The memory controller's own work: MEM_AGE_PROMOTE promotes the oldest
waiting request of the front end, 1.5 µs after it came, and counts (R289); a refresh due is postponed under PANIC, at most 8 times,
and what was postponed is issued otherwise; MR4_POLL keeps the largest rate (R291); a channel drifted past MEM_TRAIN_CTL is
retrained, and one that fails twice in succession has its stripe marked (R293, R282); patrol scrub reads the next line and
at the end counts the pass (R295). -/
def Obligations.MemoryControllerTakesCareOfItself : Prop :=
  ∀ (group stripe channel drift : Nat) (rates : List Nat) (errs : List SymbolError) (s : State),
    let k := stripe * 4 + channel
    (group < 4 →
      ((∀ q ∈ s.waitsAt group, q.aged = true) → exec (.memAgePromote group) s = .next (settle (s.bump .MEM_AGED_COUNT))) ∧
      (∀ q, (s.waitsAt group).find? (fun q => !q.aged) = some q → exec (.memAgePromote group) s =
        .next (settle ((timeTo (q.at_ + 1500) (s.withMem (fun m =>
          { m with reqs := m.reqs.map (fun e => if e = q then { e with aged := true } else e) }))).bump .MEM_AGED_COUNT)))) ∧
    (group < 4 →
      let n := if s.get .MPT_PANIC_LANES = 0 then 0 else min (kvGet s.mem.postponed group 0 + 1) 8
      exec (.refreshDue group) s = .next (settle (syncPostponed
        (s.withMem (fun m => { m with postponed := kvSet m.postponed group n }))))) ∧
    exec (.mr4Poll rates) s = .next (settle (s.set .MEM_REF_STATUS_RATE (rates.foldl (fun a r => max a (r % 32)) 0))) ∧
    (stripe ≤ 5 → channel ≤ 3 → s.bitB .MEM_STRIPE_STATUS_FAILED 0 stripe = false → s.mode ≠ Mode.dormant →
      s.mem.retrain = [] → max 1 (s.get .MEM_TRAIN_CTL_DRIFT) < drift →
      exec (.dqsOscCheck stripe channel drift) s = .next (settle (syncRetrain
        ((s.withMem (fun m => { m with retrain := [k] })).bump .MEM_RETRAINS_COUNT)))) ∧
    (k ∈ s.mem.retrain → channel ≤ 3 →
      let ended := syncRetrain (s.withMem (fun m => { m with retrain := m.retrain.filter (· != k) }))
      exec (.channelRetrainComplete stripe channel true) s =
        .next (settle (ended.withMem (fun m => { m with badTrain := kvDel m.badTrain k }))) ∧
      (kvGet s.mem.badTrain k 0 = 0 → exec (.channelRetrainComplete stripe channel false) s = .next (settle
        (beginRetrain stripe channel (ended.withMem (fun m => { m with badTrain := kvSet m.badTrain k 1 }))))) ∧
      (kvGet s.mem.badTrain k 0 = 1 → exec (.channelRetrainComplete stripe channel false) s = .next (settle
        (markStripe 0 stripe ((ended.withMem (fun m => { m with badTrain := kvSet m.badTrain k 2 })).withMem (fun m =>
          { m with badTrain := kvDel m.badTrain k })))))) ∧
    (s.on .MEM_SCRUB_CTL_ENABLE = true → (s.mode = Mode.frond ∨ s.mode = Mode.standby) →
      let pos := s.get .MEM_SCRUB_STATUS_POS
      s.memHolds pos false = false →
      let t := (readLine true pos (touchBank pos (addErrs pos errs s))).2
      exec (.patrolScrubRead errs) s = .next (settle (if pos + 1 < 2 ^ 31 then t.set .MEM_SCRUB_STATUS_POS (pos + 1)
        else
          let u := t.set .MEM_SCRUB_STATUS_POS 0
          (u.set .MEM_SCRUB_STATUS_PASSES (u.get .MEM_SCRUB_STATUS_PASSES + 1)).withMem (fun m =>
            { m with passCorr := [] }))))

/-- The MRAM: MRAM_WRITE_COMPLETE ends one accepted write and lets waiting fences go on (R297, R304). JNL_SCRUB_READ of a block with both
dies usable repairs a bad copy from the good one and counts it with a CE; with no good copy the block is lost, counted and
raised (R306). MRAM_DIE_FAIL makes the die unusable, at level 3 when its partner is gone too (R307). SUPPLY_FAULT reports
source 48 at level 3 and loses what MRAM does not keep (R308, R587). -/
def Obligations.MramKeepsTwoCopies : Prop :=
  ∀ (area : MramArea) (block die : Nat) (badA badB : Bool) (s : State),
    exec .mramWriteComplete s = .next (settle (rerunAll (s.withJnl (fun j => { j with writes := j.writes - 1 })))) ∧
    (s.on .JNL_SCRUB_CTL_ENABLE = true → block < areaBlocks area → s.copyOk area block false = true →
      s.copyOk area block true = true → s.jnl.lost.contains (area, block) = false →
      let sl := if area = .journal then kvGet s.jnl.slots block ⟨.empty, .empty⟩ else ⟨.empty, .empty⟩
      let a : JCopy := if badA then .bad else sl.a
      let b : JCopy := if badB then .bad else sl.b
      (a ≠ .bad → b ≠ .bad → exec (.jnlScrubRead area block badA badB) s = .next (settle s)) ∧
      ((a = .bad ∧ b ≠ .bad) ∨ (a ≠ .bad ∧ b = .bad) →
        let c := if a = .bad then b else a
        let t := if area = .journal then setSlot block c c s else s
        let u := syncSingle (t.withJnl (fun j => { j with oneCopy := j.oneCopy.filter (· != (area, block)) }))
        exec (.jnlScrubRead area block badA badB) s =
          .next (settle (raiseCe 26 13 4 (mramBlock area block) 0 (u.bump .JNL_REPAIRED_COUNT)))) ∧
      (a = .bad → b = .bad →
        let t := if area = .journal then setSlot block .bad .bad s
          else s.withJnl (fun j => { j with lost := j.lost ++ [(area, block)] })
        let u := t.bump .JNL_LOST_COUNT
        exec (.jnlScrubRead area block badA badB) s = .next (settle (raiseUe 26 1 13 4 (mramBlock area block) 0
          (if area = .journal ∧ u.slotLive block then u.bump .JNL_LOST_LIVE_COUNT else u))))) ∧
    (die ≤ 3 → s.dieOk die = true →
      let t := (s.setBitB .JNL_STATUS_DIES 0 die false).set .JNL_STATUS_SINGLE 1
      exec (.mramDieFail die) s = .next (settle (raiseUe 26
        (if t.dieOk (if die % 2 = 0 then die + 1 else die - 1) then 1 else 3) 0 4 0 0 t))) ∧
    (s.mode ≠ Mode.off → exec .supplyFault s =
      .next (settle ((losePower (raiseUe 48 3 0 0 0 0 s)).withMod (fun m => { m with supplyLost := true }))))

/-- The journal: the oldest record that may be written is written at the tail and mirrored, its actions following (R130, R302);
without a free slot the channel subsystem's source is raised once; a RETIRE record covers every advance of its queue before it
(R134); a carry copies the program of the record at the head to the tail and frees its slot (R300); replay in FIDDLEHEAD
goes to start failure where a slot is unreadable (R135); a program put back goes on at its checkpoint (R138). -/
def Obligations.JournalOrdersItsRecords : Prop :=
  ∀ (fn cq sch : Nat) (s : State),
    (∀ p rest, takeFirst (fun p => s.jnlTakes p.record) s.jnl.pending = some (p, rest) →
      exec .journalRecordDurable s = .next (settle (recordDurable p (s.withJnl (fun j => { j with pending := rest }))))) ∧
    (s.jnl.pending ≠ [] → s.jnlFree = 0 → s.jnl.noSlot = false →
      exec .journalRecordDurable s =
        .next (settle (raiseUe 27 1 0 0 0 0 (s.withJnl (fun j => { j with noSlot := true }))))) ∧
    (∀ l, kvGet? s.css.retire (cqKey fn cq) = some l →
      let t := s.withCss (fun c => { c with retire := kvDel c.retire (cqKey fn cq) })
      exec (.retireRecordWrite fn cq) s = .next (settle (t.withJnl (fun j => { j with pending := j.pending ++ [
        { record := { sch := 0, token := 0, seq := 0, fn := fn, node := t.node,
                      body := .retire cq (t.getB .FN_CQ_HEAD_HEAD (cqKey fn cq)) },
          acts := [.retired l] }] })))) ∧
    (let t := syncFree (stepHead (s.get .JNL_TAIL_COUNT - s.get .JNL_HEAD_COUNT) s)
     let h := t.get .JNL_HEAD_COUNT
     ∀ r, t.jnlRec h = some r → h ≠ t.get .JNL_TAIL_COUNT → t.mode ≠ Mode.spore → t.on .JNL_STATUS_REFUSING = false →
      let l := if r.ofProg then carrySet t.jnlLive r else [r]
      l.length ≤ t.jnlFree →
      let u := (l.foldl (fun s r => (mirror pairJournal r.mirrorBytes (jnlPut r s)).2) t).bump .JNL_CARRIED_COUNT
      exec .journalCarry s = .next (settle (syncFree
        (stepHead (u.get .JNL_TAIL_COUNT - h) (u.set .JNL_HEAD_COUNT (h + 1)))))) ∧
    (s.mode = Mode.fiddlehead → s.passed 1 = true → s.passed 5 = false →
      (s.journalReadable = false → exec .journalReplay s = .next (settle (failStart 0x0700 s))) ∧
      (s.journalReadable = true → exec .journalReplay s = .next (settle
        (let t := advanceKeys s
         stepDone 5 (if t.on .CLM_PAIR_PAIRED then t else replay t))))) ∧
    (∀ p, (s.subAt sch).prog = some p → (s.subAt sch).st = .redrive → p.ending = none → s.mode = Mode.frond →
      exec (.redriveStart sch) s = .next (settle (if p.askFirst then
        sendRemote 7 (execNode sch) (p.token % 65536) p.token 0 (execSch sch) (s.subAt sch).fn 0 [] [] s
      else redriveGo sch p s)))

/-- The nine stage orders change the stage set as `stageSet` says, field by field, and ask for a STAGE record whose durability
ends them (R47, R129): CHUNK forces a cut first (R79), PROBE, SEAL and SPREAD a cut and a close when they change the domain,
the key or the shape and placement (R81); SEAL and UNSEAL wait for their key to be in a slot (R192); SPREAD and GATHER check their
block (R82, R88), which fails with HOSTF where host memory cannot be read (R48) and with FAIL 0x0209 on a poisoned line
(R281). -/
def Obligations.StageOrdersSetTheirStage : Prop :=
  ∀ (k : Nat) (p : Prog) (f : Fetched) (t : List Fetched) (s u : State) (st : StageSet) (d : List Byte),
    let o := parseOrd f.raw
    let r := beginRun p f .stage
    let begun := beginState k p f t .stage u
    (OrderReady k opChunk p f t s u →
      exec (.ordChunk k) s = .next (settle (runStage k o r [] (forceCut k false begun)))) ∧
    (OrderReady k opPack p f t s u → exec (.ordPack k) s = .next (settle (runStage k o r [] begun))) ∧
    (OrderReady k opDigest p f t s u → exec (.ordDigest k) s = .next (settle (runStage k o r [] begun))) ∧
    (OrderReady k opUnpack p f t s u → exec (.ordUnpack k) s = .next (settle (runStage k o r [] begun))) ∧
    (OrderReady k opProbe p f t s u →
      let fn := (begun.subAt k).fn
      let same := begun.domFor fn p.stages.probeDom = begun.domFor fn (o.pa % 65536)
      exec (.ordProbe k) s = .next (settle (runStage k o r [] (if same then begun else forceCut k true begun)))) ∧
    (OrderReady k opSeal p f t s u →
      let same := p.stages.sealKey = none ∨ p.stages.sealKey = some o.pa
      exec (.ordSeal k) s = .next (settle (runKeyStage k o r (if same then begun else forceCut k true begun)))) ∧
    (OrderReady k opUnseal p f t s u → exec (.ordUnseal k) s = .next (settle (runKeyStage k o r begun))) ∧
    (OrderReady k opSpread p f t s u → ∀ b v,
      let n := o.pb % 256 + bits o.pb 15 8
      (∀ block, readBlock o.dev o.addr (16 * n) b begun = (.ok block, v) →
        let ok := placementOk k (v.subAt k).fn (bits o.pb 20 16) n block v
        let keeps := match p.stages.spread, (stageSet o block p.stages).spread with
          | some a, some b => sameSpread a b
          | none, _ => true
          | _, _ => false
        exec (.ordSpread k b) s = .next (settle (if ok then
            runStage k o r block (if keeps then v else forceCut k true v)
          else endProg k stRej 0x001A 0 f.addr v))) ∧
      (readBlock o.dev o.addr (16 * n) b begun = (.poisoned, v) →
        exec (.ordSpread k b) s = .next (settle (endProg k stFail 0x0209 0 f.addr v))) ∧
      (o.dev = false → exec (.ordSpread k .failed) s = .next (settle (endProg k stHostf 0x0300 0 f.addr begun)))) ∧
    (OrderReady k opGather p f t s u → ∀ b v,
      (∀ map, readBlock o.dev o.addr o.count b begun = (.ok map, v) →
        exec (.ordGather k b) s = .next (settle (if mapOk map o.count then runStage k o r map v
          else endProg k stRej 0x001B 0 f.addr v))) ∧
      (readBlock o.dev o.addr o.count b begun = (.poisoned, v) →
        exec (.ordGather k b) s = .next (settle (endProg k stFail 0x0209 0 f.addr v))) ∧
      (o.dev = false → exec (.ordGather k .failed) s = .next (settle (endProg k stHostf 0x0300 0 f.addr begun)))) ∧
    (∀ v p', v.progAt k = some p' →
      let w := modProg k (fun p => { p with stages := stageSet o d p'.stages }) v
      runStage k o r d v = jnlAsk (w.jrec k p'.token (.stage r.raw r.addr d)) [.stageEnd k] w) ∧
    (∀ e : Ord,
      (e.op = opChunk → stageSet e d st =
        { st with chunkMin := e.pa % 2 ^ 32, chunkMax := e.pa / 2 ^ 32, chunkLog := e.pb % 32 }) ∧
      (e.op = opProbe → stageSet e d st = { st with probeRun := true, probeDom := e.pa % 65536, probeMode := e.pb % 4 }) ∧
      (e.op = opPack → stageSet e d st =
        { st with packWin := e.pa % 2 ^ 32, packFmt := e.pb % 16, packLevel := bits e.pb 7 4 }) ∧
      (e.op = opSeal → stageSet e d st = { st with sealKey := some e.pa }) ∧
      (e.op = opDigest → stageSet e d st = { st with digMask := e.pb % 32, digAddr := e.addr, digDev := e.dev }) ∧
      (e.op = opUnseal → stageSet e d st = { st with unsealKey := some e.pa }) ∧
      (e.op = opUnpack → stageSet e d st = { st with verify := !e.pb.testBit 0 }))

/-- The control orders: JUMP goes to its address and BRANCH does when its condition has the sense asked, else to the next order
(R51, R91); with MARK it stands until its word is posted (R68, R124); a transfer that is the 65_536th in a row is rejected
with 0x0018, and a halted program stops instead (R115). WAIT stands until its time or a RESUME, one already past ends at once with condition 6 clear (R92); WAIT_EXPIRE
ends it, condition 6 set for kind 2; NOTE posts a word with Count as residual and stands until it is posted (R68, R124); END
ends the program with DONE (R49), after its MARK word. -/
def Obligations.ControlOrdersMoveTheProgram : Prop :=
  ∀ (k : Nat) (p : Prog) (f : Fetched) (t : List Fetched) (s u : State),
    let o := parseOrd f.raw
    let r := beginRun p f .stage
    let begun := fun place => beginState k p f t place u
    (OrderReady k opJump p f t s u → exec (.ordJump k) s = .next (settle (thenTransfer k o.addr r o (begun .stage)))) ∧
    (OrderReady k opBranch p f t s u → s.progAt k = some p →
      (o.pb % 256 ≠ 1 ∨ (p.fifo = [] ∧ p.todo = [] ∧ ∀ c ∈ p.chunks, c.place ≠ .cut)) →
      exec (.ordBranch k) s = .next (settle (if (beginProg p f t .stage).cond (o.pb % 256) = o.pb.testBit 8
        then finishOrder k (begun .stage) else thenTransfer k o.addr r o (begun .stage)))) ∧
    (∀ v a q, v.progAt k = some q →
      let go := modProg k (fun q => { q with transfers := q.transfers + 1, fetched := [], fetchAt := none }) v
      let w := v.word k q flNote (stDone + v.settledBit k q) 0 f.addr 0
      let stands := modProg k (fun q => { q with run := some { r with place := .wordTo a } }) v
      jumpTo k a r v = (if 65536 ≤ q.transfers + 1 then endProg k stRej 0x0018 0 f.addr v
        else if q.halt.isSome then haltAt k a go else goTo k a go) ∧
      (o.mark = false → thenTransfer k a r o v = jumpTo k a r v) ∧
      (o.mark = true → thenTransfer k a r o v = (if isExec k then sendStatus k w stands
        else queuePost (stands.subAt k).fn (stands.subAt k).cq { w := w, sch := k, kind := .note } stands))) ∧
    (OrderReady k opWait p f t s u →
      let kind := o.pb % 4
      let past := (kind = 1 ∧ o.pa ≤ (begun .stage).now) ∨ (kind = 0 ∧ o.pa = 0)
      let deadline := if kind = 1 ∨ (kind ≠ 0 ∧ o.pa = 0) then o.pa else (begun .stage).now + o.pa
      let waiting := { r with place := .wait kind deadline }
      exec (.ordWait k) s = .next (settle (if past then finishOrder k (setConds k [(6, false)] (begun .stage))
        else if p.halt.isSome then haltAt k f.addr (begun .stage)
        else enterSt k .waiting (modProg k (fun q => { q with run := some waiting }) (begun .stage))))) ∧
    (∀ w kind dl, (s.subAt k).st = .waiting → (s.progAt k).bind (·.run) = some w → w.place = .wait kind dl →
      ¬ (kind = 2 ∧ dl = 0) → exec (.waitExpire k) s = .next (settle (finishOrder k (enterSt k .active
        (setConds k [(6, kind == 2)] (timeTo dl s)))))) ∧
    (OrderReady k opNote p f t s u →
      let v := begun .word
      let w := v.word k (beginProg p f t .word) flNote (stDone + v.settledBit k (beginProg p f t .word)) o.count f.addr 0
      exec (.ordNote k) s = .next (settle (postNote k w (beginRun p f .word) .word v))) ∧
    (OrderReady k opEnd p f t s u → exec (.ordEnd k) s = .next (settle (finishOrder k (begun .stage)))) ∧
    (∀ v q x, v.progAt k = some q → q.run = some x → q.join = none → q.halt = none → (v.subAt k).st ≠ .resetting →
      (parseOrd x.raw).op = opEnd → nextOrder k v = endProg k stDone 0 x.x.residual x.addr v)

/-- CALL-CORE: its argument is read and the call waits for a slot (R93); CALL_POST gives the oldest the lowest free slot, a
fresh tag and an entry at PROD (R95, R96, R98); CALL_ANSWER from a core with the slot and its tag ends the order with condition 4, or
the program with FAIL for a result of 0x8000 or more (R93, R97), a stale one only sets RESULT 1; the timeout ends it with FAIL 0x0210 and
frees the slot (R93, R98); COH_READY makes calls deliverable again (R99, R410). Which case of R97 is reported where two
are met is the model's choice (log entry 17). -/
def Obligations.CallsReachFirmware : Prop :=
  ∀ (k : Nat) (p : Prog) (f : Fetched) (t : List Fetched) (s u : State) (o' : Origin),
    let o := parseOrd f.raw
    let begun := beginState k p f t .call u
    (OrderReady k opCall p f t s u → o.dev = false → o.count ≠ 0 →
      exec (.ordCallCore k .failed) s = .next (settle (endProg k stHostf 0x0300 0 f.addr begun))) ∧
    (OrderReady k opCall p f t s u → ∀ arg d v,
      (if o.dev || o.count == 0 then (Block.ok [], begun) else readBlock false o.addr o.count arg begun) = (.ok d, v) →
      let call : Call :=
        { sch := k, token := p.token, addr := f.addr, a := o.pa, service := o.pb % 65536, timeoutMs := o.pb / 65536,
          len := o.count, dev := o.dev, arg := o.addr, block := d }
      let asked := v.withCss (fun g => { g with calls := g.calls ++ [call] })
      exec (.ordCallCore k arg) s =
        .next (settle (if asked.get .COH_STATUS_DOMAIN = 1 then enterSt k .waitCore asked else asked))) ∧
    (∀ c i, s.css.calls.find? (fun c => c.slot.isNone) = some c → c.sch = k →
      (List.range s.callEntries).find? (fun i => s.css.calls.all (fun q => q.slot != some i)) = some i →
      s.on .CSS_CALL_CTL_ENABLE = true → s.on .COH_CTL_READY = true →
      let tag := (kvGet s.css.slotTags i 0 + 1) % 65536
      let c' := { c with slot := some i, tag := tag, since := s.now }
      let v := s.withCss (fun g =>
        { g with slotTags := kvSet g.slotTags i tag, calls := g.calls.map (fun q => if q = c then c' else q) })
      let w := if c.dev then v else (devWrite (v.slotAddr i) c.block v).2
      exec (.callPost k) s = .next (settle
        ((postEntry (w.callEntry c' i false) w).set .CSS_CALL_STAT_OPEN (w.get .CSS_CALL_STAT_OPEN + 1)))) ∧
    (∀ v, s.lit o' .CSS_CALL_ANS → isFw o' = true → v.testBit 63 = true →
      let found := s.css.calls.find? (fun c => c.slot == some (bits v 7 0) && c.tag == bits v 31 16)
      let result := bits v 47 32
      (found = none → exec (.callAnswer o' v) s = .next (settle (s.set .CSS_CALL_STAT_RESULT 1))) ∧
      (∀ c, found = some c → (c.dev = false ∨ bits v 61 48 = 0) → bits v 61 48 ≤ c.len →
        let len := bits v 61 48
        let taken := s.set .CSS_CALL_STAT_RESULT 0
        let told := if len = 0 then taken else match devRead (taken.slotAddr (bits v 7 0)) len taken with
          | (.ok d, v) => tellHost c.sch c.arg true d v
          | (_, v) => v
        let freed := dropCall c told
        let w := if (freed.subAt c.sch).st = .waitCore then enterSt c.sch .active freed else freed
        exec (.callAnswer o' v) s = .next (settle (if 0x8000 ≤ result
          then endProg c.sch stFail result 0 c.addr (setConds c.sch [(4, false)] w)
          else finishOrder c.sch (setConds c.sch [(4, decide (result ≠ 0))] w)))) ∧
      (∀ c, found = some c → c.len < bits v 61 48 →
        exec (.callAnswer o' v) s = .next (settle (s.set .CSS_CALL_STAT_RESULT 2))) ∧
      (∀ c, found = some c → c.dev = true → 0 < bits v 61 48 → bits v 61 48 ≤ c.len →
        exec (.callAnswer o' v) s = .next (settle (s.set .CSS_CALL_STAT_RESULT 3)))) ∧
    (∀ c, s.css.calls.find? (fun c => c.sch == k) = some c → c.slot.isSome = true → c.timeoutMs ≠ 0 →
      exec (.callCoreTimeout k) s = .next (settle (endProg k stFail 0x0210 0 c.addr
        (dropCall c (timeTo (c.since + c.timeoutMs * 1000000) s))))) ∧
    (s.lit o' .COH_CTL → s.coreUp = true →
      let v := redeliverCalls (cohReadyBit s)
      exec (.cohReady o') s = .next (settle
        (if v.mode = Mode.fiddlehead ∧ v.passed 4 ∧ !v.passed 6 then stepDone 6 v else v)))

/-- INGEST queues its segments as source pieces and takes a CHUNK stream place (R63, R79); COMMIT cuts the open chunk, closes the
part-filled stripe and starts its phases (R84, R85), or ends with FAIL 0x020A when its domain was destroyed (R159); its
descriptor-log step writes the object's entries, its map and its digests while they fit, else FULL reads 1 (R212, R214); EMIT
and VERIFY start their restore (R87, R88), a join going on where its restore stood (R69). Without a SPREAD an INGEST is REJ
0x0015; a list that host memory does not give ends INGEST or EMIT with HOSTF (R48). -/
def Obligations.DataOrdersStartTheirTransfers : Prop :=
  ∀ (k : Nat) (p : Prog) (f : Fetched) (t : List Fetched) (s u : State) (list : HostRead),
    let o := parseOrd f.raw
    let r := beginRun p f .stage
    let ri := beginRun p f .ingest
    let begun := fun place => beginState k p f t place u
    let listed := fun v => if o.list then readBlock o.dev o.addr (16 * (o.pb % 65536)) list v else (Block.ok [], v)
    (OrderReady k opIngest p f t s u → p.stages.spread = none →
      exec (.ordIngest k list) s = .next (settle (endProg k stRej 0x0015 ri.x.residual f.addr (begun .ingest)))) ∧
    (OrderReady k opIngest p f t s u → ∀ x, p.stages.spread = some x → (begun .ingest).shapeTooBig x.k x.m x.shift = true →
      exec (.ordIngest k list) s = .next (settle (endProg k stFail 0x0201 ri.x.residual f.addr (begun .ingest)))) ∧
    (OrderReady k opIngest p f t s u → ∀ x d v, p.stages.spread = some x →
      (begun .ingest).shapeTooBig x.k x.m x.shift = false → listed (begun .ingest) = (.ok d, v) →
      let q := beginProg p f t .ingest
      let dom := (v.domFor (v.subAt k).fn p.stages.probeDom).getD p.stages.probeDom
      let ps := makePieces o.dev ri.x.sel { p.stages with probeDom := dom } o.count q.endOff (v.segsOf k o d)
      let start := some q.endOff
      let queued := modProg k (fun q => { q with todo := q.todo ++ ps, pieces := q.pieces ++ ps.filter (fun q => !q.bad),
                                                 ingestFrom := if q.join.isSome then q.ingestFrom else start }) v
      let w := if x.k = 16 ∧ x.m = 4 ∧ p.stages.chunkLog = 18 then queued else epbFlag .ENG_EPB_FLAGS_NONDEFAULT queued
      exec (.ordIngest k list) s = .next (settle (ingestStep k (takeLane k w)))) ∧
    (OrderReady k opCommit p f t s u →
      let run := { r with place := .commit .drain (o.pb % 256) o.addr o.count o.pa o.dev }
      let v := modProg k (fun q => { q with run := some run }) (begun .stage)
      let all := match p.stages.spread with
        | some x => x.k + x.m
        | none => 0
      let w := if o.pb % 256 = 0 ∨ o.pb % 256 = all then v else epbFlag .ENG_EPB_FLAGS_NONDEFAULT v
      exec (.ordCommit k) s = .next (settle (if p.deadDoms = [] then commitStep k (forceCut k true w)
        else endProg k stFail 0x020A 0 f.addr w))) ∧
    (∀ q rn quorum map count obj dev, s.progAt k = some q → s.over k q = false → q.run = some rn →
      rn.place = .commit .dlog quorum map count obj dev →
      let es := (s.stripesOf q).flatMap Stripe.entries
      exec (.commitDlogWrite k) s = .next (settle (if s.dlogUsed + es.length + 4096 < 2097152 then
          commitStep k (setCommit k .custody (writeMap k q map dev
            (es.foldl (fun s d => dlogPut d q.token q.obj false s) s)))
        else s))) ∧
    (o.list = true → o.dev = false → list = .failed →
      (OrderReady k opIngest p f t s u → ∀ x, p.stages.spread = some x →
        (begun .ingest).shapeTooBig x.k x.m x.shift = false →
        exec (.ordIngest k list) s = .next (settle (endProg k stHostf 0x0300 ri.x.residual f.addr (begun .ingest)))) ∧
      (OrderReady k opEmit p f t s u → ∀ bad,
        exec (.ordEmit k list bad) s = .next (settle (endProg k stHostf 0x0300 r.x.residual f.addr (begun .stage))))) ∧
    (OrderReady k opEmit p f t s u → ∀ bad d v, listed (begun .stage) = (.ok d, v) →
      let entries := p.stages.gather.getD []
      let fresh : Restore := { verify := false, todo := entries, from_ := o.pa, upTo := mapLength entries }
      let before := match p.join with
        | some (_, { place := .restore rs, .. }) => rs
        | _ => fresh
      let rs := { before with digBad := before.digBad || bad }
      let x := { r.x with segs := limitSegs o.count (v.segsOf k o d) }
      let run := { r with x := x, place := .restore rs }
      exec (.ordEmit k list bad) s = .next (settle (if v.shapeTooBig 0 0 0 then endProg k stFail 0x0201 r.x.residual f.addr v
        else restoreStep k (modProg k (fun q => { q with run := some run }) v)))) ∧
    (OrderReady k opVerify p f t s u →
      let todo := p.stages.gather.getD []
      let rs : Restore := { verify := true, repair := o.pa.testBit 0, todo := todo, from_ := 0, upTo := 0 }
      let run := { r with place := .restore rs }
      exec (.ordVerify k) s = .next (settle (if (begun .stage).shapeTooBig 0 0 0 ∧ todo ≠ []
        then endProg k stFail 0x0203 0 f.addr (begun .stage)
        else restoreStep k (modProg k (fun q => { q with run := some run }) (begun .stage)))))

/-- MEDIA judges its fields, its command block and its list together, the lowest reason first (R48, R100): SINK without data-in
is 0x0005 (R57), a bad block 0x001B (R89); one that could not be read fails only where nothing is refused. It goes on with its
segments, in a join with those before (R89, R603); a last segment waits while the device takes no command (R242). ZONE with
action 5 binds the zone and ends with conditions 0 and 5 clear; the other actions send their ZBC command, action 3 ending the
program's binding of the zone (R90, R253). -/
def Obligations.MediaOrdersReachTheirDevice : Prop :=
  ∀ (k : Nat) (p : Prog) (f : Fetched) (t : List Fetched) (s u : State) (block list dataOut : HostRead),
    let o := parseOrd f.raw
    let r := beginRun p f .stage
    let q := beginProg p f t .stage
    let begun := beginState k p f t .stage u
    let n := 16 * (o.pb % 65536)
    let fn := (begun.subAt k).fn
    let first := p.join.isNone
    let hasBlock := first && (!o.dev || begun.inFnWindow fn o.pa 128)
    (OrderReady k opMedia p f t s u → ∀ b v l w,
      (if hasBlock then readBlock o.dev o.pa 128 block begun else (Block.ok [], begun)) = (b, v) →
      let hasList := o.listReadable fn v
      let asked := if hasList ∧ first ∧ !o.dev ∧ !isExec k then askHost k 2 o.addr n v else v
      (if hasList then readBlock o.dev o.addr n list asked else (Block.ok [], asked)) = (l, w) →
      let segs := match l with
        | .ok d => if o.list && !hasList then [] else w.segsOf k o d
        | _ => []
      let ofBlock := match b with
        | .ok d => if hasBlock then blockReasons o (w.devType o.device) fn d else []
        | _ => []
      let reasons := orderReasons k q o (p.join.map (·.1)) w ++ ofBlock ++ (badList segs).toList
      exec (.ordMedia k block list dataOut) s = .next (settle
        (match reasons.min?, b, l with
         | some n, _, _ => endProg k stRej n r.x.residual f.addr w
         | none, .ok bytes, .ok _ =>
           let fresh : MediaRun := { dev := o.device, block := some (o.pa, o.dev), bytes := bytes, dir := fieldAt bytes 33 1 }
           let m := p.mediaJoin.getD fresh
           if o.join = false ∧ w.devFull m.dev = true then s else mediaSegment k q r o m segs dataOut w
         | none, .ok _, l => blockEnd k l r.x.residual f.addr w
         | none, b, _ => blockEnd k b r.x.residual f.addr w))) ∧
    (∀ type e b, blockReasons e type fn b =
      (if e.sink = true ∧ fieldAt b 33 1 ≠ 1 then [0x0005] else []) ++ (if badBlock type fn b then [0x001B] else [])) ∧
    (OrderReady k opZone p f t s u →
      let action := bits o.pb 19 16
      let segs := if o.count = 0 then [] else [{ addr := o.addr, len := o.count, dev := o.dev, sink := false : MediaSeg }]
      let m : MediaRun := { dev := o.device, dir := if action = 4 then 1 else 0, segs := segs }
      let placed := { r with place := .media m }
      let sent := fun (cdb : List Byte) (v : State) =>
        issueOrder k q placed m (decide (action ≠ 4)) (v.cmdTmo o.device) 0 cdb v
      let unbound := modDev o.device (fun v =>
        { v with binds := v.binds.filter (fun z => z.sch != k || z.start != o.pa) }) begun
      (action = 5 → exec (.ordZone k) s = .next (settle (finishOrder k (setConds k [(0, false), (5, false)]
        (bindZone k p.token o.device o.pa begun))))) ∧
      (action ≠ 5 → begun.devFull o.device = true → exec (.ordZone k) s = .next (settle s)) ∧
      (begun.devFull o.device = false →
        (action = 0 → exec (.ordZone k) s = .next (settle (sent (cdb16 0x94 3 o.pa 0) begun))) ∧
        (action = 1 → exec (.ordZone k) s = .next (settle (sent (cdb16 0x94 1 o.pa 0) begun))) ∧
        (action = 2 → exec (.ordZone k) s = .next (settle (sent (cdb16 0x94 2 o.pa 0) begun))) ∧
        (action = 3 → exec (.ordZone k) s = .next (settle (sent (cdb16 0x94 4 o.pa 0) unbound))) ∧
        (action = 4 → exec (.ordZone k) s = .next (settle (sent (cdb16 0x95 0 o.pa o.count) begun)))))

/-- A doorbell write of 16 bytes queues a control word, any other is counted lost (R108). A valid control word on an own subchannel is taken
off its FIFO and acts as the subchannel's state says: an accepted START asks for the START record of a fresh token (R17, R110), refused
ones answer with their condition and reason (R102, R112, R113); HALT and CLEAR ask for their HALTREQ record (R117), RESUME wakes a
WAIT of kind 2, at the node that runs a remote program (R92), TEST answers with the state (R112); every answer is a reply word for the
subchannel's queue, a remote program's with its node (R109, R121). An invalid word, or one for a subchannel the function does
not own, is answered with condition 3 (R114), a word that names no control with address 0 (R109). -/
def Obligations.ControlsActOnTheirSubchannel : Prop :=
  ∀ (fn off : Nat) (data : List Byte) (s : State),
    (s.mode ≠ Mode.off → fn ≤ 64 → (0 < fn → s.hst.vfEnable = true ∧ s.hst.vfMse = true ∧ (s.fnOf fn).created = true) →
      s.pdOn 30 = true →
      let q := kvGet s.css.ctl fn []
      let lost := off % 16 ≠ 0 ∨ data.length ≠ 16 ∨ 4096 ≤ off ∨ 64 ≤ q.length ∨ kvGet s.css.resets fn false = true
      (lost → exec (.doorbellWrite fn off data) s = .next (settle ((dropLatch s).bump .CSS_CTL_LOST_COUNT))) ∧
      (¬ lost → exec (.doorbellWrite fn off data) s = .next (settle
        ((dropLatch s).withCss (fun c => { c with ctl := kvSet c.ctl fn (q ++ [data]) }))))) ∧
    (∀ w t, kvGet s.css.ctl fn [] = w :: t → s.ctlRuns fn = true →
      let c := parseCtl w
      let v := popCtl fn s
      (∀ k b, c.valid = true → s.findSub fn c.sch = some (k, b) →
        let told := fun cond reason => settle (answer c k b cond reason v)
        let refuses := fun cond reason => settle (refuseStart c k b cond reason v)
        (c.ctl = 1 →
          (b.st = .idle → c.addr % 32 ≠ 0 → exec (.ctlStart fn) s = .next (refuses 3 0x0004)) ∧
          (b.st = .idle → c.addr % 32 = 0 → b.remote = true → v.present b.node = false →
            exec (.ctlStart fn) s = .next (refuses 3 0x0020)) ∧
          (b.st = .idle → c.addr % 32 = 0 → (b.remote = false ∨ v.present b.node = true) →
            ((v.mode ≠ Mode.frond ∨ v.get .MOD_STATE_PENDING = Mode.dormant) →
              exec (.ctlStart fn) s = .next (refuses 3 0x0504)) ∧
            (v.mode = Mode.frond → v.get .MOD_STATE_PENDING ≠ Mode.dormant →
              (v.jnlFree < startReserve → exec (.ctlStart fn) s = .next (refuses 2 0x0503)) ∧
              (startReserve ≤ v.jnlFree → exec (.ctlStart fn) s = .next (settle (acceptStart c k b v))))) ∧
          (b.st = .statusPending → exec (.ctlStart fn) s = .next (refuses 1 0)) ∧
          (b.st = .active ∨ b.st = .waiting ∨ b.st = .startPending → exec (.ctlStart fn) s = .next (refuses 2 0)) ∧
          (b.st = .resetting → exec (.ctlStart fn) s = .next (refuses 3 0x0509))) ∧
        (∀ kind i, (kind, i) ∈ [(1, Instr.ctlHalt fn), (2, .ctlClear fn)] → c.ctl = kind + 1 →
          (b.st = .idle → exec i s = .next (told 0 0)) ∧ (b.st = .resetting → exec i s = .next (told 3 0x0509)) ∧
          (b.st = .statusPending → exec i s = .next (told 1 0)) ∧ (b.st = .clearPending → exec i s = .next (told 2 0)) ∧
          (b.st = .active ∨ b.st = .waiting ∨ b.st = .startPending ∨ b.st = .waitCore ∨ b.st = .redrive →
            exec i s = .next (settle (askHalt kind c k b v)))) ∧
        (c.ctl = 4 →
          (∀ r dl, b.st = .waiting → b.remote = false → (v.subAt k).st = .waiting → (v.progAt k).bind (·.run) = some r → r.place = .wait 2 dl →
            exec (.ctlResume fn) s = .next (settle (answer c k b 0 0 (endWait k false v)))) ∧
          (∀ q, b.st = .waiting → b.remote = true → b.prog = some q →
            exec (.ctlResume fn) s = .next (settle (answer c k b 0 (if q.farWait = some 2 then 0 else 0x0505)
              (modProg k (fun q => { q with farWait := none }) (sendControl k 4 c.tag v))))) ∧
          (b.st = .idle → b.remote = false → exec (.ctlResume fn) s = .next (told 0 0x0505))) ∧
        (c.ctl = 5 →
          (b.st = .idle → exec (.ctlTest fn) s = .next (told 0 1)) ∧ (b.st = .statusPending → exec (.ctlTest fn) s = .next (told 1 8)) ∧
          (b.st = .active → exec (.ctlTest fn) s = .next (told 2 3)) ∧ (b.st = .waiting → exec (.ctlTest fn) s = .next (told 2 4)) ∧
          (b.st = .resetting → exec (.ctlTest fn) s = .next (told 3 0x0509)))) ∧
      (s.fnResetting fn = false → s.findSub fn c.sch = none →
        let at_ := if c.ctl = 1 then c.addr else 0
        exec (.controlWordInvalid fn) s = .next (settle (reply fn 0 0
          (replyWord v.node c 3 (if c.valid then 0x0508 else 0x050A) (tokenOf 0 (v.gen fn)) at_) v))) ∧
      (∀ k b, s.fnResetting fn = false → c.valid = false → c.ctl ≠ 1 → s.findSub fn c.sch = some (k, b) →
        let at_ := if c.ctl = 0 ∨ 5 < c.ctl then 0 else (v.replyOf b).2.2
        exec (.controlWordInvalid fn) s = .next (settle (reply fn b.cq k
          (replyWord (v.replyOf b).1 c 3 0x050A (v.replyOf b).2.1 at_) v)))) ∧
    (∀ c k b v cond reason p, b.prog = some p → answer c k b cond reason v = queuePost b.fn b.cq
      { w := { sch := c.sch, flags := 8, cond := cond, token := p.token, bits := 0, residual := c.tag, addr := p.start, reason := reason,
               node := if b.remote then b.node else v.node }, sch := k, kind := .reply } v) ∧
    (∀ c k b (v : State), let token := (b.seq + 1) * 65536 + v.gen b.fn % 65536
      let p : Prog := { token := token, start := c.addr, tag := c.tag, next := c.addr, fetchAt := none }
      let u := modSub k (fun b => { b with seq := b.seq + 1, prog := some p, st := .startPending }) v
      acceptStart c k b v = jnlAsk (u.jrec k token (.start c.addr c.tag b.cq b.remote u.node))
        [.post b.fn b.cq (replyWord (if b.remote then b.node else u.node) c 0 0 token c.addr) k 0, .started k] u)

/-- A program with its START durable takes a place on the least loaded engine (R120, R503) and asks for its first order;
ORDER_FETCH brings its next one, past which nothing is fetched where it is a JUMP, BRANCH, END or the last (R52), and a failed read
stands for an order that ends it (R48); CLEAR_DRAINED ends a cleared program (R116); STREAM_PLACE_GRANT gives the oldest waiting
program a free CHUNK place (R156); STRIPE_BUFFER_GRANT serves the oldest request within its program's eighth of the pool, which
waits for its room (R44); STATUS_WORD_POST writes the head word, then the tail, while the queue has room (R122, R498): a final word
makes the subchannel IDLE, and a NOTE or MARK word lets the program go on that stood at it (R124); CQ_COALESCE_TIMEOUT raises the queue's vector (R500); CONTEXT_AGE_TICK and CONTEXT_FILL age and fill the context cache (R125, R126). -/
def Obligations.ProgramsAreServed : Prop :=
  ∀ (k fn cq : Nat) (s : State),
    (∀ p, s.progAt k = some p →
      (let held := (s.onEngines.filter (fun q => !isExec q.1 && q.2.fn == (s.subAt k).fn)).length
        let cap := s.getB .VFM_CFG_MAX_ACTIVE (s.subAt k).fn
        (s.subAt k).st = .startPending → p.journaled = true → (isExec k = true ∨ cap = 0 ∨ held < cap) →
        p.ending = none →
        ∀ e, e < 8 → s.engineLoad e < 64 → (∀ f, f < 8 → s.engineLoad e ≤ s.engineLoad f) → (∀ f, f < e → s.engineLoad e < s.engineLoad f) →
        exec (.engineSlotGrant k) s = .next (settle (askHost k 1 p.next 32 (countEngines (enterSt k .active
          (modProg k (fun p => { p with engine := some e, fetchAt := some p.next }) s)))))) ∧
      (∀ a, p.fetchAt = some a → (s.live k).isSome = true → p.fetched.length < 8 →
        let taken := fun f next => modProg k (fun p => { p with fetched := p.fetched ++ [f], fetchAt := next }) s
        let seen := fun v => if p.fetched = [] ∧ p.run = none then checkFront k v else v
        (∀ d, let f : Fetched := { addr := a, raw := padTo 32 d }
          exec (.orderFetch k (.ok d)) s = .next (settle (seen (fetchMore k
            (taken f (if (parseOrd f.raw).stopsFetch then none else some (a + 32))))))) ∧
        exec (.orderFetch k .failed) s = .next (settle (seen (fetchMore k
          (taken { addr := a, raw := zeros 32, failed := true } none))))) ∧
      ((s.subAt k).st = .clearPending → p.ending = none → (s.subAt k).remote = false → s.objectWritten k = false → s.draining k p = false →
        exec (.clearDrained k) s = .next (settle (endProg k stStop 0x0502 (p.halt.getD 0) p.next s)))) ∧
    (∀ t l, s.css.laneWait = k :: t → s.freeLane = some l → exec .streamPlaceGrant s = .next (settle
      (ingestStep k (modProg k (fun p => { p with lane := some l }) (s.withCss (fun c => { c with laneWait := t })))))) ∧
    (∀ n first p, s.css.bufWait.find? (fun w => s.inShare w) = some (k, n, false) → s.poolFit n = some first →
      s.progAt k = some p →
      let taken := s.withCss (fun c =>
        { c with bufWait := c.bufWait.erase (k, n, false), bufs := c.bufs ++ [(first, n, ownerOf k p)] })
      exec .stripeBufferGrant s = .next (settle
        (openStripe k first n (taken.set .ENG_POOL_CTL_FREE (taken.get .ENG_POOL_CTL_FREE - n))))) ∧
    (∀ p t, kvGet s.css.posts (cqKey fn cq) [] = p :: t → s.cqRoom (cqKey fn cq) = true → s.inD3 fn = false →
      let left := s.withCss (fun c =>
        { c with posts := if t.isEmpty then kvDel c.posts (cqKey fn cq) else kvSet c.posts (cqKey fn cq) t })
      let posted := writeWord fn cq p left
      (p.kind = .reply → exec (.statusWordPost fn cq) s = .next (settle posted)) ∧
      (p.kind = .note → (posted.subAt p.sch).remote = false →
        exec (.statusWordPost fn cq) s = .next (settle (noteposted p.sch p.w.token posted))) ∧
      (p.kind = .final → (posted.progAt p.sch).map (·.token) = some p.w.token →
        exec (.statusWordPost fn cq) s = .next (settle (finishProg p.sch posted)))) ∧
    (∀ p r, s.progAt k = some p → p.run = some r → s.over k p = false →
      (r.place = .word → noteposted k p.token s = nextOrder k s) ∧
      (∀ a, r.place = .wordTo a → noteposted k p.token s = jumpTo k a r s)) ∧
    (∀ n t, kvGet? s.css.coal (cqKey fn cq) = some (n, t) →
      let v := timeTo (t + 1000 * s.getB .FN_CQ_CFG_COAL_US (cqKey fn cq)) s
      exec (.cqCoalesceTimeout fn cq) s = .next (settle (raiseVec fn (v.getB .FN_CQ_CFG_VECTOR (cqKey fn cq))
        (v.withCss (fun c => { c with coal := kvDel c.coal (cqKey fn cq) }))))) ∧
    exec .contextAgeTick s = .next (settle (s.withCss (fun c => { c with ctx := c.ctx.map (fun e =>
      if e.ref then { e with ref := false } else { e with age := min 3 (e.age + 1) }) }))) ∧
    (∀ p, s.progAt k = some p →
      exec (.contextFill k) s = .next (settle (s.withCss (fun c => { c with ctx := c.ctx.map (fun e =>
        if e.sch = k ∧ e.filling then { e with filling := false, ref := !p.streaming, age := if p.streaming then 3 else 0 } else e) }))))

/-- A register write acts by access code (R8), shown on the grant registers, VFM_SEL, HST_STATUS and HST_DARK: an RW field takes the
value, a W1C field clears the ones written, an RO field stands, an RWL field is entered in the log before it takes effect or refused
(R10), an unused offset ignores it (R12), a dark block answers a host with the dark access and a core with the domain-off error
(R14). A read of a low half, shown on TIM_NOW, latches the high one and any other access discards it (R11). FN_CQ_CFG and
FN_CQ_HEAD follow R498 and R499. SCH_ASSIGN gives a range of pool subchannels the lowest free numbers of their function, SCH_RELEASE
returns idle ones (R104, R105, R106). HOST_READ_ISSUE asks for the next source bytes when the lane's FIFO has room (R41), its
completion brings them in or ends the program with HOSTF (R48). The ENG_EPB_ commands open, close and calibrate the energy window
(R36); that energy and time read 0 until STOP is the model's choice (log entry 58). -/
def Obligations.RegisterWritesFollowTheirAccess : Prop :=
  ∀ (p c world level v k fn cq : Nat) (o : Origin) (s : State), s.mode ≠ Mode.off →
    let w := dropLatch s
    (s.pdOn 18 = true → ∀ (a : Nat) (f : Fld), (a, f) ∈ [(regBase .COH_IOGRANT_S, Fld.COH_IOGRANT_S_BLOCKS),
        (regBase .COH_IOGRANT_U, .COH_IOGRANT_U_BLOCKS)] →
      let core := Origin.fw p c world level
      (w.logTakes core = true → exec (.registerWrite core a 8 v) s = .next (settle
        ((logBy core 1 a (w.get f) (v % 2 ^ 64) w).set f v))) ∧
      (w.logTakes core = false → exec (.registerWrite core a 8 v) s = .next (settle (logRefuse w)))) ∧
    (s.pdOn 33 = true →
      exec (.registerWrite .pf (regBase .VFM_SEL) 4 v) s = .next (settle (w.set .VFM_SEL_FUNCTION v)) ∧
      exec (.registerWrite .pf (regBase .HST_STATUS) 4 v) s = .next (settle
        (w.set .HST_STATUS_DARK (andNot (w.get .HST_STATUS_DARK) (v % 2)))) ∧
      exec (.registerWrite .pf (regBase .HST_DARK) 4 v) s = .next (settle w) ∧
      (s.hst.latch = none → exec (.lowHalfRead .pf (regBase .VFM_SEL)) s = .next (settle ((usedFree s).emit
        (.completion (some (s.get .VFM_SEL_FUNCTION % 128))))))) ∧
    (∀ c ∈ [Instr.fltAck .pf v, .fltCaptureRearm .pf, .modDormant .pf, .vfCreate .pf, .discRun .pf], exec c s = exec c w) ∧
    (s.pdOn 33 = false → exec (.registerWrite .pf (regBase .VFM_SEL) 4 v) s = .next (settle (darkAccess w)) ∧
      exec (.registerWrite (.fw p c world level) (regBase .VFM_SEL) 4 v) s = .next (settle
        (w.emit (.domainOff (originCode (.fw p c world level)))))) ∧
    exec (.registerWrite .pf 0x60000 4 v) s = .next (settle w) ∧
    (s.hst.latch = none → exec (.lowHalfRead .pf (regBase .TIM_NOW)) s = .next (settle
      ((usedFree { s with hst := { s.hst with latch := some (originCode .pf, regBase .TIM_NOW, s.now % 2 ^ 64 / 2 ^ 32) } }).emit
        (.completion (some (s.now % 2 ^ 32)))))) ∧
    (∀ hi, s.hst.latch = some (originCode .pf, regBase .TIM_NOW, hi) →
      exec (.lowHalfRead .pf (regBase .TIM_NOW + 4)) s = .next (settle (w.emit (.completion (some hi))))) ∧
    (fn ≤ 64 → (0 < fn → s.hst.vfEnable = true ∧ s.hst.vfMse = true) → (s.fnOf fn).created = true → s.pdOn 30 = true →
      cq < s.ncqOf fn →
      let q := cqKey fn cq
      (v ≠ s.getB .FN_CQ_BASE_BASE q → ∀ x, v = bits x 63 12 → exec (.fnCqCfgWrite fn cq true x) s = .next (settle
        (if w.cqOpen q then w.setB .FN_CQ_BASE_BASE q v else w.setB .FN_CQ_CFG_CFGERR q 1))) ∧
      exec (.fnCqCfgWrite fn cq false v) s = .next (settle (cqConfig q v w)) ∧
      (let size := s.cqSize q
       let h := s.getB .FN_CQ_HEAD_HEAD q
       let t := s.getB .FN_CQ_HEAD_TAIL q
       let l := kvGet s.css.sent q []
       v < 65536 → h < size → t < size →
        let d := (v + size - h) % size
        ((size ≤ v ∨ (t + size - h) % size < d) →
          exec (.fnCqHeadWrite fn cq v) s = .next (settle (w.setB .FN_CQ_CFG_HEADERR q 1))) ∧
        (v < size → d ≤ (t + size - h) % size → d ≠ 0 → exec (.fnCqHeadWrite fn cq v) s = .next (settle
          ((w.setB .FN_CQ_HEAD_HEAD q v).withCss (fun c =>
            { c with sent := kvSet c.sent q (l.drop d)
                     retire := kvSet c.retire q (kvGet c.retire q [] ++ (l.take d).filterMap id) })))))) ∧
    (s.lit o .CSS_SCH_CMD → s.logTakes o = true → s.on .CSS_SCH_CMD_BUSY = false →
      let f := s.get .CSS_SCH_ASSIGN_FUNCTION
      let passed := fun op => (logBy o 1 (regBase .CSS_SCH_CMD) 0 op s).set .CSS_SCH_CMD_RESULT 0
      (∀ first n rel, s.get .CSS_SCH_ASSIGN_FIRST = first → s.get .CSS_SCH_ASSIGN_COUNT = n → 0 < n → first + n ≤ 4096 →
        s.fnLives f = true →
        (s.on .CSS_SCH_ASSIGN_REMOTE = true → s.present (s.get .CSS_SCH_ASSIGN_NODE) = true) →
        s.get .CSS_SCH_ASSIGN_CQ < s.ncqOf f → (∀ k ∈ s.schRange, kvHas s.css.subs k = false) → s.freeRun f n = some rel →
        let t := passed 1
        let remote := t.on .CSS_SCH_ASSIGN_REMOTE
        t.get .CSS_SCH_ASSIGN_FIRST = first → t.get .CSS_SCH_ASSIGN_COUNT = n → t.freeRun f n = some rel →
        exec (.schAssign o) s = .next (settle ((t.schRange.zipIdx).foldl (fun s q => s.withCss (fun c =>
          { c with subs := kvSet c.subs q.1 { fn := f, rel := rel + q.2, cq := t.get .CSS_SCH_ASSIGN_CQ, remote := remote,
                                              node := if remote then t.get .CSS_SCH_ASSIGN_NODE else 0 } })) t))) ∧
      (s.schRangeBad = false → s.fnLives f = true →
        (∀ k ∈ s.schRange, ∃ b, kvGet? s.css.subs k = some b ∧ b.fn = f ∧ b.st = .idle) →
        exec (.schRelease o) s = .next (settle (releaseSubs (passed 2).schRange (passed 2))))) ∧
    (∀ pr l q t n, s.streams k = some (pr, l) → pr.todo = q :: t → isExec k = false → n = q.len → 0 < n → q.dev = false → q.bad = false →
      s.fifoUsed l + n ≤ 262144 → s.pdOn 33 = true → s.inD3 (s.subAt k).fn = false →
      exec (.hostReadIssue k n) s = .next (settle (hostReadReq (s.subAt k).fn q.addr n
        (modProg k (fun p => { p with todo := t, reads := p.reads ++ [q] }) s)))) ∧
    (∀ pr q t, s.progAt k = some pr → pr.reads = q :: t → pr.ending = none →
      (∀ d, exec (.hostReadCompletion k (.ok d)) s = .next (settle (ingestStep k (modProg k (fun p =>
        acceptBytes q { p with reads := t, fifo := p.fifo ++ [{ src := q, data := padTo q.len d }] }) s)))) ∧
      (∀ r, pr.run = some r → exec (.hostReadCompletion k .failed) s = .next (settle
        (endProg k stHostf 0x0300 r.x.residual r.addr s)))) ∧
    (s.lit o .ENG_EPB_CTL →
      (s.on .ENG_EPB_CTL_CAL_BUSY = false → ∀ t,
        [Fld.ENG_EPB_BYTES_IN_BYTES, .ENG_EPB_BYTES_MEDIA_BYTES, .ENG_EPB_ENERGY_UJ, .ENG_EPB_TIME_NS, .ENG_EPB_FLAGS_NONDEFAULT,
          .ENG_EPB_FLAGS_HITS, .ENG_EPB_FLAGS_RETRY, .ENG_EPB_FLAGS_DEGRADED, .ENG_EPB_FLAGS_CALSTALE, .ENG_EPB_FLAGS_COMPRESSED,
          .ENG_EPB_FLAGS_RESTORE, .ENG_EPB_FLAGS_GUARD].foldl (fun s f => s.set f 0) s = t →
        let opened := (t.set .ENG_EPB_CTL_OPEN 1).withEng (fun e => { e with epbStart := t.now })
        exec (.epbStart o) s = .next (settle (epbStanding opened))) ∧
      (s.on .ENG_EPB_CTL_OPEN = true →
        let t := epbStanding s
        exec (.epbStop o v) s = .next (settle (((t.set .ENG_EPB_CTL_OPEN 0).set .ENG_EPB_ENERGY_UJ v).set .ENG_EPB_TIME_NS
          (t.now - t.eng.epbStart)))) ∧
      exec (.epbCal o) s = .next (settle (s.set .ENG_EPB_CTL_CAL_BUSY 1))) ∧
    (s.on .ENG_EPB_CTL_CAL_BUSY = true →
      let t := s.set .ENG_EPB_CTL_CAL_BUSY 0
      exec (.epbCalDone true v) s = .next (settle (t.set .ENG_EPB_CTL_CAL_VALID 0)) ∧
      (let u := (t.set .ENG_EPB_CTL_CAL_VALID 1).set .ENG_EPB_IDLE_MW v
       exec (.epbCalDone false v) s = .next (settle (u.withEng (fun e =>
        { e with epbCalAt := some t.now, epbCalTemp := t.get .PWR_TEMP_TJ_MAX }))))) ∧
    (∀ n uj, (n < 10 ^ 9 → exec (.epbLiveUpdate n uj) s = .next (settle (s.set .ENG_EPB_LIVE_PJB 0))) ∧
      (10 ^ 9 ≤ n → s.on .ENG_EPB_CTL_CAL_VALID = false →
        exec (.epbLiveUpdate n uj) s = .next (settle (s.set .ENG_EPB_LIVE_PJB 0xFFFFFFFF))))

/-- A function reset advances the generation, makes every subchannel RESETTING and empties the control FIFO (R145, R505); once its record is
durable the old programs end, the subchannels are IDLE and the asker is told (R146, R147). HOST_PORT_RESET, FLR and
VF_ENABLE_CLEAR reset their functions and their configuration (R492, R508); CONFIG_REQUEST always completes (R491); a return to D0
sends what D3hot held (R501). The VFM commands check the function first, RESULT saying what failed, and then act: CREATE with a fresh generation,
DESTROY and RESET BUSY until the reset is complete, PAUSE, UNPAUSE, SETWIN (R502, R504, R505, R508, R510). Mailboxes and dirty logging follow
R506, R507 and R514. -/
def Obligations.HostPortKeepsFunctionsApart : Prop :=
  ∀ (fn n : Nat) (b c : Bool) (o : Origin) (s : State),
    ((s.fnOf fn).created = true → exec (.functionReset fn b) s = .next (settle (beginReset fn b s))) ∧
    (kvHas s.css.resets fn = true → s.resetPending fn = false → s.hst.destroying ≠ some fn → s.hst.vfmReset ≠ some fn →
      fn ∉ s.hst.flrs → ∀ t u, (s.subsOf fn).foldl (fun s q => resetProg q.1 s) s = t →
        (t.subsOf fn).foldl (fun s q => setSt q.1 .idle s) t = u → u.hst.destroying = s.hst.destroying →
        u.hst.vfmReset = s.hst.vfmReset → u.hst.flrs = s.hst.flrs →
        exec (.functionResetComplete fn) s =
          .next (settle (u.withCss (fun c => { c with resets := kvDel c.resets fn })))) ∧
    (kvHas s.css.resets fn = false → ∀ k pr, pr.prog = none →
      let old := s.gen fn
      let asked := jnlAsk { sch := 0, token := 0, seq := 0, fn := fn, node := s.node, body := .reset old (nextGen old) } [] s
      let told := dropFinals fn (tellNodes fn (nextGen old) (advanceGen fn asked))
      told.subsOf fn = [(k, pr)] →
      let t := (setSt k .resetting told).withCss (fun c => { c with ctl := kvDel c.ctl fn })
      let u := dropPosts fn (dropHeld fn (clearMailbox fn (t.setFn fn { t.fnOf fn with paused := false })))
      beginReset fn false s = u.withCss (fun c => { c with resets := kvSet c.resets fn (kvGet c.resets fn false || false) })) ∧
    (s.mode ≠ Mode.off →
      let counted := if b then s.bump .HST_LINK_DOWNS_COUNT else s
      let reset := (0 :: counted.vfs).foldl (fun s f => beginReset f true s) counted
      let plain := (List.range 65).foldl (fun s f => resetConfig f s) reset
      exec (.hostPortReset b c) s = .next (settle (trainLink c
        (plain.withHst (fun h => { h with vfEnable := false, vfMse := false })))) ∧
      ((64 < fn ∨ (0 < fn ∧ s.hst.vfEnable = false)) → ∀ reg w, exec (.configRequest fn reg w) s =
        .next (settle (s.emit (.completion none)))) ∧
      (fn ≤ 64 → (fn = 0 ∨ s.hst.vfEnable = true) → ∀ reg v,
        exec (.configRequest fn reg (some v)) s = .next (settle ((configWrite fn reg (v % 2 ^ 32) s).emit (.completion (some 0)))) ∧
        exec (.configRequest fn 0 none) s = .next (settle
          (s.emit (.completion (some (if fn = 0 then 0x72105756 else 0x72115756))))))) ∧
    (s.fullLink = true → ∀ speed width,
      let t := (s.set .HST_LINK_UPCFG (b2n b)).set .HST_LINK_SPEED (min speed 5)
      exec (.linkUpconfigure b speed width) s = .next (settle (linkByMode
        ((t.set .HST_LINK_WIDTH (if b then min width 16 else t.get .HST_LINK_WIDTH)).set .HST_LINK_UP 1)))) ∧
    (0 < fn → fn ≤ 64 → s.hst.vfEnable = true →
      let t := resetConfig fn s
      ((t.fnOf fn).created = true → exec (.flr fn) s = .next (settle (beginReset fn true
        (t.withHst (fun h => { h with flrs := if h.flrs.contains fn then h.flrs else h.flrs ++ [fn] }))))) ∧
      ((t.fnOf fn).created = false → exec (.flr fn) s = .next (settle (raiseVec 0 (s.get .VFM_CTL_VECTOR)
        (t.setBitB .VFM_EVENT_FLR 0 (fn - 1) true))))) ∧
    (let t := s.withHst (fun h => { h with vfEnable := false, vfMse := false })
     exec .vfEnableClear s = .next (settle ((List.range 64).foldl (fun s i => resetConfig (i + 1) s)
      (s.vfs.foldl (fun s f => beginReset f true s) t)))) ∧
    (fn ≤ 64 → (fn = 0 ∨ s.hst.vfEnable = true) →
      exec (.powerStateChange fn true) s = .next (settle (s.setFn fn { s.fnOf fn with d3 := true })) ∧
      (let t := s.setFn fn { s.fnOf fn with d3 := false }
       let l := t.hst.heldWrites.filter (fun w => w.fn == fn)
       let u := t.withHst (fun h => { h with heldWrites := h.heldWrites.filter (fun w => w.fn != fn) })
       exec (.powerStateChange fn false) s = .next (settle (sendPending fn (l.foldl (fun s w => hostWrite w.fn w.addr w.bulk w.data s) u))))) ∧
    (s.lit o .VFM_CMD → s.on .VFM_CMD_BUSY = false → s.vfmSel = fn →
      let passed := fun op => (logBy o 1 (regBase .VFM_CMD) 0 op s).set .VFM_CMD_RESULT 0
      let failed := fun r : Nat => Host.Outcome.next (φ := Fault) (ρ := Refusal) (settle (s.set .VFM_CMD_RESULT r))
      let ncq := s.getB .VFM_CFG_NCQ fn
      (fn = 0 → exec (.vfCreate o) s = failed 1 ∧ exec (.vfDestroy o) s = failed 1) ∧
      (0 < fn → fn ≤ 64 → (s.fnOf fn).created = true → exec (.vfCreate o) s = failed 2) ∧
      (0 < fn → fn ≤ 64 → (s.fnOf fn).created = false → exec (.vfDestroy o) s = failed 2 ∧ exec (.vfmReset o) s = failed 2 ∧
        exec (.vfmPause o) s = failed 2 ∧ exec (.vfmUnpause o) s = failed 2 ∧ exec (.vfmSetwin o) s = failed 2 ∧
        ((ncq = 0 ∨ 8 < ncq) → exec (.vfCreate o) s = failed 3) ∧
        (1 ≤ ncq → ncq ≤ 8 → s.badWin fn = true → exec (.vfCreate o) s = failed 4)) ∧
      (s.logTakes o = true →
        (0 < fn → fn ≤ 64 → (s.fnOf fn).created = false → 1 ≤ ncq → ncq ≤ 8 → s.badWin fn = false →
          let t := passed 1
          let w := t.vfmWin fn
          let u := logBy o 6 fn (t.gen fn) (nextGen (t.gen fn)) t
          exec (.vfCreate o) s = .next (settle (advanceGen fn (u.setFn fn
            { u.fnOf fn with created := true, paused := false, ncq := ncq, winUnits := w.2, winBase := w.1 })))) ∧
        (0 < fn → fn ≤ 64 → (s.fnOf fn).created = true → s.eng.doms.any (fun q => q.2.owner == fn) = false →
          s.logFits o (2 + (s.handlesOf fn).length) = true →
          let t := passed 2
          kvHas t.css.resets fn = false →
          let u := logBy o 6 fn (t.gen fn) (nextGen (t.gen fn)) t
          exec (.vfDestroy o) s = .next (settle (beginReset fn true
            ((u.withHst (fun h => { h with destroying := some fn })).set .VFM_CMD_BUSY 1)))) ∧
        (fn ≤ 64 → (s.fnOf fn).created = true →
          exec (.vfmReset o) s = .next (settle (beginReset fn false
            (((passed 3).withHst (fun h => { h with vfmReset := some fn })).set .VFM_CMD_BUSY 1))) ∧
          exec (.vfmPause o) s = .next (settle ((passed 4).setFn fn { (passed 4).fnOf fn with paused := true })) ∧
          exec (.vfmUnpause o) s = .next (settle ((passed 5).setFn fn { (passed 5).fnOf fn with paused := false })) ∧
          (s.badWin fn = false → (∀ q ∈ s.subsOf fn, q.2.st = .idle) → exec (.vfmSetwin o) s = .next (settle
            ((passed 6).setFn fn
              { (passed 6).fnOf fn with winUnits := ((passed 6).vfmWin fn).2, winBase := ((passed 6).vfmWin fn).1 })))))) ∧
    (0 < fn → fn ≤ 64 → (s.fnOf fn).created = true → s.mode ≠ Mode.off → s.hst.vfEnable = true → s.hst.vfMse = true → s.pdOn 30 = true →
      let w := dropLatch s
      (s.onB .FN_MBX_CTL_BUSY fn = true ∨ n = 0 ∨ 256 < n ∨ s.onB .VFM_MBX_CTL_BLOCK fn = true →
        exec (.mailboxSend false fn n) s = .next (settle (w.bump .HST_MBX_REFUSED_COUNT))) ∧
      (s.onB .FN_MBX_CTL_BUSY fn = false → 1 ≤ n → n ≤ 256 → s.onB .VFM_MBX_CTL_BLOCK fn = false →
        let t := (w.setB .FN_MBX_CTL_LEN fn n).setB .FN_MBX_CTL_BUSY fn 1
        let data := bufferWith (leBytes 256 (t.getB .VFM_MBX_IN_DATA fn)) (padTo 256 (kvGet s.hst.vfOut fn [])) n
        let u := ((t.setB .VFM_MBX_IN_DATA fn (leNat data)).setB .VFM_MBX_CTL_FULL fn 1).setB .VFM_MBX_CTL_IN_LEN fn n
        exec (.mailboxSend false fn n) s = .next (settle (raiseVec 0 (u.get .VFM_CTL_VECTOR) u))) ∧
      (s.onB .FN_MBX_CTL_FULL fn = true → exec (.mailboxAck false fn) s = .next (settle
        ((w.setB .FN_MBX_CTL_FULL fn 0).setB .VFM_MBX_CTL_BUSY fn 0)))) ∧
    (0 < fn → fn ≤ 64 → (s.fnOf fn).created = true → s.lit .pf .VFM_MBX_CTL →
      (s.onB .VFM_MBX_CTL_BUSY fn = true ∨ n = 0 ∨ 256 < n →
        exec (.mailboxSend true fn n) s = .next (settle (s.bump .HST_MBX_REFUSED_COUNT))) ∧
      (s.onB .VFM_MBX_CTL_BUSY fn = false → 1 ≤ n → n ≤ 256 →
        let t := (s.setB .VFM_MBX_CTL_LEN fn n).setB .VFM_MBX_CTL_BUSY fn 1
        let data := leBytes 256 (s.getB .VFM_MBX_OUT_DATA fn)
        let u := t.withHst (fun h => { h with vfIn := kvSet h.vfIn fn (bufferWith (kvGet h.vfIn fn []) data n) })
        let v := (u.setB .FN_MBX_CTL_FULL fn 1).setB .FN_MBX_CTL_IN_LEN fn n
        exec (.mailboxSend true fn n) s = .next (settle (raiseVec fn (v.getB .FN_MBX_CTL_VECTOR fn) v))) ∧
      (s.onB .VFM_MBX_CTL_FULL fn = true → exec (.mailboxAck true fn) s = .next (settle
        ((s.setB .VFM_MBX_CTL_FULL fn 0).setB .FN_MBX_CTL_BUSY fn 0)))) ∧
    (s.lit o .VFM_DIRTY_CMD → s.vfmSel = fn →
      (s.onB .VFM_DIRTY_CMD_BUSY fn = true → exec (.dirtySync o) s = .next (settle (s.setB .VFM_DIRTY_CMD_RESULT fn 2))) ∧
      (s.onB .VFM_DIRTY_CMD_BUSY fn = false → s.onB .VFM_DIRTY_CTL_ENABLE fn = false →
        exec (.dirtySync o) s = .next (settle (s.setB .VFM_DIRTY_CMD_RESULT fn 1))) ∧
      (s.onB .VFM_DIRTY_CMD_BUSY fn = false → s.onB .VFM_DIRTY_CTL_ENABLE fn = true →
        exec (.dirtySync o) s = .next (settle
          (((s.setB .VFM_DIRTY_CTL_ACTIVE fn (1 - s.getB .VFM_DIRTY_CTL_ACTIVE fn)).setB .VFM_DIRTY_CMD_BUSY fn 1).setB
            .VFM_DIRTY_CMD_RESULT fn 0)))) ∧
    exec (.dirtySyncComplete fn) s = .next (settle (s.setB .VFM_DIRTY_CMD_BUSY fn 0))

/-- Bytes of the FIFO pass through the lane one by one, as far as the stream's turn goes (R151, R155), a chunk is cut where the hash says
or at the maximum (R152, R153). PROBE looks the oldest cut chunk up, once a locator can be had: a hit drops its bytes, a miss goes on
to PACK (R162 to R164, R168). PACK keeps its output only where it saves enough (R180) and decodes to the chunk's CRC (R154), a verify
mismatch is retried on another engine (R182). SEAL seals the next chunk with a fresh nonce (R187, R190), a lane mismatch repeats it
(R194). SPREAD puts the next chunk into the open stripe, closes one it does not fit, or asks for a buffer (R25, R198), a fault of its
units showing when the stripe closes (R201, R207). UNSEAL and UNPACK undo them, a bad tag ends the program (R195), a failed check
decodes again (R183). KEY_SLOT_LOAD loads a key or makes the handle unusable (R192). -/
def Obligations.ChunksPassDownTheWritePath : Prop :=
  ∀ (k n : Nat) (b c : Bool) (s : State),
    (∀ p l f t, s.streams k = some (p, l) → p.fifo = f :: t →
      let d := f.data.take (min n (s.turnLeft k l p))
      min n (s.turnLeft k l p) < f.data.length →
      let left := modProg k (fun p => { p with fifo := { f with data := f.data.drop (min n (s.turnLeft k l p)) } :: t }) s
      let turn := feedTurn k l d.length left
      let counted := if turn.on .ENG_EPB_CTL_OPEN then turn.bumpN .ENG_EPB_BYTES_IN_BYTES d.length else turn
      exec (.chunkInputData k n) s = .next (settle (commitStep k (feedBytes k f.src d counted)))) ∧
    (∀ p v src x, v.progAt k = some p → p.open_ ≠ [] → src.sel.testBit 5 = false →
      let h := (2 * p.hash + gear (BitVec.toNat x)) % 2 ^ 64
      let len := p.open_.length + 1
      let fed := modProg k (fun p => { p with hash := h, open_ := p.open_ ++ [x], openSrc := p.openSrc, digest := p.digest }) v
      let here := src.sel.testBit 0 = true ∧ src.stages.chunkMin ≤ len ∧ h &&& cutMask src.stages.chunkLog = 0
      (here → feedByte k src x v = cutChunk k false fed) ∧
      (¬ here → len ≠ src.stages.chunkMax → feedByte k src x v = fed) ∧
      (¬ here → len = src.stages.chunkMax → feedByte k src x v =
        cutChunk k false (if src.sel.testBit 0 then fed.bump .ENG_CHUNK_MAXCUT_COUNT else fed))) ∧
    (∀ p x ready, s.inEngines k = some p → p.chunks.find? (fun c => c.place == .cut) = some x → s.codeUp = true →
      s.get .ENG_ONLINE_PROBE ≠ 0 → locReady s = (true, ready) →
      let domAt := fun (t : State) => (t.domFor (t.subAt k).fn x.stages.probeDom).getD x.stages.probeDom
      s.probeKey (domAt s) = true →
      let dom := domAt ready
      let v := if x.stages.probeMode = 2 then ready else ready.bump .ENG_IDX_LOOKUPS_COUNT
      let on := fun (s : State) => Host.Outcome.next (φ := Fault) (ρ := Refusal) (settle (commitStep k (skipHits k (dispatch k s))))
      (kvGet? v.eng.doms dom = none ∨ p.deadDoms ≠ [] → exec (.probeLookup k) s = on (makeMiss k x.ordinal v)) ∧
      (∀ d mac, kvGet? v.eng.doms dom = some d → p.deadDoms = [] → hmacSha256 d.key x.probeText = mac →
        let fp := mac.take 24
        let m24 := (mac.getD 24 0).toNat
        let w := modChunk k x.ordinal (fun c => { c with fp := fp, mac24 := m24, dom := dom })
          (v.withEng (fun e => { e with probeOut := e.probeOut.filter (· != dom) }))
        (w.idxValid = false → exec (.probeLookup k) s = on (makeMiss k x.ordinal w)) ∧
        (w.idxValid = true → x.stages.probeMode ≠ 2 →
          (∀ loc u, indexLookup k dom fp w = (some loc, u) → exec (.probeLookup k) s = on (makeHit k x.ordinal loc u)) ∧
          (∀ u, indexLookup k dom fp w = (none, u) →
            let missed := makeMiss k x.ordinal u
            let loc := (((missed.progAt k).bind (fun p => p.chunks[x.ordinal]?)).map (·.loc)).getD 0
            exec (.probeLookup k) s = on (if x.stages.probeMode = 1 then missed
              else pendInsert k p x dom loc fp m24 missed))))) ∧
    (∀ dom fp v b u, readBucket (State.bucketAddr v fp) v = (b, u) →
      (∀ loc, bucketHit b fp u = some loc → indexLookup k dom fp v = (some loc, u)) ∧
      (bucketHit b fp u = none → indexLookup k dom fp v = (pendHit k dom fp u, u))) ∧
    (∀ p x e i, s.progAt k = some p → p.chunks[i]? = some x → x.place = .packing e → s.packUp e = true → s.inEngines k = some p →
      let out := packStream x.stages.packFmt x.stages.packLevel x.stages.packWin x.data
      let keep := out.length ≤ x.len - x.len * s.get .ENG_PACK_CTL_MIN_SAVE / 256
      let agrees := (unpackStream x.stages.packFmt out).any (fun d => crc32c d == x.crc)
      let on := fun (s : State) => Host.Outcome.next (φ := Fault) (ρ := Refusal) (settle (commitStep k (dispatch k s)))
      (¬ keep → exec (.packChunkDone k i e b) s = on (storeRaw k i s)) ∧
      (keep → agrees = true → exec (.packChunkDone k i e false) s = on (modChunk k i (fun c =>
        { c with place := .packed, out := out, packed := true, raw := false, fmt := x.stages.packFmt })
        (if out.length < x.len then epbFlag .ENG_EPB_FLAGS_COMPRESSED s else s))) ∧
      (∀ o t, keep → b = true ∨ agrees = false →
        let v := epbFlag .ENG_EPB_FLAGS_RETRY (packMismatch e s)
        v.packEngines.filter (· != e) = o :: t →
        (x.tries = 0 → exec (.packChunkDone k i e b) s = .next (settle
          (modChunk k i (fun c => { c with place := .packing o, tries := 1, lastUnit := e }) v))) ∧
        (x.tries ≠ 0 → exec (.packChunkDone k i e b) s = on (storeRaw k i v)))) ∧
    (∀ p x e i, s.progAt k = some p → p.chunks[i]? = some x → x.place = .packing e → s.packUp e = true → s.inEngines k = none →
      let v := modChunk k i (fun c => { c with place := .gone, data := [] }) s
      exec (.packChunkDone k i e b) s = .next (settle
        (if (v.subAt k).st = .resetting then v.bump .CSS_GEN_DROPPED_COUNT else v))) ∧
    (∀ p x loc v inv w, s.inEngines k = some p → p.nextToSeal = some x → s.sealUp = true → n < 4 →
      s.eng.slots.contains (x.stages.sealKey.getD 0) = true → x.nonce = [] → giveLoc k x s = (some loc, v) →
      takeInvoke v = (some inv, w) →
      let h := x.stages.sealKey.getD 0
      let seq := match kvGet? w.tub.handles h with | some x => x.seq | none => 0
      let nonce := leBytes 4 (w.get .CLM_PAIR_PAIR_ID % 65536 * 65536 + seq % 65536) ++ leBytes 8 inv
      let u := touchSlot h w
      let stored := x.out.length + 16
      let out := gcmSeal (u.dataKey h) nonce (x.header20 loc stored true ++ leBytes 8 h) x.out
      exec (.sealChunk k n false) s = .next (settle (modChunk k x.ordinal (fun c =>
        { c with place := .sealed, sealed := true, nonce := nonce, out := out }) (u.bumpN .ENG_PACK_OUT_BYTES x.out.length))) ∧
      exec (.sealChunk k n true) s = .next (settle (raiseCe 33 0 0 0 0 (modChunk k x.ordinal (fun c =>
        { c with nonce := nonce, lastUnit := n }) (epbFlag .ENG_EPB_FLAGS_RETRY (u.bump .ENG_SEAL_MISMATCH_COUNT)))))) ∧
    (∀ p q x, s.inEngines k = some p → (skipHits k s).progAt k = some q → q.chunks[q.nextChunk]? = some x → x.place = .sealed →
      (skipHits k s).codeUp = true → (skipHits k s).going 29 = false →
      let v := skipHits k s
      (∀ set, q.stripe = none → x.stages.spread = some set → exec (.spreadChunk k b c) s = .next (settle
        (askBuf k (granulesOf set.k set.m set.shift) false v))) ∧
      (∀ y, q.stripe.bind (kvGet? v.css.stripes) = some y →
        let noted := v.withCss (fun g => { g with stripes := kvMod g.stripes y.id (fun z =>
          { z with synBad := z.synBad || b, digBad := z.digBad || c }) })
        (fits y (32 + x.out.length) = false → exec (.spreadChunk k b c) s = .next (settle (closeStripe k noted))) ∧
        (∀ loc u, fits y (32 + x.out.length) = true → giveLoc k x noted = (some loc, u) → x.sealed = true → x.close = false →
          let head := x.header20 loc x.out.length true ++ padTo 12 x.nonce
          let sc : StripeChunk :=
            { loc := loc, off := y.area.length, stored := x.out.length, len := x.len
              flags := x.storedFlags true, fmt := if x.packed then x.fmt else 0 }
          let put := u.withCss (fun g => { g with stripes := kvMod g.stripes y.id (fun x' =>
            { x' with area := x'.area ++ head ++ x.out, chunks := x'.chunks ++ [sc] }) })
          let gone := modChunk k x.ordinal (fun c =>
            { c with place := .gone, stripe := y.id, stored := c.out.length, data := [], out := [] }) put
          exec (.spreadChunk k b c) s = .next (settle (commitStep k (skipHits k (dispatch k
            (modProg k (fun p => { p with nextChunk := p.nextChunk + 1 }) gone)))))))) ∧
    (∀ y, (s.progAt k).bind (fun p => p.stripe.bind (kvGet? s.css.stripes)) = some y →
      (y.digBad = true → closeStripe k s = redoStripe k (raiseUe 35 1 0 0 0 0 (s.bump .ENG_DIGEST_MISMATCH_COUNT))) ∧
      (y.digBad = false → y.synBad = true → y.set.m ≠ 0 →
        closeStripe k s = redoStripe k (raiseUe 34 1 0 0 0 0 (s.bump .ENG_SPREAD_SYNFAIL_COUNT)))) ∧
    (∀ p r rs, s.inEngines k = some p → p.restore? = some (r, rs) → rs.verify = false →
      let h := p.stages.unsealKey.getD 0
      let v := touchSlot h s
      let opened := gcmOpen (v.dataKey h) (bytesAt rs.plain 20 12) (rs.plain.take 20 ++ leBytes 8 h) (rs.plain.drop 32)
      (rs.place = .decoded → s.sealUp = true → s.eng.slots.contains h = true →
        exec (.unsealChunk k true) s = .next (settle (raiseCe 33 0 0 0 0 (s.bump .ENG_SEAL_MISMATCH_COUNT))) ∧
        (opened = none → exec (.unsealChunk k false) s = .next (settle
          (endProg k stFail 0x0204 r.x.residual r.addr (v.bump .ENG_UNSEAL_TAGFAIL_COUNT)))) ∧
        (∀ d, opened = some d → exec (.unsealChunk k false) s = .next (settle (restoreStep k (modRestore k (fun rs =>
          { rs with data := d, place := if r.x.sel.testBit 2 then .opened else .done }) v))))) ∧
      (∀ x e, rs.place = .opened → s.packEngines ≠ [] → rs.chunk = some x →
        rs.todo.find? (fun e => decide (e.off ≤ rs.from_) && decide (rs.from_ < e.off + e.len)) = some e →
        let out := if x.flags.testBit 2 then unpackStream x.fmt rs.data else some rs.data
        (∀ d, out = some d → d.length = e.len → (p.stages.verify = false ∨ crc32c d = e.crc) →
          exec (.unpackChunk k) s = .next (settle (restoreStep k (modRestore k (fun rs => { rs with data := d, place := .done }) s)))) ∧
        (out = none →
          let failed := if rs.again then s else s.bump .ENG_UNPACK_FAIL_COUNT
          exec (.unpackChunk k) s = .next (settle (decodeFailed k
            (if x.flags.testBit 1 then raiseUe 32 1 0 0 0 0 failed else failed)))))) ∧
    (∀ x, kvGet? s.tub.handles n = some x → x.st = 1 → s.on .TMB_STATUS_RUNNING = true → s.on .TMB_STATUS_RESTARTING = false →
      s.sealUp = true → s.get .DBG_STATUS_GRANTED = 0 →
      (∀ q ∈ s.css.subs, (q.2.prog.bind (·.run)).map (·.place) ≠ some (.keyLoad n)) →
      ((unwrapKey (kvGet s.tub.keks x.kek []) x.blob).isSome = true → exec (.keySlotLoad n true) s = .next (settle (s.withEng (fun e =>
        { e with slots := (e.slots.filter (· != n)).drop ((e.slots.filter (· != n)).length + 1 - 256) ++ [n] })))) ∧
      exec (.keySlotLoad n false) s = .next (settle (({ s with
        tub := { s.tub with handles := kvSet s.tub.handles n { x with st := 4 } } } : State).bump .TMB_UNUSABLE_COUNT)))

/-- ENG_DOM_CMD and ENG_IDX_CMD check first, the RESULT saying what failed, are then logged and act (R159, R601): CREATE and DESTROY wait for Tuber, which draws
the key or zeroises it, SET takes the grants at once (R158); CLEAR reads CLEARING until the table is zeroed (R174), PURGE registers its range at once, its slot
stands until its DONE bit is cleared (R170 to R172), LOAD inserts a list (R175). The descriptor-log head is clamped at the mark and
ignored beyond TAIL (R215), and REPAIR entries that waited for room are written. Directory requests are posted while their ring has
room, posted again at REARM, answered FILLED or ABSENT (R217, R219); a FLUSH empties both tables (R216), and nothing of ENG_DIR_CMD
acts while it runs (R602). -/
def Obligations.TablesFollowTheirCommands : Prop :=
  ∀ (n v : Nat) (o : Origin) (s : State),
    (s.lit o .ENG_DOM_CMD → s.on .ENG_DOM_CMD_BUSY = false → ∀ d, s.domSel = d →
      let failed := fun r : Nat => Host.Outcome.next (φ := Fault) (ρ := Refusal) (settle (s.set .ENG_DOM_CMD_RESULT r))
      let passed := fun op => (logBy o 1 (regBase .ENG_DOM_CMD) 0 op s).set .ENG_DOM_CMD_RESULT 0
      let new := s.domNew d
      (d = 0 → exec (.domCreate o) s = failed 6 ∧ exec (.domDestroy o) s = failed 6 ∧ exec (.domSet o) s = failed 6) ∧
      (0 < d → kvHas s.eng.doms d = true → exec (.domCreate o) s = failed 1) ∧
      (0 < d → kvHas s.eng.doms d = false → exec (.domDestroy o) s = failed 2 ∧ exec (.domSet o) s = failed 2) ∧
      (s.logTakes o = false → 0 < d → kvHas s.eng.doms d = true →
        exec (.domDestroy o) s = .next (settle ((logRefuse s).set .ENG_DOM_CMD_RESULT 5))) ∧
      (s.logTakes o = true → 0 < d →
        (kvHas s.eng.doms d = false → (new.own = false ∨ s.ownsOther new.owner d = false) → exec (.domCreate o) s = .next (settle
          (((passed 1).withEng (fun e => { e with domCmd := some (true, d, new) })).set .ENG_DOM_CMD_BUSY 1))) ∧
        (kvHas s.eng.doms d = true → exec (.domDestroy o) s = .next (settle
          (((passed 2).withEng (fun e => { e with domCmd := some (false, d, new) })).set .ENG_DOM_CMD_BUSY 1))) ∧
        (kvHas s.eng.doms d = true → new.own = false → exec (.domSet o) s = .next (settle ((passed 3).withEng (fun e =>
          { e with doms := kvMod e.doms d (fun x => { x with own := false, pfGrant := new.pfGrant, vfGrant := new.vfGrant }) })))))) ∧
    (∀ c d new, s.eng.domCmd = some (c, d, new) →
      let t := (s.withEng (fun e => { e with domCmd := none })).set .ENG_DOM_CMD_BUSY 0
      let drawn := { t with free := t.free + 1 }
      exec (.domainCmdComplete false) s = .next (settle (t.set .ENG_DOM_CMD_RESULT 4)) ∧
      (c = true → t.get .DBG_STATUS_GRANTED ≠ 0 → exec (.domainCmdComplete true) s = .next (settle (t.set .ENG_DOM_CMD_RESULT 4))) ∧
      (c = true → t.get .DBG_STATUS_GRANTED = 0 → exec (.domainCmdComplete true) s = .next (settle ((drawn.withEng (fun e =>
        { e with doms := kvSet e.doms d { new with key := Config.randomBytes t.free 32 }
                 probeOut := e.probeOut.filter (· != d) })).setB .ENG_DOM_CTL_LIVE d 1))) ∧
      (c = false → exec (.domainCmdComplete true) s = .next (settle (endDomain d t)))) ∧
    (s.lit o .ENG_IDX_CMD → s.on .ENG_IDX_CMD_BUSY = false →
      let failed := fun r : Nat => Host.Outcome.next (φ := Fault) (ρ := Refusal) (settle (s.set .ENG_IDX_CMD_RESULT r))
      let passed := fun op => (logBy o 1 (regBase .ENG_IDX_CMD) 0 op s).set .ENG_IDX_CMD_RESULT 0
      let lo := s.get .ENG_IDX_ARG0_ARG
      let hi := s.get .ENG_IDX_ARG1_ARG
      (s.on .ENG_IDX_CTL_ENABLE = false → exec (.idxClear o) s = failed 1 ∧ exec (.idxPurge o) s = failed 1 ∧ exec (.idxLoad o) s = failed 1) ∧
      (s.on .ENG_IDX_CTL_ENABLE = true → s.logTakes o = true →
        exec (.idxClear o) s = .next (settle
          ((((passed 1).withEng (fun e => { e with idxCmd := some (0, 0) })).set .ENG_IDX_CMD_BUSY 1).set .ENG_IDX_CTL_STATE 2)) ∧
        (∀ i, kvFree s.eng.purges 16 = some i → lo ≤ hi →
          let t := (passed 2).withEng (fun e =>
            { e with purges := kvSet e.purges i { lo := lo, hi := hi, scanned := false, waits := (passed 2).engineTokens } })
          exec (.idxPurge o) s = .next (settle ((t.setBitB .ENG_IDX_PURGE_ACTIVE 0 i true).set .ENG_IDX_CMD_SLOT i))) ∧
        (lo + 40 * hi ≤ dramSize → lo % 8 = 0 → exec (.idxLoad o) s = .next (settle
          (((passed 3).withEng (fun e => { e with idxCmd := some (lo, hi) })).set .ENG_IDX_CMD_BUSY 1))))) ∧
    (s.on .ENG_IDX_CMD_BUSY = true → s.get .ENG_IDX_CTL_STATE = 2 →
      let t := clearDram (s.addrB .ENG_IDX_BASE_BASE 0) (s.get .ENG_IDX_BUCKETS_UNITS * 2 ^ 27) s
      exec .idxClearComplete s = .next (settle
        (((t.withEng (fun e => { e with idxCmd := none })).set .ENG_IDX_CMD_BUSY 0).set .ENG_IDX_CTL_STATE 1))) ∧
    (∀ a k, s.eng.idxCmd = some (a, k) → s.get .ENG_IDX_CTL_STATE ≠ 2 → exec .idxLoadComplete s = .next (settle
      (loadRecords k a ((s.withEng (fun e => { e with idxCmd := none })).set .ENG_IDX_CMD_BUSY 0)))) ∧
    (∀ q, kvGet? s.eng.purges n = some q → q.scanned = false → s.get .ENG_IDX_CTL_STATE ≠ 1 →
      exec (.purgeScanComplete n) s = .next (settle (purgeDone (s.withEng (fun e =>
        { e with purges := kvSet e.purges n { q with scanned := true } }))))) ∧
    (s.lit o .ENG_IDX_PURGE → n < 16 → (∀ i < 16, s.bitB .ENG_IDX_PURGE_DONE 0 i = (i == n)) →
      exec (.purgeSlotFree o (2 ^ n)) s = .next (settle
        (((s.withEng (fun e => { e with purges := kvDel e.purges n })).setBitB .ENG_IDX_PURGE_DONE 0 n false).setBitB
          .ENG_IDX_PURGE_ACTIVE 0 n false)) ∧
      exec (.purgeSlotFree o 0) s = .next (settle s)) ∧
    (isFw o = true → s.lit o .ENG_DLOG_CTL → s.lit o .ENG_DREQ_CTL → s.lit o .ENG_DIR_CMD →
      (let h := s.get .ENG_DLOG_CTL_HEAD
       let ahead := fun x => (x + dlogSize - h) % dlogSize
       let mark := s.get .ENG_DLOG_MARK_MARK
       let goes := fun dest : Nat =>
        let freed := (List.range (ahead dest)).map (fun i => (h + i) % dlogSize)
        let left := (s.withEng (fun e => { e with dlog := e.dlog.filter (fun q => !freed.contains q.1) })).set .ENG_DLOG_CTL_HEAD dest
        Host.Outcome.next (φ := Fault) (ρ := Refusal) (settle (pumpRepairs left.eng.repairWait left))
       v < dlogSize →
        (ahead v ≤ ahead mark → exec (.dlogHeadWrite o v) s = goes v) ∧
        (ahead mark < ahead v → ahead v ≤ ahead (s.get .ENG_DLOG_CTL_TAIL) → exec (.dlogHeadWrite o v) s = goes mark) ∧
        (ahead mark < ahead v → ahead (s.get .ENG_DLOG_CTL_TAIL) < ahead v → exec (.dlogHeadWrite o v) s = goes h)) ∧
      ((s.set .ENG_DREQ_CTL_HEAD v).dreqHeld = 0 → (s.set .ENG_DREQ_CTL_HEAD v).lookups = [] →
        exec (.dreqHeadWrite o v) s = .next (settle (s.set .ENG_DREQ_CTL_HEAD v))) ∧
      (∀ r t, s.eng.dirReqs = [r] → r.posted = true → dreqPost r.kind r.id s = (true, t) →
        exec (.dreqRearm o) s = .next (settle t)) ∧
      (s.on .ENG_DIR_CMD_BUSY = true → exec (.dirFilled o n) s = .next (settle s) ∧ exec (.dirAbsent o n) s = .next (settle s) ∧
        exec (.dirFlush o) s = .next (settle s)) ∧
      (s.on .ENG_DIR_CMD_BUSY = false →
       let id := s.get .ENG_DIR_ARG_ID
       let waits := s.eng.dirReqs.any (fun r => r.kind == n && r.id == id && r.posted)
       let without := s.withEng (fun e => { e with dirReqs := e.dirReqs.filter (fun r => !(r.kind == n && r.id == id)) })
       (waits = false → exec (.dirFilled o n) s = .next (settle (dirResult 1 s)) ∧ exec (.dirAbsent o n) s = .next (settle (dirResult 1 s))) ∧
       (∀ k r rs, waits = true → s.dirWaiters n id = [k] → ((dirResult 0 without).progAt k).bind Prog.restore? = some (r, rs) →
        exec (.dirAbsent o n) s = .next (settle (endProg k stFail 0x0203 (if rs.verify then rs.bad else r.x.residual) r.addr
          (dirResult 0 without)))) ∧
       (∀ d u, n = 2 → waits = true → s.dirSlots ≠ 0 → dirRead 2 id s = (.ok d, u) → fieldAt d 0 1 = 0x11 →
        fieldAt d 8 8 = id →
        let t := u.withEng (fun e => { e with dirReqs := e.dirReqs.filter (fun r => !(r.kind == n && r.id == id)) })
        exec (.dirFilled o n) s = .next (settle ((u.dirWaiters n id).foldl (fun s k => dirServe n id d k s) (dirResult 0 t))))) ∧
      (s.on .ENG_DIR_CMD_BUSY = false → exec (.dirFlush o) s = .next (settle ((dirResult 0 s).set .ENG_DIR_CMD_BUSY 1)))) ∧
    (∀ r t, s.eng.dirReqs.find? (fun r => !r.posted) = some r → dreqPost r.kind r.id s = (true, t) →
      exec .dirRequestPost s = .next (settle (askAgain ((t.withEng (fun e =>
        { e with dirReqs := e.dirReqs.map (fun q => if q = r then { q with posted := true } else q) })).bump .ENG_DIR_MISS_COUNT)))) ∧
    (s.on .ENG_DIR_CMD_BUSY = true → exec .dirFlushComplete s = .next (settle
      (clearDram (s.addrB .ENG_DIR_BASE_BASE 0) (s.dirSets * 512 + s.dirSlots * 4160) (s.set .ENG_DIR_CMD_BUSY 0))))

/-- EPOCH_CLOSE closes the open epoch with the root of its stripes (R220, R222), EPOCH_SIGNED signs it and writes its manifest (R223),
every region's write ends by its own status, durable at once with FUA and else by a cache command (R210, R228), and it is written again while no region is at work.
SHARD_WRITE_ISSUE sends a shard of a released stripe to its place (R241), or lets it fail past the last block (R202, R244). A media command ends by its row or by the timeout, as failed on transport
(R243, R268); a good write is durable when it was forced to the medium (R240). A lane trains at most at its rate (R232); discovery
numbers what it found (R235, R236), DEV_RELEASE frees an ABSENT or FAILED number; scrub goes on behind the medium error (R264 to R266). -/
def Obligations.CustodyAndMediaFollowTheirCompletions : Prop :=
  ∀ (d n i k : Nat) (b : Bool) (o : Origin) (data : List Byte) (st : MediaStatus) (pr : PrKind) (s : State),
    (s.eng.cusClosed = none → s.eng.cus.length < clamp 1 2097152 (s.get .ENG_CUS_STRIPES_LIMIT) →
      let t := timeTo (s.eng.cusOpened + clamp 1 3600 (s.get .ENG_CUS_CTL_EPOCH_SEC) * 1000000000) s
      (t.eng.cus = [] → exec .epochClose s = .next (settle (t.withEng (fun e => { e with cusOpened := t.now })))) ∧
      (t.eng.cus ≠ [] → ∀ root header u,
        mth (t.eng.cus.flatMap CusStripe.leaves).length (t.eng.cus.flatMap CusStripe.leaves) = root → t.manifestHeader root = header →
        (mirror pairCustody (leBytes 1 1 ++ header ++ root) t).2 = u →
        exec .epochClose s = .next (settle (closeEpoch header root u)))) ∧
    (∀ c, s.eng.cusClosed = some c → c.signed = false → s.on .TMB_STATUS_RUNNING = true → s.on .TMB_STATUS_RESTARTING = false →
      let h := s.signedHeader c.header
      let sigs := s.aliasSign 0 h ++ s.aliasSign 1 h
      exec .epochSigned s = .next (settle (writeManifest ((s.withEng (fun e =>
        { e with cusClosed := some { c with header := h, signed := true, sigs := sigs } })).set .ENG_CUS_STATUS_SIGNING 0)))) ∧
    (∀ c, s.eng.cusClosed = some c → c.signed = true →
      ((∀ r, r < 4 → s.regionBusy r = false) → exec .manifestRetry s = .next (settle (writeManifest s)))) ∧
    (∀ l, exec (.manifestWriteComplete l) s = .next (settle ([0, 1, 2, 3].foldl (fun s r =>
      ends (fun c => c.use.forRegion r) (l.getD r .transport) [] s) s))) ∧
    (∀ id (c : MediaCmd), c.flip = none →
      let v := laneEnd id c.lane (dropCmd id s)
      let done := v.withEng (fun e => { e with cusClosed := e.cusClosed.map (fun c => { c with results := kvSet c.results i true }) })
      (c.use = .manifest i → v.gateOpen = true →
        (c.fua = true → complete id c (.good b) [] s = done) ∧
        (c.fua = false → v.reachable c.dev = true → complete id c (.good b) [] s = sendOwn
          { dev := c.dev, use := .manifestSync i, mutating := false, dataIn := false, tries := 0
            cdb := if v.devType c.dev = tySata then ataCmd 0xEA 0 0 0 else cdb16 0x91 0 0 0, data := [] } v)) ∧
      (c.use = .manifestSync i → complete id c (.good b) [] s = done)) ∧
    (∀ x t, s.eng.notices = x :: t → s.inD3 0 = false →
      let size := 2 ^ (min 8 (s.get .ENG_CUS_MQ_CTL_LOG2) + 4)
      let p := s.get .ENG_CUS_MQ_CTL_TAIL
      (p + 1) % size ≠ s.get .ENG_CUS_MQ_CTL_HEAD % size →
      let u := hostWrite 0 (s.addrB .ENG_CUS_MQ_BASE_BASE 0 + p * 64) false x (s.withEng (fun e => { e with notices := t }))
      exec .manifestNoticePost s = .next (settle
        (raiseVec 0 (u.get .ENG_CUS_MQ_CTL_VECTOR) (u.set .ENG_CUS_MQ_CTL_TAIL ((p + 1) % size))))) ∧
    (∀ x, kvGet? s.css.stripes n = some x → x.closed = true → x.discarded = false → i < x.set.k + x.set.m → i ∉ x.issued → s.probing n i = false →
      (x.placeOf i).kind = 1 → s.devRoom (x.placeOf i).dev = true →
      let p := x.placeOf i
      let units := 2 ^ x.set.shift / s.blockSize p.dev
      let lba := p.start + x.cursor * units
      (x.token ∉ (s.devAt p.dev).pastEnd → lba + units ≤ s.getB .MPT_DEV_CAP_BLOCKS p.dev →
        exec (.shardWriteIssue n i none) s = .next (settle (sendShard x i lba 0 (markIssued x.id i s)))) ∧
      (s.getB .MPT_DEV_CAP_BLOCKS p.dev < lba + units → x.token ∉ (s.devAt p.dev).pastEnd →
        let v := modDev p.dev (fun v => { v with pastEnd := x.token :: (s.devAt p.dev).pastEnd }) s
        exec (.shardWriteIssue n i none) s = .next (settle (shardFailed x.id i p.dev (v.laneFor p.dev 0) 0 lba
          (mediaEvent 8 p.dev (v.laneFor p.dev 0) 0 lba (v.bump .MPT_LBA_FULL_COUNT)))))) ∧
    (∀ id c f row dat, (f, row, dat) ∈ [
        ((fun c : MediaCmd => c.use == .shardWrite n i), Instr.shardWriteComplete n i st, []),
        ((fun c => match c.use with | .shardRead j _ x y => j == k && x == n && y == i | _ => false), .shardReadComplete k n i st data, data),
        ((fun c => match c.use with | .order j _ => j == k | _ => false), .mediaOrderComplete k st data, data),
        ((fun c => c.dev == d && (match c.use with | .sync _ | .manifestSync _ => true | _ => false)), .syncCacheComplete d st, []),
        ((fun c => c.dev == d && (match c.use with | .filemark _ => true | _ => false)), .writeFilemarksComplete d st, []),
        ((fun c => c.dev == d && (match c.use with | .scrub .. => true | _ => false)), .scrubVerifyComplete d st, []),
        (fun c => c.dev == d && c.use == .reserve pr, .persistentReserveComplete d pr st data, data),
        (fun c => c.use == .probe n i, .shardWriteIssue n i (some ⟨st, data⟩), data),
        (fun c => c.dev == d && c.use == .scrubProbe, .scrubPace d (some ⟨st, data⟩), data)] →
      s.findCmd f = some (id, c) → c.hold = none → exec row s = .next (settle (complete id c st dat s))) ∧
    (∀ (c : MediaCmd), reserveDone c .register (.good b) data s =
      (let t := s.setB .MPT_DEV_INFO_PR c.dev 1
       if t.pair.taking then sendReserve c.dev .preempt 0 t else if t.holds then sendReserve c.dev .reserve 0 t else t)) ∧
    (∀ id (c : MediaCmd), ∀ v : State, c.use = .shardWrite n i → c.fua = true → ∀ x, kvGet? (laneEnd id c.lane (dropCmd id v)).css.stripes n = some x →
      (laneEnd id c.lane (dropCmd id v)).gateOpen = true → (x.placeOf i).kind = 1 →
      complete id c (.good false) [] v = shardDurable n i (laneEnd id c.lane (dropCmd id v))) ∧
    (∀ c, kvGet? s.mpt.cmds n = some c →
      let t := (timeTo (c.issuedAt + c.tmo * 1000000) s).bump .MPT_TIMEOUTS_COUNT
      let u := t.withMpt (fun m => { m with held := m.held.map (fun q => (q.1, q.2.filter (fun h => h.1 != n))) })
      exec (.mediaCommandTimeout n) s = .next (settle (complete n c .transport [] (u.emit (.abortTask n))))) ∧
    (n < 64 → (∀ q ∈ s.mpt.devs, ∀ p ∈ q.2.ports, n ∉ portLanes p) → s.onB .MPT_LANE_CTL_ENABLE n = true →
      s.pdOn (if n < 32 then 31 else 32) = true → ∀ rate sas,
      let spin := !s.onB .MPT_LANE_STATUS_UP n && s.mpt.narrow.testBit (n / 4)
      let up := ((s.setB .MPT_LANE_STATUS_UP n 1).setB .MPT_LANE_STATUS_RATE n (min (min 2 (s.getB .MPT_LANE_CTL_MAX_RATE n)) rate)).setB
          .MPT_LANE_ADDR_SAS_ADDR n sas
      exec (.laneLinkChange n true rate sas) s = .next (settle (if spin then up.emit (.notify n) else up))) ∧
    (s.on .MPT_DISC_CTL_BUSY = false →
      let begun := (s.set .MPT_DISC_CTL_BUSY 1).withMpt (fun m => { m with narrow := s.get .MPT_PORT_CFG_NARROW })
      (s.lit o .MPT_DISC_CTL → exec (.discRun o) s = .next (settle begun)) ∧
      (s.laneUp n = true → exec (.broadcastChange n) s = .next (settle begun))) ∧
    (s.on .MPT_DISC_CTL_BUSY = true → ∀ found,
      let l := found.filter (fun f => !(s.portsOf f).isEmpty)
      let t := l.foldl (fun s f => foundDevice f s) ((s.set .MPT_DISC_CTL_BUSY 0).set .MPT_DISC_CTL_OVERFLOW 0)
      (∀ x < 1024, (t.devState x = devPresent ∨ t.devState x = devFailed) → ∃ f ∈ l, f.name = t.getB .MPT_DEV_NAME_NAME x) →
      let u := (t.set .MPT_DISC_CTL_DEVICES ((List.range 1024).filter (fun d => t.devState d == devPresent)).length).set
        .MPT_DISC_CTL_EXPANDERS (min 128 n)
      exec (.discoveryComplete found n) s = .next (settle (registerKeys u))) ∧
    (s.lit o .MPT_DEV_CMD → s.get .MPT_DEV_SEL_DEVICE = d →
      ((s.devState d ≠ devAbsent ∧ s.devState d ≠ devFailed) → exec (.devRelease o) s = .next (settle (s.set .MPT_DEV_CMD_RESULT 1))) ∧
      ((s.devState d = devAbsent ∨ s.devState d = devFailed) →
        (∀ r, r < 4 → s.onB .ENG_CUS_MCFG_VALID r = true → s.getB .ENG_CUS_MCFG_DEVICE r ≠ d) →
        (s.logTakes o = false → exec (.devRelease o) s = .next (settle ((logRefuse s).set .MPT_DEV_CMD_RESULT 3))) ∧
        (s.logTakes o = true →
          let fields : List Fld := [.MPT_DEV_INFO_STATE, .MPT_DEV_INFO_TYPE, .MPT_DEV_INFO_PATHS, .MPT_DEV_INFO_DUAL,
            .MPT_DEV_INFO_LBS, .MPT_DEV_INFO_EW, .MPT_DEV_INFO_PR, .MPT_DEV_NAME_NAME, .MPT_DEV_CAP_BLOCKS]
          let t := (logBy o 1 (regBase .MPT_DEV_CMD) 0 1 s).set .MPT_DEV_CMD_RESULT 0
          exec (.devRelease o) s = .next (settle ((fields.foldl (fun s f => s.setB f d f.info.reset) t).withMpt (fun m =>
            { m with devs := kvDel m.devs d })))))) ∧
    (s.mode = Mode.frond → s.on .MPT_SCRUB_CTL_ENABLE = true → s.onB .MPT_DEV_CTL_SCRUB_EN d = true → s.devType d = tyDisk →
      s.devState d = devPresent → (s.devAt d).scrubbing = false → s.reachable d = true → s.devRoom d = true →
      let pos := (s.devAt d).scrubPos
      let top := s.getB .MPT_DEV_CAP_BLOCKS d
      (pos < top → exec (.scrubPace d none) s = .next (settle (sendScrub d pos
        (min (max 1 (2 ^ clamp 20 26 (s.get .MPT_SCRUB_CTL_SEGMENT_LOG2) / s.blockSize d)) (top - pos)) s))) ∧
      (top ≤ pos → exec (.scrubPace d none) s = .next (settle
        ((modDev d (fun v => { v with scrubPos := 0 }) s).bump .MPT_SCRUB_STATUS_ROUNDS)))) ∧
    (∀ x t, s.mpt.events = x :: t →
      let tail := s.get .MPT_EVQ_CTL_TAIL
      (tail + 1) % s.evqSize ≠ s.get .MPT_EVQ_CTL_HEAD % s.evqSize → ∀ u,
      devWrite (s.addrB .MPT_EVQ_BASE_BASE 0 + tail * 32) x (s.withMpt (fun m => { m with events := t })) = (true, u) →
      exec .mediaEventPost s = .next (settle (u.set .MPT_EVQ_CTL_TAIL ((tail + 1) % s.evqSize)))) ∧
    (∀ id c e l, kvGet s.mpt.held n [] = [(id, e, l)] → kvGet? s.mpt.cmds id = some c →
      exec (.injectReorderRelease n) s = .next (settle (complete id c e l (s.withMpt (fun m => { m with held := kvDel m.held n })))))

/-- A frame that fails its header check is malformed, one that fails its CRC a drop (R473, R474); the rest passes on with one hop more
or is taken here: one of an old session is stale (R480), one of a low claim is refused with a CLAIM-NACK (R482), a duplicate is
counted and acknowledged again, one past a gap held (R479), one in sequence delivered. ACK, CLAIM-NACK and RETX_TIMEOUT release, fail or
resend (R477, R478, R482). ANNOUNCE, LEAVE, CLAIM, REMOVE keep the node list and claims (R461, R465, R471, R481); ports
lose, wrap, unwrap, insert and bypass (R463 to R469); frames leave by credit and class order (R475), injected ones as R485 says. -/
def Obligations.RingDeliversOnceAndKeepsItsList : Prop :=
  ∀ (port src cls n seq : Nat) (b : Bool) (f : Frame) (o : Origin) (s : State),
    let next := fun t : State => Host.Outcome.next (φ := Fault) (ρ := Refusal) (settle t)
    (s.ring.bypass = false → port < 2 → s.pdOn (34 + port) = true →
      exec (.ringFrameReceive port f b false) s = next (creditBack port f (s.bumpB .RNG_MALFORMED_COUNT port 1)) ∧
      (frameBad f = false →
        exec (.ringFrameReceive port f false true) s = 
          next (creditBack port f (raiseCe (39 + port) 11 7 f.src 0 (s.bumpB .RNG_CRC_DROP_COUNT port 1))) ∧
        ∀ t, keepClaim f.src f.pairId f.claim s = t → f.src ≠ t.node → f.broadcast = false →
          (f.dst ≠ t.node → t.wrapped (1 - port) = false →
            let q := kvGet t.ring.transit (1 - port) [] ++ [({ f with hops := f.hops + 1 }, port)]
            exec (.ringFrameReceive port f true true) s =
              next (t.withRing (fun r => { r with transit := kvSet r.transit (1 - port) q }))) ∧
          (f.dst = t.node →
            let taken := fun u : State => next (takeOff port f u)
            (f.session < kvGet t.ring.sessions f.src 0 → exec (.ringFrameReceive port f true true) s = taken (t.bump .RNG_STALE_COUNT)) ∧
            (f.session = kvGet t.ring.sessions f.src 0 → f.cls ≠ clsLink →
              let high := t.getB .RNG_CLAIM_CLAIM f.pairId
              (claimLow f t = true → exec (.ringFrameReceive port f true true) s = taken (queueOwn (t.shortWay f.src)
                (t.newFrame clsLink linkClaimNack f.src (leBytes 4 high ++ leBytes 4 f.seq ++ leBytes 1 f.cls)) (t.bump .RNG_CLAIM_DROP_COUNT))) ∧
              (claimLow f t = false →
                let rx := kvGet t.ring.rx (flowKey f.cls f.src) {}
                let d := (f.seq + 2 ^ 32 - rx.cum) % 2 ^ 32
                let hold := fun (v : State) (h : KV Frame) (c : Nat) =>
                  v.withRing (fun r => { r with rx := kvSet r.rx (flowKey f.cls f.src) { cum := c, held := h } })
                ((d = 0 ∨ 64 < d ∨ kvHas rx.held f.seq = true) →
                  exec (.ringFrameReceive port f true true) s = taken (sendAck f.cls f.src (t.bump .RNG_DUP_COUNT))) ∧
                (1 < d → d ≤ 64 → rx.held = [] →
                  exec (.ringFrameReceive port f true true) s = taken (sendAck f.cls f.src (hold t [(f.seq, f)] rx.cum))) ∧
                (rx.cum < 2 ^ 32 → f.seq = (rx.cum + 1) % 2 ^ 32 → rx.held = [] →
                  exec (.ringFrameReceive port f true true) s = taken (sendAck f.cls f.src
                    (deliverHeld (flowKey f.cls f.src) 64 (deliverMsg f (hold (hold t [(f.seq, f)] rx.cum) [] f.seq)))))))))) ∧
    (let flow := kvGet s.ring.tx (flowKey cls src) {}
      let only := fun (p : TxMsg → Bool) => modTx (flowKey cls src) (fun f => { f with unacked := f.unacked.filter p }) s
      let off := fun (p : Nat → Bool) => unqueue cls src p (only (fun m => !p m.frame.seq))
      (cls = clsControl → ∀ cum bitmap, exec (.ringAck src cls cum bitmap) s =
        next (pumpFlow (flowKey cls src) 64 (off (ackCovers cum bitmap)))) ∧
      (∀ m claim, flow.unacked.filter (fun m => m.frame.seq == seq) = [m] → exec (.claimNack src cls claim seq) s =
        next (seeClaim seenNack claim (pumpFlow (flowKey cls src) 64 (msgFailed cls src m (off (· == seq)))))) ∧
      (∀ m, (s.get .RNG_STATUS_STATE = 3 ∨ s.get .RNG_STATUS_STATE = 4) → kvGet s.ring.credit (s.route src * 4 + cls) 0 ≠ 0 →
        flow.unacked.find? (fun m => m.frame.seq == seq) = some m →
        (m.tries < 3 →
          let more := fun l : List TxMsg => l.map (fun x => if x.frame.seq = seq then { x with tries := x.tries + 1 } else x)
          let t := modTx (flowKey cls src) (fun f => { f with unacked := more f.unacked }) s
          exec (.retxTimeout src cls seq) s =
            next (queueOwn (t.shortWay src) { m.frame with retx := true }
              (reread (s.route src) m.frame (epbFlag .ENG_EPB_FLAGS_RETRY (t.bump .RNG_RETX_COUNT))))) ∧
        (3 ≤ m.tries → exec (.retxTimeout src cls seq) s =
          next (pumpFlow (flowKey cls src) 64 (msgFailed cls src m (off (· == seq))))))) ∧
    (∀ mode serial pair claim sess,
      (src = s.node → serial = s.serial → exec (.ringAnnounce src mode serial pair claim sess) s = next (roundDone s)) ∧
      (src = s.node → serial ≠ s.serial → exec (.ringAnnounce src mode serial pair claim sess) s = next (s.set .RNG_STATUS_DUPLICATE 1)) ∧
      (src ≠ s.node → src < 32 → s.get .RNG_STATUS_STATE ≠ 5 → pair ≠ s.get .CLM_PAIR_PAIR_ID →
        let t := seeSession src sess (keepClaim src pair claim s)
        let u := (t.setBitB .RNG_NODES_PRESENT 0 src true).setBitB .RNG_NODES_DORMANT 0 src (mode == Mode.dormant)
        exec (.ringAnnounce src mode serial pair claim sess) s = next (pairLook (u.withRing (fun r =>
          { r with heard := kvSet r.heard src { mode := mode, serial := serial, pairId := pair, at_ := u.now } }))))) ∧
    (s.ring.bypass = false → s.ring.announced = true →
      exec .announceTick s = next (roundDone (sendBoth (s.linkAll linkAnnounce s.announceBytes) s))) ∧
    ((s.get .RNG_STATUS_STATE = 3 ∨ s.get .RNG_STATUS_STATE = 4) → exec (.nodeListTimeout n) s = next (nodeGone n s)) ∧
    (s.present n = true → nodeGone n s = pairLook (endRemotes n ([clsControl, clsPair, clsRemote].foldl (fun s c => failFlow c n s)
      (((s.setBitB .RNG_NODES_PRESENT 0 n false).setBitB .RNG_NODES_DORMANT 0 n false).withRing (fun r =>
        { r with heard := kvDel r.heard n }))))) ∧
    (src ≠ s.node → exec (.ringLeave src port) s =
      next (if s.hops (port == 1) src = 1 then wrapAt port (nodeGone src s) else nodeGone src s)) ∧
    (n ≠ s.get .CLM_PAIR_PAIR_ID → ∀ claim,
      ((s.onB .RNG_CLAIM_VALID n = false ∨ s.getB .RNG_CLAIM_CLAIM n < claim) → exec (.ringClaim src n claim) s =
        next (((s.setB .RNG_CLAIM_CLAIM n claim).setB .RNG_CLAIM_NODE n src).setB .RNG_CLAIM_VALID n 1)) ∧
      (s.onB .RNG_CLAIM_VALID n = true → claim ≤ s.getB .RNG_CLAIM_CLAIM n → exec (.ringClaim src n claim) s = next s)) ∧
    (src ≠ s.node → s.ring.bypass = false → s.ring.leaving = false → exec (.ringRemove src (s.get .CLM_PAIR_PAIR_ID)) s =
      next (((sendBoth (s.linkAll linkLeave []) s).withRing (fun r => { r with leaving := true })).withRing (fun r =>
        { r with removed := true }))) ∧
    (s.ring.bypass = false → port < 2 → s.wrapped port = false →
      let turned := (setWrap port true (spanSettled port s)).bumpB .RNG_WRAPS_COUNT port 1
      (kvHas s.ring.lost port = true → turned.wrapped (1 - port) = false →
        exec (.spanLockTimeout port) s = next (syncRing (turnFrames port turned))) ∧
      (kvHas s.ring.lost port = false → ∀ i t k, i ∈ [Instr.portLoss port, .spanLockTimeout port] → (setLock port false s).draw = (k, t) →
        exec i s = next (raiseUe (39 + port) 1 0 7 s.node 0 (syncRing (t.withRing (fun r =>
          { r with lost := kvSet r.lost port (t.now + Config.freeNat k % 1000001) }))))) ∧
      (s.pdOn (34 + port) = true → kvHas s.ring.lost port = false →
        let tr := s.nextFrame port (·.1) (kvGet s.ring.transit port [])
        let own := s.nextFrame port id (s.ownReady port)
        let since := kvGet s.ring.since port 0
        let less := fun (g : Frame) (r : RingState) =>
          kvSet r.credit (port * 4 + g.cls) (kvGet r.credit (port * 4 + g.cls) 0 - frameUnits g)
        (∀ q rest, tr = some (q, rest) → (own = none ∨ since < 4) → exec (.frameTransmit port) s = next (frameOut port q.1
          ((creditBack q.2 q.1 s).withRing (fun r =>
            { r with transit := kvSet r.transit port rest, since := kvSet r.since port (kvGet r.since port 0 + 1)
                     credit := less q.1 r })))) ∧
        (∀ g rest, own = some (g, rest) → (tr = none ∨ 4 ≤ since) → exec (.frameTransmit port) s = next (frameOut port g
          ((keepEgress port g s).withRing (fun r =>
            { r with own := kvSet r.own port ((kvGet r.own port []).erase g), since := kvSet r.since port 0, credit := less g r })))))) ∧
    (s.ring.bypass = false → port < 2 → (s.wrapped port = true ∨ kvHas s.ring.lost port = true) → s.pdOn (34 + port) = true →
      exec (.portUnwrap port) s = next (syncRing (setWrap port false (spanSettled port (setLock port true s))))) ∧
    (port < 2 → cls < 4 → exec (.creditReturn port cls n) s = next (s.withRing (fun r =>
      { r with credit := kvSet r.credit (port * 4 + cls) (kvGet r.credit (port * 4 + cls) 0 + n) }))) ∧
    (s.get .RNG_STATUS_STATE = 1 →
      let passed := fun (w e : Nat) => (s.setB .RNG_PSTAT_LOOP_PASS 0 w).setB .RNG_PSTAT_LOOP_PASS 1 e
      exec (.loopbackTestComplete true true) s = next (syncRing (setLock 0 true (setLock 1 true
        ((((passed 1 1).emit (.bypass false)).withRing (fun r => { r with bypass := false, announced := false })).set
          .RNG_STATUS_TEST_FAIL 0)))) ∧
      let u := ((passed 0 1).set .RNG_STATUS_TEST_FAIL 1).set .RNG_STATUS_STATE 0
      exec (.loopbackTestComplete false true) s = next (raiseUe 39 2 0 7 u.node 0 u)) ∧
    (exec (.memsPositionCheck s.ring.bypass) s = next (s.set .RNG_STATUS_BYPASS (b2n s.ring.bypass))) ∧
    (s.lit o .RNG_CTL → s.logTakes o = true → s.get .RNG_CTL_INSERT = 1 →
      exec (.rngInsertWrite o 0) s = next (insertChanged 1 ((logBy o 1 (regBase .RNG_CTL) 1 0 s).set .RNG_CTL_INSERT 0))) ∧
    (s.ring.leaving = true → exec .leaveBypass s = next (beginInsert (goBypass s))) ∧
    (n < 4 → s.getB .RNG_INJ_KIND n = 3 → exec (.ringInjectRelease n) s = next ((kvGet s.ring.injHeld n []).reverse.foldl
      (fun s f => s.emit (.frame (n / 2) f)) (s.withRing (fun r => { r with injHeld := kvDel r.injHeld n }))))

/-- REMOTE messages act on the program their token names (R101): START begins it once under the key of its attached node, CONTROL asks
for its HALTREQ record or wakes its WAIT, READ-DATA is what the command it answers would have brought, a block in parts of 9152 bytes, ANSWER decides a re-drive
or says that a word is posted (R124, R143), RESET ends the function's older generations (R483). At the attached node READ is answered with what host memory held (R103),
WRITE and STATUS are taken unless their generation is old, a final once for its token, with REPOST once re-driven (R140, R143, R483), QUERY is answered; the standby
applies mirror messages in the order of their flow (R479, R521), and no other module applies one. -/
def Obligations.RemoteMessagesFollowTheirToken : Prop :=
  ∀ (h : RemoteHdr) (addr ctl tag gen seq k : Nat) (b : Bool) (data : HostRead) (bytes : List Byte) (m : MirrorItem) (s : State),
    let next := fun t : State => Host.Outcome.next (φ := Fault) (ρ := Refusal) (settle t)
    (∀ e, execKey h.src h.sch = e →
      (s.mode = Mode.frond → s.progAt e = none →
        let p : Prog := { token := h.token, start := addr, tag := 0, attached := some h.src, next := addr, fetchAt := none }
        let b : Sub :=
          { fn := h.fn, rel := h.sch % 4096, cq := 0, remote := true, node := s.node, st := .startPending, prog := some p }
        let t := s.withCss (fun c => { c with subs := kvSet c.subs e b })
        exec (.remoteStart h addr) s = next (jnlAsk (t.jrec e h.token (.start addr 0 0 true h.src)) [.started e] t)) ∧
      (∀ p, s.progAt e = some p →
        (p.token ≠ h.token → exec (.remoteControl h ctl tag) s = next s ∧ exec (.readData h data) s = next s ∧
          ∀ b, exec (.remoteAnswer h b) s = next s) ∧
        (p.token = h.token →
          exec (.remoteStart h addr) s = next s ∧
          ((ctl = 2 ∨ ctl = 3) → p.ending = none →
            exec (.remoteControl h ctl tag) s = next (jnlAsk (s.jrec e h.token (.haltreq (ctl - 1) tag)) [.halted e (ctl - 1)] s)) ∧
          (∀ r dl, (s.subAt e).st = .waiting → p.run = some r → r.place = .wait 2 dl →
            exec (.remoteControl h 4 tag) s = next (endWait e false s)) ∧
          (h.req = 1 → p.fetchAt = some h.addr → exec (.readData h data) s = exec (.orderFetch e data) s) ∧
          (h.req = 1 → p.fetchAt ≠ some h.addr → exec (.readData h data) s = next s) ∧
          (h.req = 3 → exec (.readData h data) s = exec (.hostReadCompletion e data) s) ∧
          (h.req = 2 → ∀ len asks, p.blockAsks = len :: asks → p.blockGot.length + 1 < divUp len 9152 →
            exec (.readData h data) s = next (modProg e (fun p => { p with blockGot := p.blockGot ++ [data] }) s)) ∧
          (h.req = 2 → ∀ f t len asks, p.fetched = f :: t → p.blockAsks = len :: asks → divUp len 9152 ≤ p.blockGot.length + 1 →
            let u := modProg e (fun p => { p with blockAsks := asks, blockGot := [] }) s
            let data' := joinReads (p.blockGot ++ [data])
            ((parseOrd f.raw).op = opIngest → exec (.readData h data) s = exec (.ordIngest e data') u) ∧
            ((parseOrd f.raw).op = opSpread → exec (.readData h data) s = exec (.ordSpread e data') u) ∧
            ((parseOrd f.raw).op = opGather → exec (.readData h data) s = exec (.ordGather e data') u)) ∧
          (h.req = 6 → exec (.remoteAnswer h b) s = next (noteposted e h.token s)) ∧
          (h.req ≠ 6 → (s.subAt e).st = .redrive → p.askFirst = true →
            exec (.remoteAnswer h true) s = next (dropExec e stRingf 0x0400 s) ∧
            exec (.remoteAnswer h false) s = next (redriveGo e p s))))) ∧
    ((∀ q ∈ s.css.subs, isExec q.1 = true → execNode q.1 = h.src → q.2.fn ≠ h.fn) → exec (.remoteReset h gen) s = next s) ∧
    (∀ x p, s.css.subs = [(execKey h.src k, x)] → isExec (execKey h.src k) = true → execNode (execKey h.src k) = h.src → x.fn = h.fn →
      x.prog = some p → p.token % 65536 ≠ gen → exec (.remoteReset h gen) s = next (resetProg (execKey h.src k) s)) ∧
    (s.attachedOf h = some k →
      (s.inD3 h.fn = false →
        let t := hostReadReq h.fn h.addr (min h.len 9152) s
        let say := fun (code : Nat) (d : List Byte) =>
          sendRemote 4 h.src (h.token % 65536) h.token h.addr k h.fn h.req (leBytes 1 code) d t
        (∀ d, exec (.remoteRead h (.ok d)) s = next (say 0 (padTo (min h.len 9152) d))) ∧
        exec (.remoteRead h .failed) s = next (say 3 [])) ∧
      (s.oldGen h = false → ∀ p, s.progAt h.sch = some p → p.ending = none →
        let given := parseWord bytes
        let w := { given with sch := (s.subAt h.sch).rel, flags := if p.redriven then given.flags ||| flRepost else given.flags }
        (given.flags.testBit 0 = true → exec (.remoteStatus h bytes) s =
          next (jnlAsk (s.jrec k h.token (.final w)) [.final k w true] (modProg k (fun p => { p with ending := some w }) s))) ∧
        (given.flags.testBit 0 = false → given.flags ≠ 0 → exec (.remoteStatus h bytes) s =
          next (queuePost (s.subAt k).fn (s.subAt k).cq { w := w, sch := k, kind := .note } s)) ∧
        (given.flags = 0 → given.residual = 4 → (s.subAt k).st = .active → exec (.remoteStatus h bytes) s =
          next (setSt k .waiting (modProg k (fun p => { p with farWait := some given.cond }) s)))) ∧
      ((s.progAt h.sch).map (·.ending) = some none → exec (.remoteQuery h) s =
        next (sendRemote 8 h.src (h.token % 65536) h.token 0 h.sch h.fn h.req (leBytes 1 0) [] s))) ∧
    (s.attachedOf h = none →
      exec (.remoteRead h data) s = next s ∧
      (s.oldGen h = false → (parseWord bytes).flags.testBit 0 = true →
        exec (.remoteStatus h bytes) s = next (s.bump .CSS_REPOSTED_COUNT)) ∧
      exec (.remoteQuery h) s = next (sendRemote 8 h.src (h.token % 65536) h.token 0 h.sch h.fn h.req (leBytes 1 1) [] s)) ∧
    (s.oldGen h = false → exec (.remoteWrite h b bytes) s = next (hostWrite h.fn h.addr b (bytes.take 9152) s)) ∧
    (s.oldGen h = true → exec (.remoteWrite h b bytes) s = next (s.bump .CSS_GEN_DROPPED_COUNT) ∧
      exec (.remoteStatus h bytes) s = next (s.bump .CSS_GEN_DROPPED_COUNT)) ∧
    (∀ pair, s.get .CLM_PAIR_PAIR_ID = pair →
      let f : Frame :=
        { dst := s.node, src := h.src, cls := clsPair, seq := seq, claim := s.getB .RNG_CLAIM_CLAIM pair, pairId := pair,
          session := kvGet s.ring.sessions h.src 0, kind := (mirrorItem m).1, payload := (mirrorItem m).2 }
      exec (.mirrorMessage h.src seq m) s = next (acceptMsg f s)) ∧
    (s.get .CLM_STATUS_ROLE ≠ 2 → ∀ kind, applyMirror h.src kind bytes s = s) ∧
    (s.get .CLM_STATUS_ROLE = 2 → applyMirror h.src pairJournal bytes s = mirrorRecord h.src bytes (s.bump .CLM_MIRROR_MSGS_COUNT) ∧
      applyMirror h.src pairDlog bytes s = mirrorDlog bytes (s.bump .CLM_MIRROR_MSGS_COUNT) ∧
      applyMirror h.src pairCustody bytes s = mirrorCustody bytes (s.bump .CLM_MIRROR_MSGS_COUNT) ∧
      applyMirror h.src pairHandle bytes s = mirrorHandle bytes (s.bump .CLM_MIRROR_MSGS_COUNT) ∧
      applyMirror h.src pairReserve bytes s = mirrorReserve (fieldAt bytes 0 1) (fieldAt bytes 8 8) (s.bump .CLM_MIRROR_MSGS_COUNT) ∧
      applyMirror h.src pairGen bytes s =
        (s.bump .CLM_MIRROR_MSGS_COUNT).setB .VFM_FSTAT_GEN (fieldAt bytes 0 2) (fieldAt bytes 2 2))

/-- A member of a pair sends its heartbeat and takes a valid one of its pair id (R520): what its flags ask, the claim it shows (R518). A loss
counts, raises source 43 and, by the peer's mode, leads to isolation hold or takeover (R524); ISOLATION_CHECK resolves the hold by
the reservation's holder (R525). A takeover takes a claim above every one seen, its low bit the member's (R517), and, once the drives
are the survivor's, enters FROND with the replay (R526, R527), or SPORE when the journal
cannot be read (R135). CLM_TAKEOVER, FORCE_ACTIVE (R519), DETACH, RESYNC (R522)
and SWITCHBACK (R529) check role and step first; a resynchronisation ends in step when the digests agree. -/
def Obligations.PairKeepsOneActiveMember : Prop :=
  ∀ (o : Origin) (frame digest : List Byte) (holder : Option Nat) (s : State),
    let next := fun t : State => Host.Outcome.next (φ := Fault) (ρ := Refusal) (settle t)
    let beating := s.on .CLM_PAIR_PAIRED = true ∧ s.mode ∈ [Mode.fiddlehead, Mode.frond, Mode.standby, Mode.maintenance]
    (beating → exec .heartbeatSend s = next ((s.emit (.heartbeat s.beat)).withPair (fun p => { p with sayDetachAck := false }))) ∧
    (¬ beating → exec .heartbeatSend s = next s) ∧
    (s.mode ≠ Mode.off → s.on .CLM_PAIR_PAIRED = true → frame.length = 8 → crc8 (frame.take 7) = fieldAt frame 7 1 →
      (fieldAt frame 6 1 ≠ s.get .CLM_PAIR_PAIR_ID % 256 → exec (.heartbeatReceive frame) s = next s) ∧
      (fieldAt frame 6 1 = s.get .CLM_PAIR_PAIR_ID % 256 → ∀ t u,
        (s.withPair (fun p => { p with hbAt := some s.now, hbMode := fieldAt frame 4 1 % 16, hbFlags := fieldAt frame 5 1, lostAt := none })).set
          .CLM_STATUS_HB_LOST 0 = t →
        seeClaim seenHeartbeat (fieldAt frame 0 4) (if t.on .CLM_STATUS_HOLD then endHold t else t) = u →
        (u.get .CLM_STATUS_ROLE = 1 → exec (.heartbeatReceive frame) s = next (pairLook (activeHears (fieldAt frame 5 1) u))) ∧
        (u.get .CLM_STATUS_ROLE = 2 → exec (.heartbeatReceive frame) s = next (pairLook (standbyHears (fieldAt frame 5 1) u))) ∧
        (u.get .CLM_STATUS_ROLE = 0 → exec (.heartbeatReceive frame) s = next (pairLook u)))) ∧
    (s.get .CLM_STATUS_SYNC = 1 → activeHears 1 s = s.set .CLM_STATUS_SYNC 2) ∧
    (s.pair.sayDetach = true → activeHears 4 s = runDetached s) ∧ activeHears 8 s = beginCopy s ∧
    (s.canTake = true → standbyHears 16 s = beginTakeover 0 s) ∧
    (s.get .CLM_STATUS_SYNC ≠ 0 → standbyHears 2 s = leaveStep (s.withPair (fun p => { p with sayDetachAck := true }))) ∧
    (beating → s.pair.hbAt ≠ none → s.on .CLM_STATUS_HB_LOST = false →
      let t := (s.set .CLM_STATUS_HB_LOST 1).bump .CLM_HB_LOSSES_COUNT
      let u := t.withPair (fun p => { p with lostAt := some t.now })
      exec .heartbeatLoss s = next (pairLook (pairEvent .CLM_EVENT_HB_LOST (raiseUe 43 1 0 0 0 0 u)))) ∧
    (s.canTake = true → s.on .CLM_STATUS_HB_LOST = true → s.peerMode ≠ some Mode.frond → s.peerMode ≠ some Mode.maintenance → ∀ at_,
      s.pair.lostAt = some at_ →
      (s.now ≤ at_ + 5000000 → exec .takeoverConfirm s = next (beginTakeover 0 s)) ∧
      (at_ + 5000000 < s.now → exec .takeoverConfirm s = next s)) ∧
    (∀ c, max (s.get .CLM_CLAIM_CLAIM) (s.get .CLM_PEER_CLAIM_CLAIM) = c →
      c + 3 < 2 ^ 32 → c < s.nextClaim ∧ s.nextClaim % 2 = b2n (s.on .CLM_PAIR_MEMBER) ∧
        takeClaim s = (logHw 5 (s.get .CLM_PAIR_PAIR_ID) (s.get .CLM_CLAIM_CLAIM) s.nextClaim s).set .CLM_CLAIM_CLAIM s.nextClaim) ∧
    (s.pair.taking = true → s.mode = Mode.standby → s.worldsOut = true → (∀ q ∈ s.mpt.cmds, ∀ p, q.2.use ≠ .reserve p) → s.mpt.waiting = [] →
      (s.journalReadable = false → exec .takeoverComplete s = next (enterSpore 0x0700 s.pair.takeBy false false s)) ∧
      (s.journalReadable = true →
      let e := emptyTables s
      let a := ((((e.set .CLM_STATUS_ROLE 1).set .CLM_STATUS_SYNC 0).set .CLM_STATUS_WAIT_PEER 0).set .CLM_CMD_BUSY 0)
      let t := a.withPair (fun p => { p with taking := false, takeBy := 0, sayResync := false })
      exec .takeoverComplete s =
        next (pairEvent .CLM_EVENT_TAKEOVER ((replay (toFrond 0x1200 s.pair.takeBy t)).bump .CLM_TAKEOVERS_COUNT)))) ∧
    (s.on .CLM_STATUS_HOLD = true → (∃ d < 1024, s.devState d = devPresent ∧ s.isSsp d = true) →
      ∀ t, timeTo ((s.pair.holdAt.getD s.now) + max 3500 (s.get .CLM_CTL_FENCE_MS) * 1000000) s = t →
      (holder = none → exec (.isolationCheck holder) s = next t) ∧
      (holder = some t.ownKey → exec (.isolationCheck holder) s = next (runDetached t)) ∧
      (∀ h, holder = some h → h ≠ t.ownKey → h / 2 ^ 32 = t.ownKey / 2 ^ 32 →
        exec (.isolationCheck holder) s = next (seeClaim seenHolder (h % 2 ^ 32) t)) ∧
      (∀ h, holder = some h → h / 2 ^ 32 ≠ t.ownKey / 2 ^ 32 → exec (.isolationCheck holder) s = next t)) ∧
    (s.lit o .CLM_CMD → s.on .CLM_CMD_BUSY = false →
      let codes := fun (i : Instr) (code : Nat) => exec i s = next (s.set .CLM_CMD_RESULT code)
      let took := fun op : Nat => (logBy o 1 (regBase .CLM_CMD) 0 op s).set .CLM_CMD_RESULT 0
      (s.on .CLM_PAIR_PAIRED = false → ∀ i, i ∈ [Instr.clmTakeover o, .forceActive o, .clmDetach o, .clmResync o] → codes i 3) ∧
      (s.on .CLM_PAIR_PAIRED = true →
        (s.get .CLM_STATUS_ROLE ≠ 2 → codes (.clmTakeover o) 1 ∧ codes (.forceActive o) 1) ∧
        (s.get .CLM_STATUS_ROLE ≠ 1 → codes (.clmDetach o) 1) ∧ (s.get .CLM_STATUS_ROLE = 0 → codes (.clmResync o) 1) ∧
        (s.get .CLM_STATUS_ROLE = 2 → s.mode = Mode.standby → s.pair.taking = false →
          (s.get .CLM_STATUS_SYNC ≠ 2 → codes (.clmTakeover o) 2) ∧
          (s.get .CLM_STATUS_SYNC = 2 → s.logTakes o = true →
            exec (.clmTakeover o) s = next (beginTakeover (originCode o) ((took 1).set .CLM_CMD_BUSY 1))) ∧
          (s.on .CLM_STATUS_WAIT_PEER = true → s.logTakes o = true →
            exec (.forceActive o) s = next (beginTakeover (originCode o) ((took 2).set .CLM_CMD_BUSY 1)))) ∧
        (s.get .CLM_STATUS_ROLE = 1 → s.logTakes o = true →
          (∀ t, took 3 = t →
            (t.pairedActive = true → (t.hbValid && !t.on .CLM_STATUS_HOLD) = true →
              exec (.clmDetach o) s = next (t.withPair (fun p => { p with sayDetach := true }))) ∧
            (t.pairedActive = true → (t.hbValid && !t.on .CLM_STATUS_HOLD) = false → exec (.clmDetach o) s = next (runDetached t)))) ∧
        (s.logTakes o = true → ∀ t, took 4 = t →
          (s.get .CLM_STATUS_ROLE = 1 → t.get .CLM_STATUS_ROLE = 1 → exec (.clmResync o) s = next (beginCopy t)) ∧
          (s.get .CLM_STATUS_ROLE = 2 → t.get .CLM_STATUS_ROLE = 2 → exec (.clmResync o) s = next (leaveStep t))))) ∧
    (s.get .CLM_STATUS_SYNC = 1 →
      (digest ≠ s.cfgDigest → exec (.resyncComplete digest) s = next
        (((s.set .CLM_STATUS_SYNC 0).set .CLM_STATUS_CFG_MISMATCH 1).withPair (fun p => { p with sayResync := false }))) ∧
      (digest = s.cfgDigest →
        let t := ((s.set .CLM_STATUS_SYNC 2).set .CLM_STATUS_CFG_MISMATCH 0).withPair (fun p => { p with sayResync := false })
        exec (.resyncComplete digest) s = next (if t.get .CLM_STATUS_ROLE = 2 then pairEvent .CLM_EVENT_IN_STEP t else t))) ∧
    (s.lit o .CLM_SWITCHBACK → s.on .CLM_SWITCHBACK_BUSY = false →
      (s.get .CLM_STATUS_ROLE ≠ 1 → exec (.switchback o) s = next (s.set .CLM_SWITCHBACK_RESULT 1)) ∧
      (s.get .CLM_STATUS_ROLE = 1 → s.get .CLM_STATUS_SYNC ≠ 2 → exec (.switchback o) s = next (s.set .CLM_SWITCHBACK_RESULT 2)) ∧
      (s.get .CLM_STATUS_ROLE = 1 → s.get .CLM_STATUS_SYNC = 2 → s.logTakes o = true → exec (.switchback o) s =
        next ((((logBy o 1 (regBase .CLM_SWITCHBACK) 0 1 s).set .CLM_SWITCHBACK_RESULT 0).set .CLM_SWITCHBACK_BUSY 1).withPair
          (fun p => { p with yielding := true }))))

/-- Tuber serves the request at the front of the mailbox ring (R546): RETRY in a solo restart (R547), REFUSED in another mode, BAD_ARG
for a bad buffer, and otherwise it does its work and answers OK: reports and certificates (R539, R541), random bytes while the DRBG
runs (R531), key handles (R543 to R545), KEKs (R542), fuses (R536, R537, R556). A solo restart ends verified or as level 3 (R547,
R548). Debug unlock asks, checks and expires (R555). The log exports its entries to the PF's ring (R553), closes a checkpoint over
its new ones, whose chain it recomputes, and signs it (R554). -/
def Obligations.TuberServesAndTheLogExports : Prop :=
  ∀ (o : Origin) (d nonce blob : List Byte) (n v : Nat) (b : Bool) (bad : Option Nat) (w s : State),
    let next := fun t : State => Host.Outcome.next (φ := Fault) (ρ := Refusal) (settle t)
    let q := parseReq d
    let fn := fieldAt q.args 0 2
    let kek := fieldAt q.args 2 1
    let slot := fieldAt q.args 0 1
    let handle := fieldAt q.args 0 8
    let count := fieldAt q.args 0 4
    let replies := fun (code result : Nat) (d : List Byte) (t : State) => next (respond code result q.tag 0 d t)
    let fits := fun k : Nat => k ≤ q.len ∧ s.inTmbWindow q.buf k = true
    let rows : List (Nat × Instr) := [(0x01, .tmbAttest), (0x02, .tmbCerts), (0x03, .tmbRandom), (0x10, .tmbKeyCreate),
      (0x11, .tmbKeyImport), (0x12, .tmbKeyRevoke), (0x13, .tmbKekProvision), (0x20, .tmbFuseSlot), (0x21, .tmbFuseRevoke),
      (0x22, .tmbRollback), (0x23, .tmbDebugKill)]
    (∀ r ∈ rows, (w.pdOn 1 = false ∨ (frontRequest w).1 = none) → exec r.2 w = next w) ∧
    (w.pdOn 1 = true → frontRequest w = (some d, s) →
      (∀ r ∈ rows, q.code ≠ r.1 → q.code ∈ rows.map (·.1) → exec r.2 w = next w) ∧
      (∀ r ∈ rows, q.code = r.1 → s.on .TMB_STATUS_RESTARTING = true → exec r.2 w = replies r.1 rspRetry [] s) ∧
      (s.on .TMB_STATUS_RESTARTING = false → s.on .TMB_STATUS_RUNNING = true →
      (∀ r ∈ rows, q.code = r.1 → 0x10 ≤ r.1 → s.mode ≠ Mode.maintenance → (s.mode ≠ Mode.frond ∨ r.1 ∈ [0x13, 0x20, 0x21, 0x23]) →
        exec r.2 w = replies r.1 rspRefused [] s) ∧
      (q.code = 0x01 →
        (¬ fits 16864 → exec .tmbAttest w = replies 0x01 rspBadArg [] s) ∧
        (fits 16864 → exec .tmbAttest w = next (respond 0x01 rspOk q.tag 16864 [] (tmbWrite q.buf
          (s.report q.args ++ s.aliasSign 0 (s.report q.args) ++ s.aliasSign 1 (s.report q.args)) s)))) ∧
      (q.code = 0x02 → fits 16384 → exec .tmbCerts w =
        let d := (Config.derive deriveDevCerts [] ++ Config.derive deriveAliasCerts s.tub.aliasTag).take 16384
        next (respond 0x02 rspOk q.tag d.length [] (tmbWrite q.buf d s))) ∧
      (q.code = 0x03 → fits count →
        (4096 < count → exec .tmbRandom w = replies 0x03 rspBadArg [] s) ∧
        (count ≤ 4096 → s.on .TMB_STATUS_DRBG_OK = false → exec .tmbRandom w = replies 0x03 rspRetry [] s) ∧
        (count ≤ 4096 → s.on .TMB_STATUS_DRBG_OK = true → ∀ d u, drbg count s = (d, u) →
          exec .tmbRandom w = next (respond 0x03 rspOk q.tag count [] (tmbWrite q.buf d u)))) ∧
      (s.mode = Mode.frond ∨ s.mode = Mode.maintenance →
        (fits 48 → s.badKeyArgs fn kek = true →
          (q.code = 0x10 → exec .tmbKeyCreate w = replies 0x10 rspBadArg [] s) ∧
          (q.code = 0x11 → exec .tmbKeyImport w = replies 0x11 rspBadArg [] s)) ∧
        (fits 48 → s.badKeyArgs fn kek = false → s.handleCount < 65536 →
          (q.code = 0x10 → s.logTakes .tuber = true → s.on .TMB_STATUS_DRBG_OK = true → ∀ key t h u,
            drbg 32 (logBy .tuber 7 0x10 0 s.tub.nextHandle s) = (key, t) →
            newHandle fn kek (fun h => wrapKey ((t.kek? kek).getD []) (key ++ leBytes 8 h)) t = (h, u) →
            exec .tmbKeyCreate w =
              next (respond 0x10 rspOk q.tag 48 (leBytes 8 h) (tmbWrite q.buf (((kvGet? u.tub.handles h).map (·.blob)).getD []) u))) ∧
          (q.code = 0x11 → ∀ t h u, tmbRead q.buf 48 s = (some blob, t) → t.logTakes .tuber = true →
            unwrapKey ((t.kek? kek).getD []) blob ≠ none →
            newHandle fn kek (fun _ => blob) (logBy .tuber 7 0x11 0 t.tub.nextHandle t) = (h, u) →
            exec .tmbKeyImport w = replies 0x11 rspOk (leBytes 8 h) u)) ∧
        (q.code = 0x12 →
          (kvGet? s.tub.handles handle = none → exec .tmbKeyRevoke w = replies 0x12 rspBadArg [] s) ∧
          (∀ x, kvGet? s.tub.handles handle = some x →
            (x.st = 2 ∨ x.st = 3 → exec .tmbKeyRevoke w = replies 0x12 rspOk [] s) ∧
            (x.st = 1 → s.logTakes .tuber = true →
              exec .tmbKeyRevoke w = replies 0x12 rspOk [] (revokeHandle handle (logBy .tuber 7 0x12 handle 0 s))) ∧
            (x.st = 1 → s.logTakes .tuber = false → exec .tmbKeyRevoke w = replies 0x12 rspLogFull [] (logRefuse s)))) ∧
        (q.code = 0x22 → ∀ f m, s.tub.fw = some f → s.tub.main = some m →
          let fused := s.get .FUS_ROLLBACK_FUSED
          (f.svn < slot ∨ m.svn < slot ∨ 64 < slot → exec .tmbRollback w = replies 0x22 rspBadArg [] s) ∧
          (slot ≤ f.svn → slot ≤ m.svn → slot ≤ 64 →
            (slot ≤ fused → exec .tmbRollback w = replies 0x22 rspOk (leBytes 1 fused) s) ∧
            (fused < slot → s.logTakes .tuber = true → exec .tmbRollback w = replies 0x22 rspOk (leBytes 1 slot)
              (((logBy .tuber 2 0x40008 fused slot s).set .FUS_ROLLBACK_MIRROR slot).set .FUS_ROLLBACK_FUSED slot))))) ∧
      (s.mode = Mode.maintenance →
        let state := s.regRaw .FUS_STATE 0
        let prog := s.get .FUS_STATE_SLOT_PROG
        (q.code = 0x13 → fits 32 → slot < 4 → s.kek? slot = none → ∀ key t,
          tmbRead q.buf 32 s = (some key, t) → t.kek? slot = none → t.logTakes .tuber = true →
          exec .tmbKekProvision w = replies 0x13 rspOk (kekCheck key)
            ((logBy .tuber 7 0x13 0 (leNat (kekCheck key)) t).withTub (fun t => { t with keks := kvSet t.keks slot key }))) ∧
        (q.code = 0x13 → fits 32 → slot < 4 → s.kek? slot ≠ none → (∃ p ∈ s.tub.handles, p.2.kek = slot ∧ (p.2.st = 1 ∨ p.2.st = 2)) →
          exec .tmbKekProvision w = replies 0x13 rspRefused [] s) ∧
        (q.code = 0x20 → fits 560 →
          ((4 ≤ slot ∨ prog.testBit slot = true) → exec .tmbFuseSlot w = replies 0x20 rspBadArg [] s) ∧
          (slot < 4 → prog.testBit slot = false → ∀ keys t, tmbRead q.buf 560 s = (some keys, t) →
            t.logTakes .tuber = true → ∀ u, logBy .tuber 2 0x40000 (t.regRaw .FUS_STATE 0) (setBit (t.regRaw .FUS_STATE 0) (2 + slot)) t = u →
            exec .tmbFuseSlot w = replies 0x20 rspOk (keyHash keys)
              (((List.range 6).foldl (fun s w => s.setB .FUS_SLOT_HASH_HASH (slot * 8 + w) (fieldAt (keyHash keys) (8 * w) 8)) u).set
                .FUS_STATE_SLOT_PROG (setBit prog slot)))) ∧
        (q.code = 0x21 → slot < 4 →
          let revoked := setBit (s.get .FUS_STATE_SLOT_REVOKED) slot
          (andNot prog revoked = 0 → exec .tmbFuseRevoke w = replies 0x21 rspBadArg [] s) ∧
          (andNot prog revoked ≠ 0 → s.logTakes .tuber = true → exec .tmbFuseRevoke w =
            replies 0x21 rspOk [] ((logBy .tuber 2 0x40000 state (setBit state (6 + slot)) s).set .FUS_STATE_SLOT_REVOKED revoked))) ∧
        (q.code = 0x23 → s.logTakes .tuber = true → ∀ t, logBy .tuber 2 0x40000 state (setBit state 0) s = t →
          exec .tmbDebugKill w = replies 0x23 rspOk [] ((t.set .FUS_STATE_DEBUG_KILL 1).withTub (fun x =>
            { x with killFresh := t.tub.killFresh || !t.on .FUS_STATE_DEBUG_KILL })))))) ∧
    (s.on .TMB_STATUS_RUNNING = true →
      exec (.tmbKick .tuber) s = next (s.withTub (fun t => { t with kickAt := s.now })) ∧
      exec .tuberWatchdogExpire s = next (raiseUe 41 2 0 0 0 0 (timeTo (s.tub.kickAt + 500000000) s)) ∧
      exec .entropyHealthFail s = next (raiseUe 41 2 0 0 0 0 (s.set .TMB_STATUS_DRBG_OK 0)) ∧
      exec .entropyStartUpTestPass s = next (s.set .TMB_STATUS_DRBG_OK 1)) ∧
    (o ≠ .tuber → exec (.tmbKick o) s = next s) ∧
    (s.on .TMB_STATUS_RESTARTING = true →
      let bank := s.get .TMB_STATUS_BANK
      let image := s.bankImage (bank * 2)
      let good := s.bankVerdict bank 1 b = 0 ∧ (s.runImage 1 image).cdiT = s.tub.cdi
      (¬ good → exec (.tuberRestartComplete b) s = next (raiseUe 41 3 0 0 0 0 s)) ∧
      (good →
        let t := (((enterFirmware image s).set .TMB_STATUS_RESTARTING 0).set .TMB_STATUS_RUNNING 1).set .TMB_STATUS_DRBG_OK 1
        let u := t.withTub (fun x => { x with kickAt := t.now })
        exec (.tuberRestartComplete b) s = next
          { u with flt := { t.flt with restarting := t.flt.restarting.filter (· != .tuber) } })) ∧
    (s.dbgKilled = false → s.mode = Mode.maintenance → s.on .TMB_STATUS_RUNNING = true →
      (∀ t, s.set .DBG_CTL_LEVEL n = t → t.mode = s.mode → t.on .TMB_STATUS_RUNNING = true → t.on .TMB_STATUS_DRBG_OK = true →
        t.get .DBG_STATUS_FAILS < 3 → (t.get .DBG_CTL_LEVEL = 1 ∨ t.get .DBG_CTL_LEVEL = 2) → ∀ d u, drbg 32 t = (d, u) →
        let x := (List.range 4).foldl (fun s i => s.setB .DBG_CHAL_BYTES i (fieldAt d (8 * i) 8)) u
        exec (.debugReq .debug n) s = next ((x.set .DBG_STATUS_CHAL_VALID 1).withTub (fun t =>
          { t with challenge := d, challengeAt := x.now }))) ∧
      (s.on .DBG_STATUS_CHAL_VALID = true → s.get .DBG_STATUS_FAILS < 3 → s.logTakes .debug = true → ∀ pass, s.unlocks nonce = pass →
        let level := s.get .DBG_CTL_LEVEL
        let t := logBy .debug 9 level 0 (b2n pass) s
        (pass = true → exec (.debugCheck .debug nonce) s = next ((((t.withEng (fun e => { e with slots := [], probeOut := kvKeys e.doms })).set
          .DBG_STATUS_GRANTED level).set .TMB_STATUS_DEBUG level).withTub (fun t => { t with dbg := true }))) ∧
        (pass = false → exec (.debugCheck .debug nonce) s =
          next (raiseUe 54 1 0 0 0 0 (t.set .DBG_STATUS_FAILS (t.get .DBG_STATUS_FAILS + 1)))))) ∧
    (s.dbgKilled = true → s.mode ≠ Mode.off → exec (.debugReq o n) s = next s ∧ exec (.debugCheck o nonce) s = next s) ∧
    (s.on .DBG_STATUS_CHAL_VALID = true → exec .debugChallengeExpire s =
      next (((timeTo (s.tub.challengeAt + 60000000000) s).set .DBG_STATUS_CHAL_VALID 0).withTub (fun t => { t with challenge := [] }))) ∧
    (s.mode ≠ Mode.off →
      (s.get .LOG_EXPORTED_SEQ < v →
        exec (.logExportedWrite .pf v) s = next (checkLogFull ((dropLatch s).set .LOG_EXPORTED_SEQ (min v (s.get .LOG_SEQ_SEQ))))) ∧
      (v ≤ s.get .LOG_EXPORTED_SEQ → exec (.logExportedWrite .pf v) s = next (dropLatch s)) ∧
      (v < 2 ^ 32 → s.get .LOG_CKPT_EXPORTED_COUNT < v → exec (.logCkptExportedWrite .pf v) s =
        next (checkLogFull ((dropLatch s).set .LOG_CKPT_EXPORTED_COUNT (min v (s.get .LOG_CKPT_EXPORTED_MADE))))) ∧
      (s.on .LOG_XQ_CTL_ENABLE = true → ∀ k e, s.log.exportNext = k → k ≤ s.get .LOG_SEQ_SEQ →
        k ≤ s.get .LOG_EXPORTED_SEQ + s.exportSize → kvGet? s.log.entries ((k - 1) % logCapacity) = some e →
        let t := s.withLog (fun l => { l with exportNext := k + 1 })
        exec .logEntryExport s = next (hostWrite 0 (t.addrB .LOG_XQ_BASE_BASE 0 + k % t.exportSize * 64) false e.bytes t))) ∧
    (o ≠ .pf → exec (.logExportedWrite o v) s = next s ∧ exec (.logCkptExportedWrite o v) s = next s) ∧
    (s.lit o .LOG_XQ_CTL → s.logTakes o = true → s.on .LOG_XQ_CTL_ENABLE = false →
      let set := fun t : State => (t.set .LOG_XQ_CTL_ENABLE 1).set .LOG_XQ_CTL_LOG2 (bits v 12 8)
      let u := set (logBy o 1 (regBase .LOG_XQ_CTL) (s.regRaw .LOG_XQ_CTL 0) ((set s).regRaw .LOG_XQ_CTL 0) s)
      v % 2 = 1 → exec (.logExportEnable o v) s = next (u.withLog (fun l => { l with exportNext := u.get .LOG_EXPORTED_SEQ + 1 }))) ∧
    (s.on .TMB_STATUS_RUNNING = true → s.on .TMB_STATUS_RESTARTING = false →
      (s.log.closing = none → s.get .LOG_CKPT_EXPORTED_MADE - s.get .LOG_CKPT_EXPORTED_COUNT < 512 →
        let first := s.get .LOG_CKPT_SEQ_SEQ + 1
        let last := s.get .LOG_SEQ_SEQ
        let many := 2 ^ clamp 10 20 (s.get .LOG_CTL_CKPT_LOG2) ≤ last + 1 - first
        first ≤ last → ∀ t, (if many then s else timeTo (s.log.lastCkptTime + max 1 (s.get .LOG_CTL_CKPT_SEC) * 1000000000) s) = t →
        let signing := fun h : List Byte => ((t.withLog (fun l =>
          { l with closing := some { first := first, last := last, header := h, signed := false } })).set .LOG_STATUS_SIGNING 1)
        (t.chainLook first last = none → bad = none → ∀ h, t.ckptHeader first last none = h →
          exec (.checkpointClose bad) s = next (signing h)) ∧
        (∀ x, (t.chainLook first last).or bad = some x → ∀ h, t.ckptHeader first last (some x) = h →
          exec (.checkpointClose bad) s = next (raiseUe 44 1 0 0 0 0 ((signing h).set .LOG_STATUS_CHAIN_BROKEN 1)))) ∧
      (∀ k, s.log.closing = some k →
        let made := s.get .LOG_CKPT_EXPORTED_MADE
        let t := s.withLog (fun l =>
          { l with
            closing := none, lastHeader := k.header, lastCkptTime := s.now
            ckpts := kvSet l.ckpts (made % 512) { k with signed := true } })
        let u := ((t.set .LOG_CKPT_EXPORTED_MADE ((made + 1) % 2 ^ 32)).set .LOG_CKPT_SEQ_SEQ k.last).set .LOG_STATUS_SIGNING 0
        let w := checkLogFull (logRaw 0 14 (made % 512) k.first k.last u)
        exec .checkpointSigned s = next (raiseVec 0 (w.get .LOG_CTL_VECTOR) w)))

/-- A MOD_CMD command needs its mode and conditions (R558): RESTART enters SPORE (R561), DORMANT waits for its entry (R578), WAKE and the wake
time begin a wake (R579, R580), MAINTENANCE pauses and drains the VFs (R560), INSTALL writes a verified set and restarts (R535, R577). Power
on begins in SPORE (R459, R587); SPORE is left when ready, after 1 s where the start before failed, for CRUST after three (R570, R574). Each
start step passes with its bit and time or fails the start with its cause (R571): Tuber's image (R534), DRAM (R283), the pods (R437),
the ring with the role (R464, R519), the main image (R534), the watchdog; the start count clears in FROND or STANDBY (R573). -/
def Obligations.ModesFollowTheirCommandsAndSteps : Prop :=
  ∀ (o : Origin) (b c : Bool) (n : Nat) (l : List Nat) (set : InstallSet) (s : State),
    let next := fun t : State => Host.Outcome.next (φ := Fault) (ρ := Refusal) (settle t)
    let codes := fun (i : Instr) (code : Nat) => exec i s = next (s.set .MOD_CMD_RESULT code)
    let took := fun v : Nat => (logBy o 1 (regBase .MOD_CMD) 0 v s).set .MOD_CMD_RESULT 0
    let step := fun (k : Nat) (t : State) => next (stepDone k t)
    (s.lit o .MOD_CMD → s.on .MOD_CMD_BUSY = false →
      (s.mayRestart c = false → codes (.modRestart o b c) 1) ∧
      (s.mayRestart c = true → s.logTakes o = true → ∀ t, took (1 + 8 * b2n b + 16 * b2n c) = t → ∀ u,
        (if c then t.set .MOD_START_COUNT_COUNT 0 else t) = u →
        exec (.modRestart o b c) s = next (enterSpore 0x1000 (originCode o) (b && (t.mode == Mode.frond || t.mode == Mode.maintenance)) false u)) ∧
      (s.mode ≠ Mode.frond → codes (.modDormant o) 1) ∧
      (s.mode = Mode.frond → s.mayDormant = false → codes (.modDormant o) 2) ∧
      (s.mode = Mode.frond → s.mayDormant = true → s.logTakes o = true → exec (.modDormant o) s =
        next ((((took 2).set .MOD_CMD_BUSY 1).set .MOD_STATE_PENDING Mode.dormant).withMod (fun m => { m with cmdBy := originCode o }))) ∧
      (s.mode ≠ Mode.dormant → codes (.modWake o) 1) ∧
      (s.mode = Mode.dormant → s.logTakes o = true → exec (.modWake o) s = next (beginWake 0 (originCode o) (took 3))) ∧
      (s.mode ≠ Mode.frond → s.mode ≠ Mode.standby → codes (.modMaintenance o) 1) ∧
      (s.mode = Mode.frond ∨ s.mode = Mode.standby → s.logTakes o = true → ∀ t, took 4 = t → ∀ l,
        t.vfs.filter (fun f => !(t.fnOf f).paused) = l →
        let u := ((l.foldl (fun s f => s.setFn f { s.fnOf f with paused := true }) t).set .MOD_CMD_BUSY 1).set .MOD_STATE_PENDING
          Mode.maintenance
        exec (.modMaintenance o) s = next (u.withMod (fun m => { m with drainPaused := l, cmdBy := originCode o, cmdAt := u.now }))) ∧
      (s.mode ≠ Mode.crust → s.mode ≠ Mode.maintenance → codes (.modInstall o set) 1) ∧
      (s.mode = Mode.crust ∨ s.mode = Mode.maintenance → s.tuberRuns = false → codes (.modInstall o set) 4) ∧
      (s.mode = Mode.crust ∨ s.mode = Mode.maintenance → s.tuberRuns = true → s.logTakes o = true → ∀ t, took 5 = t →
        let bank := 1 - t.tub.bootBank
        let old := fieldAt (t.bankImage (bank * 2 + 1)) 40 8
        let addr := s.get .MOD_INSTALL_ADDR_VALUE
        let len := s.get .MOD_INSTALL_LEN_VALUE
        let logged := fun v : Nat => checkLogFull (logRaw (originCode o) 3 bank old v (hostReadReq 0 addr len t))
        (set.data = .failed → exec (.modInstall o set) s = next ((logged 0).set .MOD_CMD_RESULT 5)) ∧
        (∀ d fw main, set.data = .ok d → setImages (d.take len) = (fw, main) →
          let good := addr % 4096 = 0 ∧ len ≤ 2 ^ 31 ∧ t.verdict 1 fw = 0 ∧ t.verdict 2 main = 0 ∧ fw.length + main.length ≤ 2 ^ 30 ∧
            set.readBackOk = true
          (good → exec (.modInstall o set) s = next (enterSpore 0x1400 (originCode o) false false
            (((logged (fieldAt main 40 8)).withTub (fun t =>
              { t with bootBank := bank, banks := kvSet (kvSet t.banks (bank * 2) fw) (bank * 2 + 1) main })).set
              .MOD_START_COUNT_COUNT 0))) ∧
          (¬ good → exec (.modInstall o set) s = next ((logged 0).set .MOD_CMD_RESULT 5))))) ∧
    (s.get .MOD_STATE_PENDING = Mode.maintenance → exec .maintenanceDrainTimeout s =
      let v := timeTo (s.mod_.cmdAt + max 1 (s.get .MOD_CTL_DRAIN_S) * 1000000000) s
      let t := v.mod_.drainPaused.foldl (fun s f => s.setFn f { s.fnOf f with paused := false }) v
      next ((((t.withMod (fun m => { m with drainPaused := [] })).set .MOD_STATE_PENDING 0).set .MOD_CMD_BUSY 0).set .MOD_CMD_RESULT 3)) ∧
    (s.mode = Mode.dormant → exec .wakeTimeReached s = next (beginWake 1 0 (timeTo (s.get .MOD_WAKE_TIME_TIME) s)) ∧
      (s.mod_.waking = true → n < 65536 → exec (.wakeFail n) s = next (failStart n s)) ∧
      (s.mod_.waking = false → ∀ cause by_, beginWake cause by_ s =
        (s.withMod (fun m => { m with waking := true, wakeCause := cause, wakeBy := by_ })).set .MOD_STATE_PENDING Mode.frond)) ∧
    (s.mode = Mode.off →
      (s.mod_.resetHeld = false → exec (.supplyInRegulation n) s = next (powerOn n s)) ∧
      (s.mod_.resetHeld = true → exec (.supplyInRegulation n) s =
        next ((s.withMod (fun m => { m with supplyLost := false })).set .RNG_STATUS_NODE n))) ∧
    (s.mode = Mode.spore →
      (s.mod_.sporeReady = false → ∀ t, s.withMod (fun m => { m with sporeReady := true }) = t →
        (s.mod_.retryWait = true → exec .sporeReady s = next t) ∧ (s.mod_.retryWait = false → exec .sporeReady s = next (leaveSpore t))) ∧
      (s.mod_.retryWait = true → ∀ t, (timeTo (s.mod_.modeAt + 1000000000) s).withMod (fun m => { m with retryWait := false }) = t →
        (t.mod_.sporeReady = true → exec .sporeRetryDelay s = next (leaveSpore t)) ∧
        (t.mod_.sporeReady = false → exec .sporeRetryDelay s = next t)) ∧
      (s.get .MOD_START_COUNT_COUNT < 3 → leaveSpore s = enterFiddlehead s) ∧
      (3 ≤ s.get .MOD_START_COUNT_COUNT → leaveSpore s = enterCrust (s.get .MOD_CAUSE_CODE) s)) ∧
    (s.mode = Mode.fiddlehead → s.passed 0 = false →
      let bank := s.tub.bootBank
      let first := s.bankVerdict bank 1 b
      let second := s.bankVerdict (1 - bank) 1 c
      (first = 0 → exec (.tuberVerifyDone b c) s = step 0 (tuberUp bank s)) ∧
      (first ≠ 0 → second = 0 → exec (.tuberVerifyDone b c) s = step 0 (tuberUp (1 - bank) s)) ∧
      (first ≠ 0 → second ≠ 0 → exec (.tuberVerifyDone b c) s = next (failStart (first * 256 + 1) s))) ∧
    (s.mode = Mode.fiddlehead → s.passed 1 = false →
      (2 ≤ s.marked.length → exec (.dramTrainingDone l) s = next (failStart (0x0400 + s.marked.foldl max 0) s)) ∧
      (s.marked.length < 2 → (∀ k ∈ l, s.marked.contains k = true) → exec (.dramTrainingDone l) s =
        step 1 (dramTrained s)) ∧
      (s.marked.length < 2 → n < 6 → s.marked.contains n = false → s.bitB .MEM_STRIPE_STATUS_FAILED 0 n = false →
        exec (.dramTrainingDone [n]) s = next (failStart (0x0400 + n) s))) ∧
    (s.mode = Mode.dormant → s.mod_.waking = true → exec (.dramTrainingDone []) s = next (wakeDone s)) ∧
    (s.mode = Mode.fiddlehead → s.passed 2 = false →
      let least := clamp 1 16 (s.get .POD_CFG_MIN_PODS)
      (s.usablePods < least → exec (.selftestDone l) s = next (failStart 0x0600 s)) ∧
      (least ≤ s.usablePods →
        exec (.selftestDone []) s = step 2 (syncMhz (assignPods (s.set .POD_SELFTEST_FAILED 0))))) ∧
    (s.mode = Mode.fiddlehead → s.passed 3 = false →
      (n < 2 → exec (.ringLockDone (some n) b) s = next (failStart (0x0C00 + n) s)) ∧
      (∀ p, s.testFailed = some p → p < 2 → exec (.ringLockDone none b) s = next (failStart (0x0C00 + p) s)) ∧
      (s.testFailed = none → (s.get .RNG_STATUS_STATE = 1 ∨ s.get .RNG_STATUS_STATE = 2) → exec (.ringLockDone none b) s = next s) ∧
      (s.testFailed = none → s.get .RNG_STATUS_STATE ≠ 1 → s.get .RNG_STATUS_STATE ≠ 2 →
        ∀ role waits, s.roleAtStart b = (role, waits) → exec (.ringLockDone none b) s =
        step 3 ((s.withMod (fun m => { m with role := some role })).set .CLM_STATUS_WAIT_PEER (b2n waits)))) ∧
    (s.mode = Mode.fiddlehead → s.passed 0 = true → s.passed 1 = true → s.passed 4 = false →
      let bank := s.get .TMB_STATUS_BANK
      let first := s.bankVerdict bank 2 b
      let second := s.bankVerdict (1 - bank) 2 c
      let go := fun k : Nat =>
        step 4 (startCoresAt (BitVec.ofNat 64 (fieldAt ((loadMain k s).bankImage (k * 2 + 1)) 32 8)) (loadMain k s))
      (first = 0 → exec (.mainImageLoaded b c) s = go bank) ∧
      (first ≠ 0 → second = 0 → exec (.mainImageLoaded b c) s = go (1 - bank)) ∧
      (first ≠ 0 → second ≠ 0 → exec (.mainImageLoaded b c) s = next (failStart (first * 256 + 2) s))) ∧
    (s.mode = Mode.fiddlehead → exec .startWatchdogExpire s = next (failStart 0x0800 (timeTo (s.mod_.startAt + 30000000000) s))) ∧
    (s.mode = Mode.frond ∨ s.mode = Mode.standby → exec .startCountClear s =
      next ((timeTo (s.mod_.upAt + 600000000000) s).set .MOD_START_COUNT_COUNT 0)) ∧
    (∀ k, stepDone k s = (s.setB .MOD_STEP_TIME_US k ((s.now - s.mod_.startAt) / 1000 - s.stepBegan k)).set .MOD_STATE_STEPS
      (setBit (s.get .MOD_STATE_STEPS) k)) ∧
    (∀ kind d, s.verdict kind d = 0 ↔ s.imageSound kind d = true ∧
      Config.verify 0 (derBytes (bytesAt d 256 512)) (d.take 256) (bytesAt d 832 384) = true ∧
      Config.verify 1 (bytesAt d 768 48) (d.take 256) (bytesAt d 1216 16224) = true)

/-- PWR_REQ is logged and takes a request its domain and mode allow (R8, R563); one for a held domain is deferred until Tuber clears the hold or 50 ms
pass (R549), a forced one is logged, zeroises and goes (R550); DOMAIN_POWER_COMPLETE ends it, once its blocks have left (R564, R567).
PWR_POD_MHZ takes a step at once, but throttling never raises a pod (R566, R593); above 90 and 100 °C the pods slow and level 3 is
raised (R594); age monitors add an hour and raise steps (R596, R600), a refresh pass is dated (R599). The PF sets UTC (R569), TIM_SAVE
keeps the time (R568), RESET_N holds the module off (R586). MCTP answers in every mode but OFF (R581): the Waithen commands as
R582 lays them out; the MCTP control answers are the model's choice (PRESUMED, log entry 34). -/
def Obligations.PowerTimeAndManagementCompleteAsCommanded : Prop :=
  ∀ (o : Origin) (d op v n : Nat) (data : List Byte) (needs : List (Nat × Nat)) (s : State),
    let next := fun t : State => Host.Outcome.next (φ := Fault) (ρ := Refusal) (settle t)
    (s.lit o .PWR_REQ → d < 64 → 0 < op → op < 4 →
      let word := d + 64 * op
      let old := s.regRaw .PWR_REQ 0
      let t := setRequest word (logBy o 1 (regBase .PWR_REQ) old ((setRequest word s).regRaw .PWR_REQ 0) s)
      (s.logTakes o = false → exec (.pwrReq o word) s = next ((logRefuse s).set .PWR_RESULT_RESULT 4)) ∧
      (s.logTakes o = true →
        (t.sharesDeferral d = true → op ≠ 1 → exec (.pwrReq o word) s = next t) ∧
        (t.sharesDeferral d = false ∨ op = 1 →
          (t.powerBusy = true → exec (.pwrReq o word) s = next (t.set .PWR_RESULT_RESULT 5)) ∧
          (t.powerBusy = false → t.powerRule d op ≠ 0 → exec (.pwrReq o word) s = next (t.set .PWR_RESULT_RESULT (t.powerRule d op))) ∧
          (t.powerBusy = false → t.powerRule d op = 0 →
            let u := t.set .PWR_RESULT_RESULT 0
            ((op = 1 ∨ t.bitB .PWR_HOLD_HELD 0 d = false) → exec (.pwrReq o word) s = next (runPower d op u)) ∧
            (op ≠ 1 → t.bitB .PWR_HOLD_HELD 0 d = true → o ≠ .hw → o ≠ .tuber → exec (.pwrReq o word) s = next (deferPower d op u)))))) ∧
    ((d ∈ [26, 27, 28, 29, 31, 32, 34, 35]) → s.mode = Mode.frond ∨ s.mode = Mode.maintenance → s.powerRule d op = 0) ∧
    (s.mode ≠ Mode.maintenance → s.powerRule 1 2 = 1) ∧ (18 ≤ d → d ≤ 19 → s.powerRule d op = 1) ∧
    (d ≠ 1 → s.bitB .PWR_HOLD_HELD 0 d = true → s.on .TMB_STATUS_RUNNING = true → ∀ t,
      domainDark d (s.setBitB .PWR_HOLD_HELD 0 d false) = t →
      (t.mod_.pwr = none → exec (.pwrHoldClear d) s = next t) ∧
      (∀ w, t.mod_.pwr = some w → w.domain = d → exec (.pwrHoldClear d) s =
        next (runPower d w.op ((t.set .PWR_RESULT_DEFERRED 0).withMod (fun m => { m with pwr := none }))))) ∧
    (∀ w, s.mod_.pwr = some w → exec .pwrHoldTimeout s = next (((((timeTo (w.since + 50000000) s).withMod (fun m =>
      { m with pwr := none })).set .PWR_RESULT_DEFERRED 0).set .PWR_RESULT_BUSY 0).set .PWR_RESULT_RESULT 2)) ∧
    (s.lit .pf .PWR_FORCE → ∀ dom want, s.forcedRequest = (dom, want) → 2 ≤ want →
      let reason := v % 65536
      let word := reason + 65536
      let t := (logBy .pf 1 (regBase .PWR_FORCE) (s.get .PWR_FORCE_REASON) reason s).set .PWR_FORCE_REASON reason
      (s.logTakes .pf = false → exec (.pwrForce .pf word) s = next ((logRefuse s).set .PWR_RESULT_RESULT 4)) ∧
      (s.logTakes .pf = true →
        (t.powerBusy = true ∧ t.mod_.pwr = none → exec (.pwrForce .pf word) s = next (t.set .PWR_RESULT_RESULT 5)) ∧
        (¬ (t.powerBusy = true ∧ t.mod_.pwr = none) →
          (t.powerRule dom want ≠ 0 → exec (.pwrForce .pf word) s = next (t.set .PWR_RESULT_RESULT (t.powerRule dom want))) ∧
          (t.powerRule dom want = 0 → t.logTakes .pf = true → exec (.pwrForce .pf word) s = next (forcePower dom want
            ((logBy .pf 11 dom reason 0 t).set .PWR_RESULT_RESULT 0)))))) ∧
    (o ≠ .pf → s.lit o .PWR_FORCE → s.logTakes o = true → exec (.pwrForce o v) s = next
      ((logBy o 1 (regBase .PWR_FORCE) (s.get .PWR_FORCE_REASON) (v % 65536) s).set .PWR_FORCE_REASON (v % 65536))) ∧
    (kvGet? s.mod_.pwrRun d = some op → (op = 1 ∨ s.holdsBlock d = false) → exec (.domainPowerComplete d) s =
      next (((domainEnd d op (s.withMod (fun m => { m with pwrRun := kvDel m.pwrRun d }))).set .PWR_RESULT_BUSY 0).set
        .PWR_RESULT_RESULT 0)) ∧
    (kvGet? s.mod_.pwrRun d = some op → op ≠ 1 → s.holdsBlock d = true → exec (.domainPowerComplete d) s = next s) ∧
    (s.lit o .PWR_POD_MHZ → n < 16 → ∀ t, s.setB .PWR_POD_MHZ_STEP n (v % 64) = t →
      (s.getB .PWR_POD_MHZ_NOW n = 0 → exec (.pwrPodMhzWrite o n v) s = next t) ∧
      (s.getB .PWR_POD_MHZ_NOW n ≠ 0 → t.mode = s.mode → s.mode ≠ Mode.crust →
        (t.on .PWR_TEMP_THROTTLE = false → exec (.pwrPodMhzWrite o n v) s = next (t.setB .PWR_POD_MHZ_NOW n (t.podStep n))) ∧
        (t.on .PWR_TEMP_THROTTLE = true → exec (.pwrPodMhzWrite o n v) s =
          next (t.setB .PWR_POD_MHZ_NOW n (min (s.getB .PWR_POD_MHZ_NOW n) (t.podStep n)))))) ∧
    (s.mode ≠ Mode.off → ∀ tj lid island t, ((s.set .PWR_TEMP_TJ_MAX tj).set .PWR_TEMP_LID lid).set .PWR_TEMP_ISLAND island = t →
      (800 < signed16 tj → exec (.thermalStep tj lid island) s = next (raiseUe 50 3 0 0 0 0 t)) ∧
      (720 < signed16 tj → signed16 tj ≤ 800 → exec (.thermalStep tj lid island) s =
        next (slowPods (if t.on .PWR_TEMP_THROTTLE then t else raiseCe 50 0 0 0 0 (t.set .PWR_TEMP_THROTTLE 1)))) ∧
      (696 ≤ signed16 tj → signed16 tj ≤ 720 → exec (.thermalStep tj lid island) s = next t) ∧
      (signed16 tj < 696 → t.on .PWR_TEMP_THROTTLE = true → exec (.thermalStep tj lid island) s = next (raisePods t))) ∧
    (s.mode ≠ Mode.off → (∀ q ∈ needs, q.1 < 36) →
      exec (.ageMonitorRead needs) s = next (capPods (needs.foldl ageIsland (s.bump .PWR_LIFE_HOURS_COUNT)))) ∧
    (s.on .PWR_REFRESH_RUNNING = true → s.mode = Mode.frond ∨ s.mode = Mode.standby → exec .refreshPassComplete s =
      next (((s.set .PWR_REFRESH_RUNNING 0).set .PWR_REFRESH_UTC_VALID (s.get .TIM_EPOCH_VALID)).set .PWR_REFRESH_LAST
        ((s.now + s.get .TIM_EPOCH_OFFSET) / 1000000000 % 2 ^ 32))) ∧
    (s.mode ≠ Mode.off →
      (s.logTakes .pf = true → exec (.timEpochWrite .pf v) s = next (((logBy .pf 8 0 s.epoch (v % 2 ^ 63 + 2 ^ 63) (dropLatch s)).set
        .TIM_EPOCH_OFFSET (v % 2 ^ 63)).set .TIM_EPOCH_VALID 1)) ∧
      (o ≠ .pf → exec (.timEpochWrite o v) s = next s) ∧
      exec .timSave s = next (s.withMod (fun m => { m with savedNow := s.now })) ∧
      exec .resetNAssert s = next ((losePower s).withMod (fun m => { m with resetHeld := true }))) ∧
    (s.mode = Mode.off → s.mod_.supplyLost = false → ∀ t, s.withMod (fun m => { m with resetHeld := false }) = t →
      exec .resetNRelease s = next (powerOn t.node t)) ∧
    ((s.mode = Mode.off ∨ s.on .MOD_MCTP_DISABLE = true) → ∀ i, i ∈ [Instr.setEndpointId op v, .getEndpointId, .getMctpVersionSupport n,
      .getMessageTypeSupport, .getVendorDefinedMessageSupport n, .getStatus n data, .getSensors n data, .requestMode n data,
      .getSpore n data] → exec i s = next s) ∧
    (s.mode ≠ Mode.off → s.on .MOD_MCTP_DISABLE = false →
      (op ≤ 1 → 8 ≤ v → v ≤ 254 → exec (.setEndpointId op v) s =
        next (control 1 0 (leBytes 1 0 ++ leBytes 1 v ++ leBytes 1 0) (s.set .MOD_MCTP_EID v))) ∧
      exec .getEndpointId s = next (control 2 0 (leBytes 1 (s.get .MOD_MCTP_EID) ++ leBytes 1 0 ++ leBytes 1 0) s) ∧
      exec (.getMctpVersionSupport 0xFF) s = next (control 4 0 (leBytes 1 1 ++ beBytes 4 0xF1F3F000) s) ∧
      exec .getMessageTypeSupport s = next (control 5 0 (leBytes 1 2 ++ leBytes 1 0 ++ leBytes 1 0x7E) s) ∧
      (∀ k t, s.draw = (k, t) → exec (.getVendorDefinedMessageSupport 0) s =
        next (control 6 0 (leBytes 1 0xFF ++ leBytes 1 0 ++ beBytes 2 0x5756 ++ beBytes 2 (Config.freeNat k)) t)) ∧
      (∀ volts amps watts t, measureInput s = ((volts, amps, watts), t) →
        let flags := b2n t.safeOff + 2 * b2n t.logFull + 4 * t.get .CLM_PAIR_PAIRED + 8 * t.get .CLM_STATUS_HB_LOST
        exec (.getStatus n []) s = next (waithen 1 n 0 (leBytes 1 t.mode ++ leBytes 1 (t.get .MOD_STATE_PENDING) ++
          leBytes 4 (t.get .MOD_CAUSE_CODE + t.get .MOD_CAUSE_ORIGIN * 65536) ++ leBytes 1 (t.get .MOD_START_COUNT_COUNT) ++
          leBytes 1 flags ++ leBytes 8 (t.get .FLT_STATUS_SRC) ++ leBytes 4 watts) t) ∧
        exec (.getSensors n []) s = next (waithen 2 n 0 (leBytes 2 volts ++ leBytes 2 amps ++ leBytes 2 (t.get .PWR_TEMP_TJ_MAX) ++
          leBytes 2 (t.get .PWR_TEMP_LID) ++ leBytes 1 (t.get .PWR_AGE_STEPS)) t)) ∧
      (data.length ≠ 1 → exec (.requestMode n data) s = next (waithen 3 n 3 [] s)) ∧
      (data.length = 1 → fieldAt data 0 1 = 0 ∨ 3 < fieldAt data 0 1 → exec (.requestMode n data) s = next (waithen 3 n 2 [] s)) ∧
      (data.length = 1 → 0 < fieldAt data 0 1 → fieldAt data 0 1 ≤ 3 → ∀ code,
        (if !s.mayRequest (fieldAt data 0 1) then 4 else if !s.logTakes .smbus then 0x80 else 0) = code →
        exec (.requestMode n data) s = next (requestedMode (fieldAt data 0 1) (waithen 3 n code [] s))) ∧
      (data.length = 3 → 0 < fieldAt data 2 1 → fieldAt data 2 1 ≤ 64 → fieldAt data 0 2 + fieldAt data 2 1 ≤ 4096 →
        exec (.getSpore n data) s = next (waithen 4 n 0 (bytesAt s.sporePage (fieldAt data 0 2) (fieldAt data 2 1)) s)))

/-- A step takes the command at the front of the queue and is `exec` of it with the queue's rest (the block's queue is first
in, first out). -/
def Obligations.StepRunsTheFrontCommand : Prop :=
  ∀ (c : Instr) (s : State), step { s with pending := c :: s.pending } = exec c s

/-- With no command waiting the block's clock ticks, in every mode but OFF, where the state stays as it is (the model's choice,
DESIGN CHOICE, log entry 4): TIM_NOW is one higher, and then the other effects of a tick follow. -/
def Obligations.IdleStepTicksTheClock : Prop :=
  ∀ (s : State), s.pending = [] →
    (s.mode = Mode.off → step s = .next s) ∧
    (s.mode ≠ Mode.off → step s = .next (settle (wrapDue (drainLanes (panicTime (drainOne
      (s.set .TIM_NOW_NS (min (s.get .TIM_NOW_NS + 1) (2 ^ 64 - 1)))))))))

/-- Every command completes but a MEM_READ or MEM_WRITE that names memory past the DRAM, which stops as `noSuchLine` (R271):
no command is refused, so a run whose waiting commands touch memory that exists cannot stop. Row by row, and in every state,
a command of the block that is no access to a line and no instruction of a core completes in what its row does, settled. -/
def Obligations.OnlyMissingMemoryStopsTheBlock : Prop :=
  let next := fun t : State => Host.Outcome.next (φ := Fault) (ρ := Refusal) (settle t)
  (∀ (i : Instr) (s : State), inDram i = true → ∃ t, exec i s = .next t) ∧
  (∀ (i : Instr) (s : State), inDram i = false → ∃ a, exec i s = .fault (.noSuchLine a)) ∧
  (∀ s : State, s.safe = true → ∃ t, step s = .next t) ∧
  ((∀ by_ addr size v s, exec (.registerWrite by_ addr size v) s = next (doRegisterWrite by_ addr size v s)) ∧
   (∀ by_ addr s, exec (.lowHalfRead by_ addr) s = next (doLowHalfRead by_ addr s)) ∧
   (∀ sch len s, exec (.hostReadIssue sch len) s = next (doHostReadIssue sch len s)) ∧
   (∀ sch data s, exec (.hostReadCompletion sch data) s = next (doHostReadCompletion sch data s)) ∧
   (∀ by_ s, exec (.epbStart by_) s = next (doEpbStart by_ s)) ∧
   (∀ by_ uj s, exec (.epbStop by_ uj) s = next (doEpbStop by_ uj s)) ∧
   (∀ by_ s, exec (.epbCal by_) s = next (doEpbCal by_ s)) ∧
   (∀ traffic mw s, exec (.epbCalDone traffic mw) s = next (doEpbCalDone traffic mw s)) ∧
   (∀ bytes uj s, exec (.epbLiveUpdate bytes uj) s = next (doEpbLiveUpdate bytes uj s)) ∧
   (∀ s, exec .stripeBufferGrant s = next (doStripeBufferGrant s)) ∧
   (∀ fn off data s, exec (.doorbellWrite fn off data) s = next (doDoorbellWrite fn off data s)) ∧
   (∀ fn s, exec (.ctlStart fn) s = next (doCtlStart fn s)) ∧
   (∀ fn s, exec (.ctlHalt fn) s = next (doCtlHalt fn s)) ∧
   (∀ fn s, exec (.ctlClear fn) s = next (doCtlClear fn s)) ∧
   (∀ fn s, exec (.ctlResume fn) s = next (doCtlResume fn s)) ∧
   (∀ fn s, exec (.ctlTest fn) s = next (doCtlTest fn s)) ∧
   (∀ fn s, exec (.controlWordInvalid fn) s = next (doControlWordInvalid fn s)) ∧
   (∀ sch s, exec (.engineSlotGrant sch) s = next (doEngineSlotGrant sch s)) ∧
   (∀ sch data s, exec (.orderFetch sch data) s = next (doOrderFetch sch data s)) ∧
   (∀ sch list s, exec (.ordIngest sch list) s = next (doOrdIngest sch list s))) ∧
  ((∀ sch s, exec (.ordChunk sch) s = next (doOrdChunk sch s)) ∧
   (∀ sch s, exec (.ordProbe sch) s = next (doOrdProbe sch s)) ∧
   (∀ sch s, exec (.ordPack sch) s = next (doOrdPack sch s)) ∧
   (∀ sch s, exec (.ordSeal sch) s = next (doOrdSeal sch s)) ∧
   (∀ sch block s, exec (.ordSpread sch block) s = next (doOrdSpread sch block s)) ∧
   (∀ sch s, exec (.ordDigest sch) s = next (doOrdDigest sch s)) ∧
   (∀ sch s, exec (.ordCommit sch) s = next (doOrdCommit sch s)) ∧
   (∀ sch map s, exec (.ordGather sch map) s = next (doOrdGather sch map s)) ∧
   (∀ sch s, exec (.ordUnseal sch) s = next (doOrdUnseal sch s)) ∧
   (∀ sch s, exec (.ordUnpack sch) s = next (doOrdUnpack sch s)) ∧
   (∀ sch list digFault s, exec (.ordEmit sch list digFault) s = next (doOrdEmit sch list digFault s)) ∧
   (∀ sch s, exec (.ordVerify sch) s = next (doOrdVerify sch s)) ∧
   (∀ sch block list dataOut s, exec (.ordMedia sch block list dataOut) s = next (doOrdMedia sch block list dataOut s)) ∧
   (∀ sch s, exec (.ordZone sch) s = next (doOrdZone sch s)) ∧
   (∀ sch s, exec (.ordJump sch) s = next (doOrdJump sch s)) ∧
   (∀ sch s, exec (.ordBranch sch) s = next (doOrdBranch sch s)) ∧
   (∀ sch s, exec (.ordWait sch) s = next (doOrdWait sch s)) ∧
   (∀ sch s, exec (.waitExpire sch) s = next (doWaitExpire sch s)) ∧
   (∀ sch s, exec (.ordNote sch) s = next (doOrdNote sch s)) ∧
   (∀ sch arg s, exec (.ordCallCore sch arg) s = next (doOrdCallCore sch arg s))) ∧
  ((∀ sch s, exec (.ordEnd sch) s = next (doOrdEnd sch s)) ∧
   (∀ sch s, exec (.callPost sch) s = next (doCallPost sch s)) ∧
   (∀ by_ v s, exec (.callAnswer by_ v) s = next (doCallAnswer by_ v s)) ∧
   (∀ sch s, exec (.callCoreTimeout sch) s = next (doCallCoreTimeout sch s)) ∧
   (∀ by_ s, exec (.cohReady by_) s = next (doCohReady by_ s)) ∧
   (∀ sch s, exec (.clearDrained sch) s = next (doClearDrained sch s)) ∧
   (∀ fn cq s, exec (.statusWordPost fn cq) s = next (doStatusWordPost fn cq s)) ∧
   (∀ fn cq s, exec (.cqCoalesceTimeout fn cq) s = next (doCqCoalesceTimeout fn cq s)) ∧
   (∀ s, exec .journalRecordDurable s = next (doJournalRecordDurable s)) ∧
   (∀ fn cq s, exec (.retireRecordWrite fn cq) s = next (doRetireRecordWrite fn cq s)) ∧
   (∀ s, exec .journalCarry s = next (doJournalCarry s)) ∧
   (∀ s, exec .contextAgeTick s = next (doContextAgeTick s)) ∧
   (∀ sch s, exec (.contextFill sch) s = next (doContextFill sch s)) ∧
   (∀ s, exec .journalReplay s = next (doJournalReplay s)) ∧
   (∀ sch s, exec (.redriveStart sch) s = next (doRedriveStart sch s)) ∧
   (∀ fn clearQueues s, exec (.functionReset fn clearQueues) s = next (doFunctionReset fn clearQueues s)) ∧
   (∀ fn s, exec (.functionResetComplete fn) s = next (doFunctionResetComplete fn s)) ∧
   (∀ by_ s, exec (.schAssign by_) s = next (doSchAssign by_ 1 s)) ∧
   (∀ by_ s, exec (.schRelease by_) s = next (doSchRelease by_ 2 s)) ∧
   (∀ s, exec .streamPlaceGrant s = next (doStreamPlaceGrant s))) ∧
  ((∀ sch n s, exec (.chunkInputData sch n) s = next (doChunkInputData sch n s)) ∧
   (∀ sch s, exec (.probeLookup sch) s = next (doProbeLookup sch s)) ∧
   (∀ by_ s, exec (.domCreate by_) s = next (doDomCreate by_ 1 s)) ∧
   (∀ by_ s, exec (.domDestroy by_) s = next (doDomDestroy by_ 2 s)) ∧
   (∀ by_ s, exec (.domSet by_) s = next (doDomSet by_ 3 s)) ∧
   (∀ ok s, exec (.domainCmdComplete ok) s = next (doDomainCmdComplete ok s)) ∧
   (∀ by_ s, exec (.idxClear by_) s = next (doIdxClear by_ 1 s)) ∧
   (∀ s, exec .idxClearComplete s = next (doIdxClearComplete s)) ∧
   (∀ by_ s, exec (.idxPurge by_) s = next (doIdxPurge by_ 2 s)) ∧
   (∀ slot s, exec (.purgeScanComplete slot) s = next (doPurgeScanComplete slot s)) ∧
   (∀ by_ mask s, exec (.purgeSlotFree by_ mask) s = next (doPurgeSlotFree by_ mask s)) ∧
   (∀ by_ s, exec (.idxLoad by_) s = next (doIdxLoad by_ 3 s)) ∧
   (∀ s, exec .idxLoadComplete s = next (doIdxLoadComplete s)) ∧
   (∀ sch ordinal engine mismatch s, exec (.packChunkDone sch ordinal engine mismatch) s = next (doPackChunkDone sch ordinal engine mismatch s)) ∧
   (∀ sch s, exec (.unpackChunk sch) s = next (doUnpackChunk sch s)) ∧
   (∀ sch lanePair mismatch s, exec (.sealChunk sch lanePair mismatch) s = next (doSealChunk sch lanePair mismatch s)) ∧
   (∀ sch mismatch s, exec (.unsealChunk sch mismatch) s = next (doUnsealChunk sch mismatch s)) ∧
   (∀ handle unwraps s, exec (.keySlotLoad handle unwraps) s = next (doKeySlotLoad handle unwraps s)) ∧
   (∀ sch synFault digFault s, exec (.spreadChunk sch synFault digFault) s = next (doSpreadChunk sch synFault digFault s)) ∧
   (∀ stripe shard answer s, exec (.shardWriteIssue stripe shard answer) s = next (doShardWriteIssue stripe shard answer s))) ∧
  ((∀ stripe shard status s, exec (.shardWriteComplete stripe shard status) s = next (doShardWriteComplete stripe shard status s)) ∧
   (∀ sch s, exec (.commitDlogWrite sch) s = next (doCommitDlogWrite sch s)) ∧
   (∀ by_ v s, exec (.dlogHeadWrite by_ v) s = next (doDlogHeadWrite by_ v s)) ∧
   (∀ s, exec .dirRequestPost s = next (doDirRequestPost s)) ∧
   (∀ by_ v s, exec (.dreqHeadWrite by_ v) s = next (doDreqHeadWrite by_ v s)) ∧
   (∀ by_ s, exec (.dreqRearm by_) s = next (doDreqRearm by_ s)) ∧
   (∀ by_ kind s, exec (.dirFilled by_ kind) s = next (doDirFilled by_ kind s)) ∧
   (∀ by_ kind s, exec (.dirAbsent by_ kind) s = next (doDirAbsent by_ kind s)) ∧
   (∀ by_ s, exec (.dirFlush by_) s = next (doDirFlush by_ s)) ∧
   (∀ s, exec .dirFlushComplete s = next (doDirFlushComplete s)) ∧
   (∀ s, exec .epochClose s = next (doEpochClose s)) ∧
   (∀ s, exec .epochSigned s = next (doEpochSigned s)) ∧
   (∀ statuses s, exec (.manifestWriteComplete statuses) s = next (doManifestWriteComplete statuses s)) ∧
   (∀ s, exec .manifestNoticePost s = next (doManifestNoticePost s)) ∧
   (∀ s, exec .manifestRetry s = next (doManifestRetry s)) ∧
   (∀ lane up rate sasAddr s, exec (.laneLinkChange lane up rate sasAddr) s = next (doLaneLinkChange lane up rate sasAddr s)) ∧
   (∀ by_ s, exec (.discRun by_) s = next (doDiscRun by_ s)) ∧
   (∀ lane s, exec (.broadcastChange lane) s = next (doBroadcastChange lane s)) ∧
   (∀ found expanders s, exec (.discoveryComplete found expanders) s = next (doDiscoveryComplete found expanders s)) ∧
   (∀ by_ s, exec (.devRelease by_) s = next (doDevRelease by_ 1 s))) ∧
  ((∀ cmd s, exec (.mediaCommandTimeout cmd) s = next (doMediaCommandTimeout cmd s)) ∧
   (∀ sch status data s, exec (.mediaOrderComplete sch status data) s = next (doMediaOrderComplete sch status data s)) ∧
   (∀ dev status s, exec (.syncCacheComplete dev status) s = next (doSyncCacheComplete dev status s)) ∧
   (∀ dev status s, exec (.writeFilemarksComplete dev status) s = next (doWriteFilemarksComplete dev status s)) ∧
   (∀ dev answer s, exec (.scrubPace dev answer) s = next (doScrubPace dev answer s)) ∧
   (∀ dev status s, exec (.scrubVerifyComplete dev status) s = next (doScrubVerifyComplete dev status s)) ∧
   (∀ s, exec .mediaEventPost s = next (doMediaEventPost s)) ∧
   (∀ slot s, exec (.injectReorderRelease slot) s = next (doInjectReorderRelease slot s)) ∧
   (∀ stripe channel s, exec (.channelTimeout stripe channel) s = next (doChannelTimeout stripe channel s)) ∧
   (∀ s, exec .frontEndSwitchComplete s = next (doFrontEndSwitchComplete s)) ∧
   (∀ by_ stripe s, exec (.stripeMark by_ stripe) s = next (doStripeMark by_ (stripeCmdWord 1 stripe) stripe s)) ∧
   (∀ by_ stripe s, exec (.stripeClear by_ stripe) s = next (doStripeClear by_ (stripeCmdWord 2 stripe) stripe s)) ∧
   (∀ group s, exec (.memAgePromote group) s = next (doMemAgePromote group s)) ∧
   (∀ group s, exec (.refreshDue group) s = next (doRefreshDue group s)) ∧
   (∀ rates s, exec (.mr4Poll rates) s = next (doMr4Poll rates s)) ∧
   (∀ stripe channel drift s, exec (.dqsOscCheck stripe channel drift) s = next (doDqsOscCheck stripe channel drift s)) ∧
   (∀ stripe channel ok s, exec (.channelRetrainComplete stripe channel ok) s = next (doChannelRetrainComplete stripe channel ok s)) ∧
   (∀ errs s, exec (.patrolScrubRead errs) s = next (doPatrolScrubRead errs s)) ∧
   (∀ s, exec .mramWriteComplete s = next (doMramWriteComplete s)) ∧
   (∀ area block badA badB s, exec (.jnlScrubRead area block badA badB) s = next (doJnlScrubRead area block badA badB s))) ∧
  ((∀ die s, exec (.mramDieFail die) s = next (doMramDieFail die s)) ∧
   (∀ s, exec .supplyFault s = next (doSupplyFault s)) ∧
   (∀ pod core s, exec (.coreStart pod core) s = next (doCoreStart pod core s)) ∧
   (∀ pod core s, exec (.interruptTake pod core) s = next (doInterruptTake pod core s)) ∧
   (∀ by_ pod core s, exec (.ipiRaise by_ pod core) s = next (doIpiRaise by_ pod core s)) ∧
   (∀ pod core s, exec (.timecmpMatch pod core) s = next (doTimecmpMatch pod core s)) ∧
   (∀ pod line s, exec (.getShared pod line) s = next (doGetShared pod line s)) ∧
   (∀ pod line s, exec (.getExclusive pod line) s = next (doGetExclusive pod line s)) ∧
   (∀ pod line s, exec (.putLine pod line) s = next (doPutLine pod line s)) ∧
   (∀ pod line s, exec (.snoop pod line) s = next (doSnoop pod line s)) ∧
   (∀ pod line s, exec (.cohNackRetry pod line) s = next (doCohNackRetry pod line s)) ∧
   (∀ agent s, exec (.cohAgentTimeout agent) s = next (doCohAgentTimeout agent s)) ∧
   (∀ regionOk s, exec (.coreDomainRestart regionOk) s = next (doCoreDomainRestart regionOk s)) ∧
   (∀ array outcome s, exec (.cacheScrub array outcome) s = next (doCacheScrub array outcome s)) ∧
   (∀ pod lanes retire checkpointBad s,
     exec (.lockstepMismatch pod lanes retire checkpointBad) s = next (doLockstepMismatch pod lanes retire checkpointBad s)) ∧
   (∀ pod s, exec (.comparatorFault pod) s = next (doComparatorFault pod s)) ∧
   (∀ pod s, exec (.retrySuccess pod) s = next (doRetrySuccess pod s)) ∧
   (∀ pod s, exec (.sparingTimeout pod) s = next (doSparingTimeout pod s)) ∧
   (∀ pod s, exec (.sparingComplete pod) s = next (doSparingComplete pod s)) ∧
   (∀ by_ pod s, exec (.podSplit by_ pod) s = next (doPodSplit by_ pod s))) ∧
  ((∀ by_ pod s, exec (.podPark by_ pod) s = next (doPodPark by_ pod s)) ∧
   (∀ by_ pod parityOk s, exec (.podCheck by_ pod parityOk) s = next (doPodCheck by_ pod parityOk s)) ∧
   (∀ by_ pod s, exec (.warmRestart by_ pod) s = next (doWarmRestart by_ pod s)) ∧
   (∀ ev s, exec (.faultEvent ev) s = next (doFaultEvent ev s)) ∧
   (∀ region s, exec (.regionRestartComplete region) s = next (doRegionRestartComplete region s)) ∧
   (∀ by_ mask s, exec (.fltAck by_ mask) s = next (doFltAck by_ mask s)) ∧
   (∀ by_ s, exec (.fltCaptureRearm by_) s = next (doFltCaptureRearm by_ s)) ∧
   (∀ by_ v s, exec (.fltInject by_ v) s = next (doFltInject by_ v s)) ∧
   (∀ copyB s, exec (.collectorHeartbeatMiss copyB) s = next (doCollectorHeartbeatMiss copyB s)) ∧
   (∀ port f crcOk hdrOk s, exec (.ringFrameReceive port f crcOk hdrOk) s = next (doRingFrameReceive port f crcOk hdrOk s)) ∧
   (∀ src cls cum bitmap s, exec (.ringAck src cls cum bitmap) s = next (doRingAck src cls cum bitmap s)) ∧
   (∀ src cls claim seq s, exec (.claimNack src cls claim seq) s = next (doClaimNack src cls claim seq s)) ∧
   (∀ src mode serial pairId claim session s,
     exec (.ringAnnounce src mode serial pairId claim session) s = next (doRingAnnounce src mode serial pairId claim session s)) ∧
   (∀ s, exec .announceTick s = next (doAnnounceTick s)) ∧
   (∀ node s, exec (.nodeListTimeout node) s = next (doNodeListTimeout node s)) ∧
   (∀ src port s, exec (.ringLeave src port) s = next (doRingLeave src port s)) ∧
   (∀ src pairId claim s, exec (.ringClaim src pairId claim) s = next (doRingClaim src pairId claim s)) ∧
   (∀ src pairId s, exec (.ringRemove src pairId) s = next (doRingRemove src pairId s)) ∧
   (∀ src seq m s, exec (.mirrorMessage src seq m) s = next (doMirrorMessage src seq m s)) ∧
   (∀ h addr s, exec (.remoteStart h addr) s = next (doRemoteStart h addr s))) ∧
  ((∀ h ctl tag s, exec (.remoteControl h ctl tag) s = next (doRemoteControl h ctl tag s)) ∧
   (∀ h data s, exec (.remoteRead h data) s = next (doRemoteRead h data s)) ∧
   (∀ h data s, exec (.readData h data) s = next (doReadData h data s)) ∧
   (∀ h bulk data s, exec (.remoteWrite h bulk data) s = next (doRemoteWrite h bulk data s)) ∧
   (∀ h word s, exec (.remoteStatus h word) s = next (doRemoteStatus h word s)) ∧
   (∀ h s, exec (.remoteQuery h) s = next (doRemoteQuery h s)) ∧
   (∀ h posted s, exec (.remoteAnswer h posted) s = next (doRemoteAnswer h posted s)) ∧
   (∀ h gen s, exec (.remoteReset h gen) s = next (doRemoteReset h gen s)) ∧
   (∀ port s, exec (.frameTransmit port) s = next (doFrameTransmit port s)) ∧
   (∀ port cls units s, exec (.creditReturn port cls units) s = next (doCreditReturn port cls units s)) ∧
   (∀ dst cls seq s, exec (.retxTimeout dst cls seq) s = next (doRetxTimeout dst cls seq s)) ∧
   (∀ port s, exec (.portLoss port) s = next (doPortLoss port s)) ∧
   (∀ port s, exec (.portUnwrap port) s = next (doPortUnwrap port s)) ∧
   (∀ port s, exec (.spanLockTimeout port) s = next (doSpanLockTimeout port s)) ∧
   (∀ passW passE s, exec (.loopbackTestComplete passW passE) s = next (doLoopbackTestComplete passW passE s)) ∧
   (∀ sensedBypass s, exec (.memsPositionCheck sensedBypass) s = next (doMemsPositionCheck sensedBypass s)) ∧
   (∀ by_ v s, exec (.rngInsertWrite by_ v) s = next (doRngInsertWrite by_ v s)) ∧
   (∀ s, exec .leaveBypass s = next (doLeaveBypass s)) ∧
   (∀ slot s, exec (.ringInjectRelease slot) s = next (doRingInjectRelease slot s)) ∧
   (∀ wasUp refclk s, exec (.hostPortReset wasUp refclk) s = next (doHostPortReset wasUp refclk s))) ∧
  ((∀ upcfg speed width s, exec (.linkUpconfigure upcfg speed width) s = next (doLinkUpconfigure upcfg speed width s)) ∧
   (∀ fn reg wr s, exec (.configRequest fn reg wr) s = next (doConfigRequest fn reg wr s)) ∧
   (∀ vf s, exec (.flr vf) s = next (doFlr vf s)) ∧
   (∀ s, exec .vfEnableClear s = next (doVfEnableClear s)) ∧
   (∀ fn d3 s, exec (.powerStateChange fn d3) s = next (doPowerStateChange fn d3 s)) ∧
   (∀ fn cq base v s, exec (.fnCqCfgWrite fn cq base v) s = next (doFnCqCfgWrite fn cq base v s)) ∧
   (∀ fn cq v s, exec (.fnCqHeadWrite fn cq v) s = next (doFnCqHeadWrite fn cq v s)) ∧
   (∀ by_ s, exec (.vfCreate by_) s = next (doVfCreate by_ 1 s)) ∧
   (∀ by_ s, exec (.vfDestroy by_) s = next (doVfDestroy by_ 2 s)) ∧
   (∀ by_ s, exec (.vfmReset by_) s = next (doVfmReset by_ 3 s)) ∧
   (∀ by_ s, exec (.vfmPause by_) s = next (doVfmPause by_ 4 s)) ∧
   (∀ by_ s, exec (.vfmUnpause by_) s = next (doVfmUnpause by_ 5 s)) ∧
   (∀ by_ s, exec (.vfmSetwin by_) s = next (doVfmSetwin by_ 6 s)) ∧
   (∀ fromPf vf len s, exec (.mailboxSend fromPf vf len) s = next (doMailboxSend fromPf vf len s)) ∧
   (∀ fromPf vf s, exec (.mailboxAck fromPf vf) s = next (doMailboxAck fromPf vf s)) ∧
   (∀ by_ s, exec (.dirtySync by_) s = next (doDirtySync by_ s)) ∧
   (∀ fn s, exec (.dirtySyncComplete fn) s = next (doDirtySyncComplete fn s)) ∧
   (∀ s, exec .heartbeatSend s = next (doHeartbeatSend s)) ∧
   (∀ frame s, exec (.heartbeatReceive frame) s = next (doHeartbeatReceive frame s)) ∧
   (∀ s, exec .heartbeatLoss s = next (doHeartbeatLoss s))) ∧
  ((∀ s, exec .takeoverConfirm s = next (doTakeoverConfirm s)) ∧
   (∀ s, exec .takeoverComplete s = next (doTakeoverComplete s)) ∧
   (∀ holder s, exec (.isolationCheck holder) s = next (doIsolationCheck holder s)) ∧
   (∀ by_ s, exec (.clmTakeover by_) s = next (doClmTakeover by_ 1 s)) ∧
   (∀ by_ s, exec (.forceActive by_) s = next (doForceActive by_ 2 s)) ∧
   (∀ by_ s, exec (.clmDetach by_) s = next (doClmDetach by_ 3 s)) ∧
   (∀ by_ s, exec (.clmResync by_) s = next (doClmResync by_ 4 s)) ∧
   (∀ peerDigest s, exec (.resyncComplete peerDigest) s = next (doResyncComplete peerDigest s)) ∧
   (∀ by_ s, exec (.switchback by_) s = next (doSwitchback by_ 1 s)) ∧
   (∀ s, exec .tmbAttest s = next (doTmbAttest s)) ∧
   (∀ s, exec .tmbCerts s = next (doTmbCerts s)) ∧
   (∀ s, exec .tmbRandom s = next (doTmbRandom s)) ∧
   (∀ s, exec .tmbKeyCreate s = next (doTmbKeyCreate s)) ∧
   (∀ s, exec .tmbKeyImport s = next (doTmbKeyImport s)) ∧
   (∀ s, exec .tmbKeyRevoke s = next (doTmbKeyRevoke s)) ∧
   (∀ s, exec .tmbKekProvision s = next (doTmbKekProvision s)) ∧
   (∀ s, exec .tmbFuseSlot s = next (doTmbFuseSlot s)) ∧
   (∀ s, exec .tmbFuseRevoke s = next (doTmbFuseRevoke s)) ∧
   (∀ s, exec .tmbRollback s = next (doTmbRollback s)) ∧
   (∀ s, exec .tmbDebugKill s = next (doTmbDebugKill s))) ∧
  ((∀ by_ s, exec (.tmbKick by_) s = next (doTmbKick by_ s)) ∧
   (∀ s, exec .tuberWatchdogExpire s = next (doTuberWatchdogExpire s)) ∧
   (∀ readOk s, exec (.tuberRestartComplete readOk) s = next (doTuberRestartComplete readOk s)) ∧
   (∀ s, exec .entropyHealthFail s = next (doEntropyHealthFail s)) ∧
   (∀ by_ v s, exec (.pwrReq by_ v) s = next (doPwrReq by_ v s)) ∧
   (∀ domain s, exec (.pwrHoldClear domain) s = next (doPwrHoldClear domain s)) ∧
   (∀ s, exec .pwrHoldTimeout s = next (doPwrHoldTimeout s)) ∧
   (∀ by_ v s, exec (.pwrForce by_ v) s = next (doPwrForce by_ v s)) ∧
   (∀ domain s, exec (.domainPowerComplete domain) s = next (doDomainPowerComplete domain s)) ∧
   (∀ by_ pod v s, exec (.pwrPodMhzWrite by_ pod v) s = next (doPwrPodMhzWrite by_ pod v s)) ∧
   (∀ by_ v s, exec (.logExportedWrite by_ v) s = next (doLogExportedWrite by_ v s)) ∧
   (∀ by_ v s, exec (.logExportEnable by_ v) s = next (doLogExportEnable by_ v s)) ∧
   (∀ s, exec .logEntryExport s = next (doLogEntryExport s)) ∧
   (∀ badSeq s, exec (.checkpointClose badSeq) s = next (doCheckpointClose badSeq s)) ∧
   (∀ s, exec .checkpointSigned s = next (doCheckpointSigned s)) ∧
   (∀ by_ v s, exec (.logCkptExportedWrite by_ v) s = next (doLogCkptExportedWrite by_ v s)) ∧
   (∀ by_ level s, exec (.debugReq by_ level) s = next (doDebugReq by_ level s)) ∧
   (∀ by_ response s, exec (.debugCheck by_ response) s = next (doDebugCheck by_ response s)) ∧
   (∀ s, exec .debugChallengeExpire s = next (doDebugChallengeExpire s)) ∧
   (∀ by_ retain clear s, exec (.modRestart by_ retain clear) s = next (doModRestart by_ (1 + 8 * b2n retain + 16 * b2n clear) retain clear s))) ∧
  ((∀ by_ s, exec (.modDormant by_) s = next (doModDormant by_ 2 s)) ∧
   (∀ by_ s, exec (.modWake by_) s = next (doModWake by_ 3 s)) ∧
   (∀ by_ s, exec (.modMaintenance by_) s = next (doModMaintenance by_ 4 s)) ∧
   (∀ s, exec .maintenanceDrainTimeout s = next (doMaintenanceDrainTimeout s)) ∧
   (∀ by_ set s, exec (.modInstall by_ set) s = next (doModInstall by_ 5 set s)) ∧
   (∀ s, exec .wakeTimeReached s = next (doWakeTimeReached s)) ∧
   (∀ cause s, exec (.wakeFail cause) s = next (doWakeFail cause s)) ∧
   (∀ posId s, exec (.supplyInRegulation posId) s = next (doSupplyInRegulation posId s)) ∧
   (∀ s, exec .sporeReady s = next (doSporeReady s)) ∧
   (∀ s, exec .sporeRetryDelay s = next (doSporeRetryDelay s)) ∧
   (∀ bootRead otherRead s, exec (.tuberVerifyDone bootRead otherRead) s = next (doTuberVerifyDone bootRead otherRead s)) ∧
   (∀ failedStripes s, exec (.dramTrainingDone failedStripes) s = next (doDramTrainingDone failedStripes s)) ∧
   (∀ failedPods s, exec (.selftestDone failedPods) s = next (doSelftestDone failedPods s)) ∧
   (∀ failPort peerKeyAbove s, exec (.ringLockDone failPort peerKeyAbove) s = next (doRingLockDone failPort peerKeyAbove s)) ∧
   (∀ bankRead otherRead s, exec (.mainImageLoaded bankRead otherRead) s = next (doMainImageLoaded bankRead otherRead s)) ∧
   (∀ s, exec .startWatchdogExpire s = next (doStartWatchdogExpire s)) ∧
   (∀ s, exec .startCountClear s = next (doStartCountClear s)) ∧
   (∀ by_ v s, exec (.timEpochWrite by_ v) s = next (doTimEpochWrite by_ v s)) ∧
   (∀ s, exec .timSave s = next (doTimSave s)) ∧
   (∀ op eid s, exec (.setEndpointId op eid) s = next (doSetEndpointId op eid s))) ∧
  ((∀ s, exec .getEndpointId s = next (doGetEndpointId s)) ∧
   (∀ msgType s, exec (.getMctpVersionSupport msgType) s = next (doGetMctpVersionSupport msgType s)) ∧
   (∀ s, exec .getMessageTypeSupport s = next (doGetMessageTypeSupport s)) ∧
   (∀ selector s, exec (.getVendorDefinedMessageSupport selector) s = next (doGetVendorDefinedMessageSupport selector s)) ∧
   (∀ inst data s, exec (.getStatus inst data) s = next (doGetStatus inst data s)) ∧
   (∀ inst data s, exec (.getSensors inst data) s = next (doGetSensors inst data s)) ∧
   (∀ inst data s, exec (.requestMode inst data) s = next (doRequestMode inst data s)) ∧
   (∀ inst data s, exec (.getSpore inst data) s = next (doGetSpore inst data s)) ∧
   (∀ s, exec .resetNAssert s = next (doResetNAssert s)) ∧
   (∀ s, exec .resetNRelease s = next (doResetNRelease s)) ∧
   (∀ tj lid island s, exec (.thermalStep tj lid island) s = next (doThermalStep tj lid island s)) ∧
   (∀ needs s, exec (.ageMonitorRead needs) s = next (doAgeMonitorRead needs s)) ∧
   (∀ s, exec .refreshPassComplete s = next (doRefreshPassComplete s)) ∧
   (∀ sch stripe shard status data s,
     exec (.shardReadComplete sch stripe shard status data) s = next (doShardReadComplete sch stripe shard status data s)) ∧
   (∀ dev kind status data s, exec (.persistentReserveComplete dev kind status data) s = next (doPersistentReserveComplete dev kind status data s)) ∧
   (∀ pod line s, exec (.fillData pod line) s = next (doFillData pod line s)) ∧
   (∀ pod line s, exec (.putAck pod line) s = next (doPutAck pod line s)) ∧
   (∀ pod line s, exec (.snoopAnswer pod line) s = next (doSnoopAnswer pod line s)) ∧
   (∀ s, exec .entropyStartUpTestPass s = next (doEntropyStartUpTestPass s)))

/-- Every step keeps the invariant of the shared interrupt sources and of Tuber's holds: on every core the sources 3 to 6
pend exactly while their unit has something for the cores (*Interrupt sources*: mailbox reply, CALL-CORE arrival,
stripe-directory request, media event), and PWR_HOLD reads as Tuber holds domains (*Power against Tuber-held domains*). -/
def Obligations.EveryStepKeepsLevelsAndHolds : Prop :=
  ∀ s t : State, s.Inv → step s = .next t → t.Inv

/-- The invariant of `EveryStepKeepsLevelsAndHolds` holds at reset. -/
def Obligations.ResetHasLevelsAndHolds : Prop := State.reset.Inv

/-- What follows a command is next to nothing when nothing waits: with no reaction queued, the module in FROND with no mode
change pending and not outclaimed, no message held for a DORMANT node, no switch-back, nothing mirrored, no media command out or
fetched for, no closed epoch, no stripe with shards to synchronize, no restore that reads shards, no memory request, refresh or
energy window open, `settle` only brings PWR_HOLD and the interrupt levels of the cores up to date: every other register field,
memory, the caches, the outputs, the log, the queue and every block stay as they are. -/
def Obligations.SettleIsQuietWhenNothingWaits : Prop :=
  ∀ s : State, s.flt.todo = [] → s.mode = Mode.frond → s.get .MOD_STATE_PENDING = 0 → s.get .CLM_STATUS_ROLE ≠ 3 →
    s.ring.dormantHeld = [] → s.pair.yielding = false → s.mirroring = false →
    s.mpt.waiting = [] → s.mpt.cmds = [] → s.mpt.lanes = [] → s.eng.cusClosed = none →
    s.css.stripes.all (fun q => !s.syncDue q.2) = true →
    s.css.subs.all (fun q => match q.2.prog with | some p => !p.readsShards | none => true) = true →
    s.mem.reqs = [] → (kvVals s.mem.postponed).all (· == 0) = true → s.on .ENG_EPB_CTL_OPEN = false →
    let t := settle s
    (t.pending = s.pending ∧ t.free = s.free ∧ t.out = s.out ∧ t.log = s.log ∧ t.flt = s.flt ∧ t.jnl = s.jnl ∧ t.css = s.css ∧
      t.eng = s.eng ∧ t.mpt = s.mpt ∧ t.mem = s.mem ∧ t.hst = s.hst ∧ t.coh = s.coh ∧ t.pods = s.pods ∧ t.ring = s.ring ∧
      t.pair = s.pair ∧ t.tub = s.tub ∧ t.mod_ = s.mod_) ∧
    (∀ key ∈ kvKeys t.cores, key ∈ kvKeys s.cores) ∧
    (∀ f n, f ≠ .PWR_HOLD_HELD → f ≠ .POD_INT_PEND_LEVEL → t.getB f n = s.getB f n)
end

