-- ==== Sys2Proof/Laws/Access.lean ====
section
/-!
SUPPORT. What an access by address comes to once the address is placed: the register it names, the bytes it writes, the value it reads.
-/

namespace Sys2Proof.Machine

/-- A PF write that is no MSI-X or function page goes to the block, when it is lit and the address host-visible. -/
theorem hostStore_io (a n v : Nat) (s : State) (h1 : msixOffset .pf a = none) (h2 : fnOffset .pf a = none)
    (h4 : hostSees a = true) :
    hostStore .pf a n v s = if s.blockDark a then darkAccess s else ioStore .pf a n v 0 0 s := by
  simp [hostStore, h1, h2, h4]

/-- A write that one register takes whole. -/
theorem ioStore_one (o : Origin) (a n v pod core : Nat) (l : RegLoc) (s : State) (h3 : locate a = some l)
    (h : n = 4 ∨ 64 ≤ l.reg.info.width) : ioStore o a n v pod core s = writeAt o l n v pod core s := by
  unfold ioStore
  simp only [h3]
  rcases h with h | h
  · subst h; simp
  · simp [h]

/-- A write at a place merges its bytes with the register's others. -/
theorem writeAt_eq (o : Origin) (l : RegLoc) (n v pod core : Nat) (s : State) (h1 : s.selectsNone l.reg = false)
    (h2 : s.dbgDead l.reg = false) :
    writeAt o l n v pod core s =
      (let bank := s.bankOf l pod core
      let bytes := min n (l.reg.info.width / 8 - l.byte)
      let shift := 2 ^ (8 * l.byte)
      let mask := (2 ^ (8 * bytes) - 1) * shift
      let act := v % 2 ^ (8 * bytes) * shift
      let value := andNot (s.regRaw l.reg bank) mask + act
      writeReg o { reg := l.reg, bank := bank, addr := l.addr, value := value, act := act, mask := mask } s) := by
  unfold writeAt
  rw [if_neg (by simp [h1, h2])]

/-- A PF read of a lit register answers its value. -/
theorem hostValue_io (a : Nat) (s : State) (l : RegLoc) (h2 : fnOffset .pf a = none) (h3 : ¬ (0x1F00000 ≤ a ∧ a < 0x1F01000))
    (h4 : locate a = some l) (h5 : hostSees a = true) (h6 : s.blockDark a = false) (h7 : s.selectsNone l.reg = false) :
    hostValue .pf a s = (s.regValue l.reg (s.bankOf l 0 0) / 2 ^ (8 * l.byte) % 2 ^ 32, usedFree s) := by
  simp [hostValue, h2, h3, h4, h5, h6, State.ioValue, h7]

/-! ## The registers that statements write and read by address -/

theorem locate_vfmSel : locate 0x408000 = some { reg := .VFM_SEL, rep := 0, byte := 0 } := rfl

theorem locate_timNow : locate 0x50000 = some { reg := .TIM_NOW, rep := 0, byte := 0 } ∧
    locate 0x50004 = some { reg := .TIM_NOW, rep := 0, byte := 4 } := ⟨rfl, rfl⟩

theorem writeReg_vfmSel (o : Origin) (b a x y z : Nat) (s : State) :
    writeReg o { reg := .VFM_SEL, bank := b, addr := a, value := x, act := y, mask := z } s = s.setB .VFM_SEL_FUNCTION b (bits x 6 0) :=
  rfl

theorem writeReg_hstStatus (o : Origin) (b a x y z : Nat) (s : State) :
    writeReg o { reg := .HST_STATUS, bank := b, addr := a, value := x, act := y, mask := z } s =
      s.setB .HST_STATUS_DARK b (andNot (s.getB .HST_STATUS_DARK b) (bits y 0 0)) := rfl

theorem writeReg_hstDark (o : Origin) (b a x y z : Nat) (s : State) :
    writeReg o { reg := .HST_DARK, bank := b, addr := a, value := x, act := y, mask := z } s = s := rfl

/-- A write of all eight bytes of a grant register is logged. -/
theorem isLogged_ioGrantS (b a x y : Nat) :
    RegWrite.isLogged { reg := .COH_IOGRANT_S, bank := b, addr := a, value := x, act := y, mask := 2 ^ 64 - 1 } = true := by
  have h : Reg.COH_IOGRANT_S.fields = [Fld.COH_IOGRANT_S_BLOCKS] := rfl
  unfold RegWrite.isLogged RegWrite.hits
  simp only [h, List.any]
  decide +kernel

theorem isLogged_ioGrantU (b a x y : Nat) :
    RegWrite.isLogged { reg := .COH_IOGRANT_U, bank := b, addr := a, value := x, act := y, mask := 2 ^ 64 - 1 } = true := by
  have h : Reg.COH_IOGRANT_U.fields = [Fld.COH_IOGRANT_U_BLOCKS] := rfl
  unfold RegWrite.isLogged RegWrite.hits
  simp only [h, List.any]
  decide +kernel

theorem writeReg_ioGrantS (o : Origin) (b a x y : Nat) (s : State) :
    writeReg o { reg := .COH_IOGRANT_S, bank := b, addr := a, value := x, act := y, mask := 2 ^ 64 - 1 } s =
      logged o 1 a (s.regRaw .COH_IOGRANT_S b) ((s.setB .COH_IOGRANT_S_BLOCKS b (bits x 63 0)).regRaw .COH_IOGRANT_S b) id
        (fun s => s.setB .COH_IOGRANT_S_BLOCKS b (bits x 63 0)) s := by
  have h := isLogged_ioGrantS b a x y
  generalize (2 ^ 64 - 1 : Nat) = z at *
  show RegWrite.plain _ o id s = _
  unfold RegWrite.plain
  rw [if_pos h]
  rfl

theorem writeReg_ioGrantU (o : Origin) (b a x y : Nat) (s : State) :
    writeReg o { reg := .COH_IOGRANT_U, bank := b, addr := a, value := x, act := y, mask := 2 ^ 64 - 1 } s =
      logged o 1 a (s.regRaw .COH_IOGRANT_U b) ((s.setB .COH_IOGRANT_U_BLOCKS b (bits x 63 0)).regRaw .COH_IOGRANT_U b) id
        (fun s => s.setB .COH_IOGRANT_U_BLOCKS b (bits x 63 0)) s := by
  have h := isLogged_ioGrantU b a x y
  generalize (2 ^ 64 - 1 : Nat) = z at *
  show RegWrite.plain _ o id s = _
  unfold RegWrite.plain
  rw [if_pos h]
  rfl

theorem regRaw_ioGrantS (s : State) (b : Nat) : s.regRaw .COH_IOGRANT_S b = s.getB .COH_IOGRANT_S_BLOCKS b := by
  have : s.regRaw .COH_IOGRANT_S b = 0 + s.getB .COH_IOGRANT_S_BLOCKS b * 2 ^ 0 := rfl
  omega

theorem dbgDead_vfmSel (s : State) : s.dbgDead .VFM_SEL = false := by
  have : s.dbgDead .VFM_SEL = (false && true && s.dbgKilled) := rfl
  simp [this]

/-- TIM_NOW reads as the timebase. -/
theorem regValue_timNow (s : State) : s.regValue .TIM_NOW 0 = s.getB .TIM_NOW_NS 0 % 2 ^ 64 := by
  unfold State.regValue
  have : s.dbgDead .TIM_NOW = (false && true && s.dbgKilled) := rfl
  rw [this, if_neg (by simp)]
  show 0 + s.getB .TIM_NOW_NS 0 % 2 ^ 64 * 2 ^ 0 = _
  omega

end Sys2Proof.Machine
end

