-- ==== Sys2Proof/Laws/Aes.lean ====
section
/-!
SUPPORT. The tables of AES are what the cipher's definition makes them.
-/

namespace Sys2Proof.Machine

set_option Elab.async false

/-- The S-box table holds the inverse under its affine map. -/
theorem aesBox_eq : (List.range 256).all (fun x => (boxByte aesBox (BitVec.ofNat 8 x)).toNat == aesSub x) = true := by
  decide +kernel

/-- The other table undoes it. -/
theorem aesUnbox_eq :
    (List.range 256).all (fun x => (boxByte aesUnbox (boxByte aesBox (BitVec.ofNat 8 x))).toNat == x) = true := by
  decide +kernel

end Sys2Proof.Machine
end

