-- ==== Sys2Proof/Laws/Exec.lean ====
section
/-!
SUPPORT. What a step can come to, said once: a command ends in `settle`, or it is an Octip instruction that only computes, or it
names memory that does not exist.
-/

namespace Sys2Proof.Machine

/-- An instruction's work that changes nothing but its core: it retires with the core changed, or raises an exception. -/
def computes (body : OctCore → State → Eff) : Prop :=
  ∀ k u, (∃ f, body k u = .ok f u) ∨ ∃ n a b, body k u = .exc n a b u

theorem pureOp_computes (f : OctCore → OctCore → OctCore) : computes (fun k => pureOp (f k) k) :=
  fun k _ => .inl ⟨f k, rfl⟩

theorem illegal_computes : computes (fun _ s => illegal s) := fun _ _ => .inr ⟨_, _, _, rfl⟩

theorem cmpBody_computes (pt pf : Nat) (r : OctCore → Bool) (g : OctCore → Word) : computes (cmpBody pt pf r g) := by
  intro k u
  unfold cmpBody
  by_cases h : pt = pf ∧ pt ≠ 0
  · rw [if_pos h]; exact .inr ⟨_, _, _, rfl⟩
  · rw [if_neg h]; exact .inl ⟨_, rfl⟩

theorem noOctip {c : OctCtx} {P : Prop} (h : (none : Option OctCtx) = some c) : P := by simp at h

theorem runsPlain {b t : OctCore → State → Eff} {c c' : OctCtx} {s : State} {o : Host.Outcome State Fault Refusal}
    (h : some c' = some c) (e : o = .next (octipOn c' b t s)) :
    ∃ body tuber, o = .next (octipOn c body tuber s) ∨ o = .next (settle (octipOn c body tuber s)) := by
  cases h; exact ⟨_, _, .inl e⟩

theorem runsSettled {b t : OctCore → State → Eff} {c c' : OctCtx} {s : State} {o : Host.Outcome State Fault Refusal}
    (h : some c' = some c) (e : o = .next (settle (octipOn c' b t s))) :
    ∃ body tuber, o = .next (octipOn c body tuber s) ∨ o = .next (settle (octipOn c body tuber s)) := by
  cases h; exact ⟨_, _, .inr e⟩

/-- Every Octip instruction runs on the core its context names. -/
theorem octip_exec (i : Instr) (c : OctCtx) (h : octipCtx i = some c) (s : State) :
    ∃ body tuber, exec i s = .next (octipOn c body tuber s) ∨ exec i s = .next (settle (octipOn c body tuber s)) := by
  cases i with
  | opAdd => exact runsPlain h rfl
  | opSub => exact runsPlain h rfl
  | opAnd => exact runsPlain h rfl
  | opOr => exact runsPlain h rfl
  | opXor => exact runsPlain h rfl
  | opAndn => exact runsPlain h rfl
  | opSll => exact runsPlain h rfl
  | opSrl => exact runsPlain h rfl
  | opSra => exact runsPlain h rfl
  | opRol => exact runsPlain h rfl
  | opRor => exact runsPlain h rfl
  | opMin => exact runsPlain h rfl
  | opMax => exact runsPlain h rfl
  | opMinu => exact runsPlain h rfl
  | opMaxu => exact runsPlain h rfl
  | opNeg => exact runsPlain h rfl
  | opMul => exact runsPlain h rfl
  | opMulh => exact runsPlain h rfl
  | opMulhu => exact runsPlain h rfl
  | opDiv => exact runsPlain h rfl
  | opDivu => exact runsPlain h rfl
  | opRem => exact runsPlain h rfl
  | opRemu => exact runsPlain h rfl
  | opCmpEq => exact runsPlain h rfl
  | opCmpNe => exact runsPlain h rfl
  | opCmpLt => exact runsPlain h rfl
  | opCmpGe => exact runsPlain h rfl
  | opCmpLtu => exact runsPlain h rfl
  | opCmpGeu => exact runsPlain h rfl
  | opPand => exact runsPlain h rfl
  | opPor => exact runsPlain h rfl
  | opPxor => exact runsPlain h rfl
  | opPandn => exact runsPlain h rfl
  | opMovgp => exact runsPlain h rfl
  | opMovpg => exact runsPlain h rfl
  | opAddi => exact runsPlain h rfl
  | opAndi => exact runsPlain h rfl
  | opOri => exact runsPlain h rfl
  | opXori => exact runsPlain h rfl
  | opSlli => exact runsPlain h rfl
  | opSrli => exact runsPlain h rfl
  | opSrai => exact runsPlain h rfl
  | opRori => exact runsPlain h rfl
  | opMov => exact runsPlain h rfl
  | opLi => exact runsPlain h rfl
  | opLih => exact runsPlain h rfl
  | opLa => exact runsPlain h rfl
  | opLd => exact runsSettled h rfl
  | opSt => exact runsSettled h rfl
  | opFld => exact runsSettled h rfl
  | opFst => exact runsSettled h rfl
  | opJump => exact runsSettled h rfl
  | opCall => exact runsSettled h rfl
  | opJumpr => exact runsSettled h rfl
  | opCallr => exact runsSettled h rfl
  | opRet => exact runsSettled h rfl
  | opEret => exact runsSettled h rfl
  | opFadd => exact runsPlain h rfl
  | opFsub => exact runsPlain h rfl
  | opFmul => exact runsPlain h rfl
  | opFdiv => exact runsPlain h rfl
  | opFsqrt => exact runsPlain h rfl
  | opFmin => exact runsPlain h rfl
  | opFmax => exact runsPlain h rfl
  | opFsgnj => exact runsPlain h rfl
  | opFcvtI => exact runsPlain h rfl
  | opFcvtU => exact runsPlain h rfl
  | opIcvtF => exact runsPlain h rfl
  | opUcvtF => exact runsPlain h rfl
  | opFcvtP => exact runsPlain h rfl
  | opFmovg => exact runsPlain h rfl
  | opFmovf => exact runsPlain h rfl
  | opFeq => exact runsPlain h rfl
  | opFlt => exact runsPlain h rfl
  | opFle => exact runsPlain h rfl
  | opFun => exact runsPlain h rfl
  | opFmadd => exact runsPlain h rfl
  | opFmsub => exact runsPlain h rfl
  | opFnmadd => exact runsPlain h rfl
  | opFnmsub => exact runsPlain h rfl
  | opFence => exact runsSettled h rfl
  | opFenceC => exact runsSettled h rfl
  | opIsync => exact runsSettled h rfl
  | opMcall => exact runsSettled h rfl
  | opBrk => exact runsSettled h rfl
  | opWfi => exact runsSettled h rfl
  | opCrr => exact runsSettled h rfl
  | opCrw => exact runsSettled h rfl
  | opTlbw => exact runsSettled h rfl
  | opTlbr => exact runsSettled h rfl
  | opTlbiA => exact runsSettled h rfl
  | opTlbiT => exact runsSettled h rfl
  | opTlbiAll => exact runsSettled h rfl
  | opTlbiLk => exact runsSettled h rfl
  | opIn => exact runsSettled h rfl
  | opOut => exact runsSettled h rfl
  | opLdi => exact runsSettled h rfl
  | opSti => exact runsSettled h rfl
  | amoAdd => exact runsSettled h rfl
  | amoSwap => exact runsSettled h rfl
  | amoCas => exact runsSettled h rfl
  | amoAnd => exact runsSettled h rfl
  | amoOr => exact runsSettled h rfl
  | amoXor => exact runsSettled h rfl
  | amoMax => exact runsSettled h rfl
  | amoMin => exact runsSettled h rfl
  | cohMaintAddrWrite => exact runsSettled h rfl
  | mtClean => exact runsSettled h rfl
  | mtCleanInv => exact runsSettled h rfl
  | mtInv => exact runsSettled h rfl
  | mtZero => exact runsSettled h rfl
  | mtLock => exact runsSettled h rfl
  | mtUnlock => exact runsSettled h rfl
  | _ => exact noOctip h

/-- Every command ends in `settle`, or only computes on a core, or stops at memory that does not exist. -/
theorem exec_shape (i : Instr) (s : State) :
    (∃ t, exec i s = .next (settle t)) ∨
    (∃ c body tuber, octipCtx i = some c ∧ onlyComputes i = true ∧ computes body ∧ computes tuber ∧
      exec i s = .next (octipOn c body tuber s)) ∨
    (∃ a, exec i s = .fault (.noSuchLine a)) := by
  cases i with
  | opAdd => exact .inr (.inl ⟨_, _, _, rfl, rfl, pureOp_computes _, pureOp_computes _, rfl⟩)
  | opSub => exact .inr (.inl ⟨_, _, _, rfl, rfl, pureOp_computes _, pureOp_computes _, rfl⟩)
  | opAnd => exact .inr (.inl ⟨_, _, _, rfl, rfl, pureOp_computes _, pureOp_computes _, rfl⟩)
  | opOr => exact .inr (.inl ⟨_, _, _, rfl, rfl, pureOp_computes _, pureOp_computes _, rfl⟩)
  | opXor => exact .inr (.inl ⟨_, _, _, rfl, rfl, pureOp_computes _, pureOp_computes _, rfl⟩)
  | opAndn => exact .inr (.inl ⟨_, _, _, rfl, rfl, pureOp_computes _, pureOp_computes _, rfl⟩)
  | opSll => exact .inr (.inl ⟨_, _, _, rfl, rfl, pureOp_computes _, pureOp_computes _, rfl⟩)
  | opSrl => exact .inr (.inl ⟨_, _, _, rfl, rfl, pureOp_computes _, pureOp_computes _, rfl⟩)
  | opSra => exact .inr (.inl ⟨_, _, _, rfl, rfl, pureOp_computes _, pureOp_computes _, rfl⟩)
  | opRol => exact .inr (.inl ⟨_, _, _, rfl, rfl, pureOp_computes _, pureOp_computes _, rfl⟩)
  | opRor => exact .inr (.inl ⟨_, _, _, rfl, rfl, pureOp_computes _, pureOp_computes _, rfl⟩)
  | opMin => exact .inr (.inl ⟨_, _, _, rfl, rfl, pureOp_computes _, pureOp_computes _, rfl⟩)
  | opMax => exact .inr (.inl ⟨_, _, _, rfl, rfl, pureOp_computes _, pureOp_computes _, rfl⟩)
  | opMinu => exact .inr (.inl ⟨_, _, _, rfl, rfl, pureOp_computes _, pureOp_computes _, rfl⟩)
  | opMaxu => exact .inr (.inl ⟨_, _, _, rfl, rfl, pureOp_computes _, pureOp_computes _, rfl⟩)
  | opNeg => exact .inr (.inl ⟨_, _, _, rfl, rfl, pureOp_computes _, pureOp_computes _, rfl⟩)
  | opMul => exact .inr (.inl ⟨_, _, _, rfl, rfl, pureOp_computes _, pureOp_computes _, rfl⟩)
  | opMulh => exact .inr (.inl ⟨_, _, _, rfl, rfl, pureOp_computes _, pureOp_computes _, rfl⟩)
  | opMulhu => exact .inr (.inl ⟨_, _, _, rfl, rfl, pureOp_computes _, pureOp_computes _, rfl⟩)
  | opDiv => exact .inr (.inl ⟨_, _, _, rfl, rfl, pureOp_computes _, pureOp_computes _, rfl⟩)
  | opDivu => exact .inr (.inl ⟨_, _, _, rfl, rfl, pureOp_computes _, pureOp_computes _, rfl⟩)
  | opRem => exact .inr (.inl ⟨_, _, _, rfl, rfl, pureOp_computes _, pureOp_computes _, rfl⟩)
  | opRemu => exact .inr (.inl ⟨_, _, _, rfl, rfl, pureOp_computes _, pureOp_computes _, rfl⟩)
  | opCmpEq => exact .inr (.inl ⟨_, _, _, rfl, rfl, cmpBody_computes _ _ _ _, cmpBody_computes _ _ _ _, rfl⟩)
  | opCmpNe => exact .inr (.inl ⟨_, _, _, rfl, rfl, cmpBody_computes _ _ _ _, cmpBody_computes _ _ _ _, rfl⟩)
  | opCmpLt => exact .inr (.inl ⟨_, _, _, rfl, rfl, cmpBody_computes _ _ _ _, cmpBody_computes _ _ _ _, rfl⟩)
  | opCmpGe => exact .inr (.inl ⟨_, _, _, rfl, rfl, cmpBody_computes _ _ _ _, cmpBody_computes _ _ _ _, rfl⟩)
  | opCmpLtu => exact .inr (.inl ⟨_, _, _, rfl, rfl, cmpBody_computes _ _ _ _, cmpBody_computes _ _ _ _, rfl⟩)
  | opCmpGeu => exact .inr (.inl ⟨_, _, _, rfl, rfl, cmpBody_computes _ _ _ _, cmpBody_computes _ _ _ _, rfl⟩)
  | opPand => exact .inr (.inl ⟨_, _, _, rfl, rfl, pureOp_computes _, pureOp_computes _, rfl⟩)
  | opPor => exact .inr (.inl ⟨_, _, _, rfl, rfl, pureOp_computes _, pureOp_computes _, rfl⟩)
  | opPxor => exact .inr (.inl ⟨_, _, _, rfl, rfl, pureOp_computes _, pureOp_computes _, rfl⟩)
  | opPandn => exact .inr (.inl ⟨_, _, _, rfl, rfl, pureOp_computes _, pureOp_computes _, rfl⟩)
  | opMovgp => exact .inr (.inl ⟨_, _, _, rfl, rfl, pureOp_computes _, pureOp_computes _, rfl⟩)
  | opMovpg => exact .inr (.inl ⟨_, _, _, rfl, rfl, pureOp_computes _, pureOp_computes _, rfl⟩)
  | opAddi => exact .inr (.inl ⟨_, _, _, rfl, rfl, pureOp_computes _, pureOp_computes _, rfl⟩)
  | opAndi => exact .inr (.inl ⟨_, _, _, rfl, rfl, pureOp_computes _, pureOp_computes _, rfl⟩)
  | opOri => exact .inr (.inl ⟨_, _, _, rfl, rfl, pureOp_computes _, pureOp_computes _, rfl⟩)
  | opXori => exact .inr (.inl ⟨_, _, _, rfl, rfl, pureOp_computes _, pureOp_computes _, rfl⟩)
  | opSlli => exact .inr (.inl ⟨_, _, _, rfl, rfl, pureOp_computes _, pureOp_computes _, rfl⟩)
  | opSrli => exact .inr (.inl ⟨_, _, _, rfl, rfl, pureOp_computes _, pureOp_computes _, rfl⟩)
  | opSrai => exact .inr (.inl ⟨_, _, _, rfl, rfl, pureOp_computes _, pureOp_computes _, rfl⟩)
  | opRori => exact .inr (.inl ⟨_, _, _, rfl, rfl, pureOp_computes _, pureOp_computes _, rfl⟩)
  | opMov => exact .inr (.inl ⟨_, _, _, rfl, rfl, pureOp_computes _, pureOp_computes _, rfl⟩)
  | opLi => exact .inr (.inl ⟨_, _, _, rfl, rfl, pureOp_computes _, pureOp_computes _, rfl⟩)
  | opLih => exact .inr (.inl ⟨_, _, _, rfl, rfl, pureOp_computes _, pureOp_computes _, rfl⟩)
  | opLa => exact .inr (.inl ⟨_, _, _, rfl, rfl, pureOp_computes _, pureOp_computes _, rfl⟩)
  | opFadd => exact .inr (.inl ⟨_, _, _, rfl, rfl, pureOp_computes _, illegal_computes, rfl⟩)
  | opFsub => exact .inr (.inl ⟨_, _, _, rfl, rfl, pureOp_computes _, illegal_computes, rfl⟩)
  | opFmul => exact .inr (.inl ⟨_, _, _, rfl, rfl, pureOp_computes _, illegal_computes, rfl⟩)
  | opFdiv => exact .inr (.inl ⟨_, _, _, rfl, rfl, pureOp_computes _, illegal_computes, rfl⟩)
  | opFsqrt => exact .inr (.inl ⟨_, _, _, rfl, rfl, pureOp_computes _, illegal_computes, rfl⟩)
  | opFmin => exact .inr (.inl ⟨_, _, _, rfl, rfl, pureOp_computes _, illegal_computes, rfl⟩)
  | opFmax => exact .inr (.inl ⟨_, _, _, rfl, rfl, pureOp_computes _, illegal_computes, rfl⟩)
  | opFsgnj => exact .inr (.inl ⟨_, _, _, rfl, rfl, pureOp_computes _, illegal_computes, rfl⟩)
  | opFcvtI => exact .inr (.inl ⟨_, _, _, rfl, rfl, pureOp_computes _, illegal_computes, rfl⟩)
  | opFcvtU => exact .inr (.inl ⟨_, _, _, rfl, rfl, pureOp_computes _, illegal_computes, rfl⟩)
  | opIcvtF => exact .inr (.inl ⟨_, _, _, rfl, rfl, pureOp_computes _, illegal_computes, rfl⟩)
  | opUcvtF => exact .inr (.inl ⟨_, _, _, rfl, rfl, pureOp_computes _, illegal_computes, rfl⟩)
  | opFcvtP => exact .inr (.inl ⟨_, _, _, rfl, rfl, pureOp_computes _, illegal_computes, rfl⟩)
  | opFmovg => exact .inr (.inl ⟨_, _, _, rfl, rfl, pureOp_computes _, illegal_computes, rfl⟩)
  | opFmovf => exact .inr (.inl ⟨_, _, _, rfl, rfl, pureOp_computes _, illegal_computes, rfl⟩)
  | opFeq => exact .inr (.inl ⟨_, _, _, rfl, rfl, cmpBody_computes _ _ _ _, illegal_computes, rfl⟩)
  | opFlt => exact .inr (.inl ⟨_, _, _, rfl, rfl, cmpBody_computes _ _ _ _, illegal_computes, rfl⟩)
  | opFle => exact .inr (.inl ⟨_, _, _, rfl, rfl, cmpBody_computes _ _ _ _, illegal_computes, rfl⟩)
  | opFun => exact .inr (.inl ⟨_, _, _, rfl, rfl, cmpBody_computes _ _ _ _, illegal_computes, rfl⟩)
  | opFmadd => exact .inr (.inl ⟨_, _, _, rfl, rfl, pureOp_computes _, illegal_computes, rfl⟩)
  | opFmsub => exact .inr (.inl ⟨_, _, _, rfl, rfl, pureOp_computes _, illegal_computes, rfl⟩)
  | opFnmadd => exact .inr (.inl ⟨_, _, _, rfl, rfl, pureOp_computes _, illegal_computes, rfl⟩)
  | opFnmsub => exact .inr (.inl ⟨_, _, _, rfl, rfl, pureOp_computes _, illegal_computes, rfl⟩)
  | memRead q line errs =>
    show (∃ t, (if dramLines ≤ line then _ else _) = _) ∨ _
    by_cases h : dramLines ≤ line
    · exact .inr (.inr ⟨line * 128, if_pos h⟩)
    · exact .inl ⟨_, if_neg h⟩
  | memWrite q addr data =>
    show (∃ t, (if dramSize < addr + data.length then _ else _) = _) ∨ _
    by_cases h : dramSize < addr + data.length
    · exact .inr (.inr ⟨addr, if_pos h⟩)
    · exact .inl ⟨_, if_neg h⟩
  | _ => exact .inl ⟨_, rfl⟩

end Sys2Proof.Machine
end

