-- ==== Sys2Proof/Laws/Kv.lean ====
section
/-!
SUPPORT. Laws of the sorted association lists: what a key reads after a write, and that the order is kept.
-/

namespace Sys2Proof.Machine

variable {α : Type}

@[simp] theorem kvGet?_kvSet_same (m : KV α) (k : Nat) (v : α) : kvGet? (kvSet m k v) k = some v := by
  induction m with
  | nil => simp [kvSet, kvGet?]
  | cons p t ih =>
    obtain ⟨j, w⟩ := p
    unfold kvSet
    split_ifs with h1 h2
    · simp [kvGet?]
    · simp [kvGet?]
    · have : j ≠ k := fun h => h2 h.symm
      simp [kvGet?, this, ih]

theorem kvGet?_kvSet_ne (m : KV α) (k k' : Nat) (v : α) (h : k ≠ k') : kvGet? (kvSet m k v) k' = kvGet? m k' := by
  induction m with
  | nil => simp [kvSet, kvGet?, h]
  | cons p t ih =>
    obtain ⟨j, w⟩ := p
    unfold kvSet
    split_ifs with h1 h2
    · simp [kvGet?, h]
    · subst h2; simp [kvGet?, h]
    · simp [kvGet?, ih]

theorem kvGet?_kvMod_same (m : KV α) (k : Nat) (f : α → α) : kvGet? (kvMod m k f) k = (kvGet? m k).map f := by
  unfold kvMod
  cases h : kvGet? m k with
  | none => simp [h]
  | some v => simp

theorem kvGet?_kvMod_ne (m : KV α) (k k' : Nat) (f : α → α) (h : k ≠ k') :
    kvGet? (kvMod m k f) k' = kvGet? m k' := by
  unfold kvMod
  cases kvGet? m k with
  | none => rfl
  | some v => exact kvGet?_kvSet_ne m k k' _ h

/-- A key already present keeps the list of keys as it is. -/
theorem kvKeys_kvSet_of_get (m : KV α) (k : Nat) (v w : α) (hs : KV.sorted m = true) (h : kvGet? m k = some w) :
    kvKeys (kvSet m k v) = kvKeys m := by
  induction m with
  | nil => simp [kvGet?] at h
  | cons p t ih =>
    obtain ⟨j, u⟩ := p
    have ht : KV.sorted t = true := by
      cases t with
      | nil => rfl
      | cons q r => obtain ⟨a, b⟩ := q; simp [KV.sorted] at hs; exact hs.2
    unfold kvSet
    split_ifs with h1 h2
    · exfalso
      have hj : j ≠ k := by omega
      simp [kvGet?, hj] at h
      have key : ∀ (l : KV α) (b : Nat), KV.sorted l = true → (∀ q ∈ l.head?, b < q.1) → b > k → kvGet? l k = none := by
        intro l
        induction l with
        | nil => intros; rfl
        | cons q r ih2 =>
          intro b hl hb hk
          obtain ⟨a, c⟩ := q
          have hab : b < a := hb (a, c) (by simp)
          have hak : a ≠ k := by omega
          simp [kvGet?, hak]
          refine ih2 a ?_ ?_ (by omega)
          · cases r with
            | nil => rfl
            | cons q r => obtain ⟨x, y⟩ := q; simp [KV.sorted] at hl; exact hl.2
          · intro q hq
            cases r with
            | nil => simp at hq
            | cons q' r => obtain ⟨x, y⟩ := q'; simp at hq; subst hq; simp [KV.sorted] at hl; exact hl.1
      have := key t j ht (by
        intro q hq
        cases t with
        | nil => simp at hq
        | cons q' r => obtain ⟨x, y⟩ := q'; simp at hq; subst hq; simp [KV.sorted] at hs; exact hs.1) h1
      simp [this] at h
    · subst h2; simp [kvKeys]
    · have hj : j ≠ k := fun e => h2 e.symm
      simp [kvGet?, hj] at h
      have := ih ht h
      simp [kvKeys] at this ⊢
      exact this

theorem mem_kvKeys_kvSet {α} (m : KV α) (k v) : ∀ j, j ∈ kvKeys (kvSet m k v) → j = k ∨ j ∈ kvKeys m := by
  induction m with
  | nil => intro j h; simp [kvSet, kvKeys] at h; exact .inl h
  | cons p t ih =>
    obtain ⟨a, b⟩ := p
    intro j h
    unfold kvSet at h
    split_ifs at h with h1 h2
    · simp [kvKeys] at h ⊢; tauto
    · subst h2; simp [kvKeys] at h ⊢; tauto
    · simp only [kvKeys, List.map_cons, List.mem_cons] at h ⊢
      rcases h with h | h
      · exact .inr (.inl h)
      · rcases ih j h with h | h
        · exact .inl h
        · exact .inr (.inr h)

theorem kvGet?_mem {α} (m : KV α) (k v) (h : kvGet? m k = some v) : k ∈ kvKeys m := by
  induction m with
  | nil => simp [kvGet?] at h
  | cons p t ih =>
    obtain ⟨a, b⟩ := p
    simp only [kvGet?] at h
    split_ifs at h with h1
    · subst h1; simp [kvKeys]
    · simp only [kvKeys, List.map_cons, List.mem_cons]; exact .inr (ih h)

theorem keys_kvMod {α} (m : KV α) (k f) : ∀ j, j ∈ kvKeys (kvMod m k f) → j ∈ kvKeys m := by
  intro j h
  unfold kvMod at h
  cases hg : kvGet? m k with
  | none => rw [hg] at h; exact h
  | some v =>
    rw [hg] at h
    rcases mem_kvKeys_kvSet _ _ _ j h with h | h
    · subst h; exact kvGet?_mem _ _ _ hg
    · exact h

end Sys2Proof.Machine
end

