-- ==== Sys2Proof/Laws/Memory.lean ====
section
/-!
SUPPORT. Laws of the DRAM bytes: a byte reads what was last stored in it, a store leaves every other byte alone, and every
operation over memory keeps the canonical form.
-/

namespace Sys2Proof.Machine

/-- The addresses of a list in canonical form are above `b`. -/
def memAbove (b : Nat) : List Host.Cell → Bool
  | [] => true
  | (j, _) :: _ => decide (b < j)

theorem memory_wf_cons (j : Nat) (c : Byte) (t : List Host.Cell) :
    Memory.wf ((j, c) :: t) = (decide (c ≠ 0) && memAbove j t && Memory.wf t) := by
  cases t with
  | nil => simp [Memory.wf, memAbove]
  | cons p r => obtain ⟨k, d⟩ := p; simp [Memory.wf, memAbove]

theorem memAbove_cellSet (m : List Host.Cell) (b a : Nat) (v : Byte) (hm : memAbove b m = true) (hw : Memory.wf m = true)
    (h : b < a) : memAbove b (cellSet m a v) = true := by
  cases m with
  | nil => unfold cellSet; split_ifs <;> simp [memAbove, h]
  | cons p t =>
    obtain ⟨j, c⟩ := p
    simp only [memAbove, decide_eq_true_eq] at hm
    unfold cellSet
    split_ifs
    · simpa [memAbove] using hm
    · simpa [memAbove] using h
    · rw [memory_wf_cons] at hw
      simp only [Bool.and_eq_true] at hw
      cases t with
      | nil => rfl
      | cons q r => obtain ⟨k, d⟩ := q; simp [memAbove] at hw ⊢; omega
    · simpa [memAbove] using h
    · simpa [memAbove] using hm

/-- Storing a byte keeps the canonical form. -/
theorem cellSet_wf (m : List Host.Cell) (a : Nat) (v : Byte) (hw : Memory.wf m = true) :
    Memory.wf (cellSet m a v) = true := by
  induction m with
  | nil =>
    unfold cellSet
    split_ifs with h
    · rfl
    · simpa [Memory.wf] using h
  | cons p t ih =>
    obtain ⟨j, c⟩ := p
    have hw' := hw
    rw [memory_wf_cons] at hw'
    simp only [Bool.and_eq_true, decide_eq_true_eq] at hw'
    unfold cellSet
    split_ifs with h1 h2 h3 h4
    · exact hw
    · rw [memory_wf_cons, hw, decide_eq_true (show v ≠ 0 from h2)]; simp [memAbove, h1]
    · exact hw'.2
    · subst h3; rw [memory_wf_cons, decide_eq_true (show v ≠ 0 from h4), hw'.1.2, hw'.2]; rfl
    · rw [memory_wf_cons]
      have : j < a := by omega
      simp only [Bool.and_eq_true, decide_eq_true_eq]
      exact ⟨⟨hw'.1.1, memAbove_cellSet t j a v hw'.1.2 hw'.2 this⟩, ih hw'.2⟩

/-- Storing bytes keeps the canonical form. -/
theorem cellPut_wf (l : List Byte) : ∀ (m : List Host.Cell) (a : Nat), Memory.wf m = true →
    Memory.wf (cellPut m a l) = true := by
  induction l with
  | nil => intro m a h; exact h
  | cons b t ih => intro m a h; exact ih _ _ (cellSet_wf m a b h)

theorem memAbove_filter (m : List Host.Cell) (p : Host.Cell → Bool) : ∀ b, Memory.wf m = true → memAbove b m = true →
    memAbove b (m.filter p) = true := by
  induction m with
  | nil => intros; rfl
  | cons q t ih =>
    obtain ⟨j, c⟩ := q
    intro b hw hb
    rw [memory_wf_cons] at hw
    simp only [Bool.and_eq_true] at hw
    simp only [List.filter_cons]
    split_ifs with h
    · simpa [memAbove] using hb
    · refine ih b hw.2 ?_
      cases t with
      | nil => rfl
      | cons r u => obtain ⟨k, d⟩ := r; simp [memAbove] at *; omega

/-- Clearing bytes keeps the canonical form. -/
theorem filter_wf (m : List Host.Cell) (p : Host.Cell → Bool) (hw : Memory.wf m = true) :
    Memory.wf (m.filter p) = true := by
  induction m with
  | nil => rfl
  | cons q t ih =>
    obtain ⟨j, c⟩ := q
    rw [memory_wf_cons] at hw
    simp only [Bool.and_eq_true] at hw
    simp only [List.filter_cons]
    split_ifs with h
    · rw [memory_wf_cons]
      simp only [Bool.and_eq_true]
      exact ⟨⟨hw.1.1, memAbove_filter t p j hw.2 hw.1.2⟩, ih hw.2⟩
    · exact ih hw.2

theorem cellGet_of_above (m : List Host.Cell) : ∀ b a, Memory.wf m = true → memAbove b m = true → a ≤ b → cellGet m a = 0 := by
  induction m with
  | nil => intros; rfl
  | cons q t ih =>
    obtain ⟨j, c⟩ := q
    intro b a hw hb ha
    rw [memory_wf_cons] at hw
    simp only [Bool.and_eq_true] at hw
    simp only [memAbove, decide_eq_true_eq] at hb
    have : j ≠ a := by omega
    simp only [cellGet, this, if_false]
    exact ih j a hw.2 hw.1.2 (by omega)

/-- A byte reads what was last stored in it. -/
theorem cellGet_cellSet_same (m : List Host.Cell) (a : Nat) (v : Byte) (hw : Memory.wf m = true) :
    cellGet (cellSet m a v) a = v := by
  induction m with
  | nil => unfold cellSet; split_ifs with h <;> simp [cellGet, h]
  | cons p t ih =>
    obtain ⟨j, c⟩ := p
    have hw' := hw
    rw [memory_wf_cons] at hw'
    simp only [Bool.and_eq_true, decide_eq_true_eq] at hw'
    unfold cellSet
    split_ifs with h1 h2 h3 h4
    · rw [h2]
      exact cellGet_of_above _ a a hw (by simpa [memAbove] using h1) (le_refl _)
    · simp [cellGet]
    · subst h3; rw [h4]; exact cellGet_of_above t a a hw'.2 hw'.1.2 (le_refl _)
    · simp [cellGet]
    · have : j ≠ a := fun e => h3 e.symm
      simp [cellGet, this, ih hw'.2]

/-- A store leaves every other byte alone. -/
theorem cellGet_cellSet_ne (m : List Host.Cell) (a b : Nat) (v : Byte) (h : a ≠ b) :
    cellGet (cellSet m a v) b = cellGet m b := by
  induction m with
  | nil => unfold cellSet; split_ifs <;> simp [cellGet, h]
  | cons p t ih =>
    obtain ⟨j, c⟩ := p
    unfold cellSet
    split_ifs with h1 h2 h3 h4
    · rfl
    · simp [cellGet, h]
    · subst h3; simp [cellGet, h]
    · subst h3; simp [cellGet, h]
    · simp [cellGet, ih]

/-- A byte outside the stored ones reads as before. -/
theorem cellGet_cellPut_out (l : List Byte) : ∀ (m : List Host.Cell) (a b : Nat), (b < a ∨ a + l.length ≤ b) →
    cellGet (cellPut m a l) b = cellGet m b := by
  induction l with
  | nil => intros; rfl
  | cons v t ih =>
    intro m a b h
    simp only [List.length_cons] at h
    show cellGet (cellPut (cellSet m a v) (a + 1) t) b = _
    rw [ih _ _ _ (by omega), cellGet_cellSet_ne _ _ _ _ (by omega)]

/-- A stored byte reads as stored. -/
theorem cellGet_cellPut_in (l : List Byte) : ∀ (m : List Host.Cell) (a i : Nat), Memory.wf m = true → (hi : i < l.length) →
    cellGet (cellPut m a l) (a + i) = l[i] := by
  induction l with
  | nil => intro m a i _ hi; simp at hi
  | cons v t ih =>
    intro m a i hw hi
    show cellGet (cellPut (cellSet m a v) (a + 1) t) (a + i) = _
    cases i with
    | zero => simp [cellGet_cellPut_out, cellGet_cellSet_same, hw]
    | succ n =>
      have := ih (cellSet m a v) (a + 1) n (cellSet_wf m a v hw) (by simpa using hi)
      rw [show a + (n + 1) = a + 1 + n by omega, this]; simp

/-- Writing a line keeps the canonical form. -/
theorem putLine_wf (l : Nat) (d : List Byte) (s : State) (hw : Memory.wf s.mem.dram = true) :
    Memory.wf (putLine l d s).mem.dram = true := cellPut_wf _ _ _ hw

/-- Writing a line back from a cache keeps the canonical form. -/
theorem writeBack_wf (l : Nat) (d : List Byte) (p : Bool) (s : State) (hw : Memory.wf s.mem.dram = true) :
    Memory.wf (writeBack l d p s).mem.dram = true := by
  unfold writeBack
  split_ifs
  · exact putLine_wf l d s hw
  · exact putLine_wf l d s hw

/-- Clearing a range keeps the canonical form. -/
theorem clearDram_wf (a n : Nat) (s : State) (hw : Memory.wf s.mem.dram = true) :
    Memory.wf (clearDram a n s).mem.dram = true := filter_wf _ _ hw

/-- A restart keeps the canonical form, whether DRAM is kept or lost. -/
theorem afterRestart_wf (r : Bool) (m : MemState) (hw : Memory.wf m.dram = true) :
    Memory.wf (m.afterRestart r).dram = true := by
  cases r
  · rfl
  · exact hw

/-- Memory after reset is in canonical form. -/
theorem reset_wf : Memory.wf State.reset.mem.dram = true := rfl

end Sys2Proof.Machine
end

