-- ==== Sys2Proof/Laws/State.lean ====
section
/-!
SUPPORT. What each named update of the state does to each of its components, so that no proof unfolds a record update.
-/

namespace Sys2Proof.Machine

variable (s : State)

/-! `setB` -/

@[simp] theorem setB_pending (f : Fld) (i v : Nat) : (s.setB f i v).pending = s.pending := rfl
@[simp] theorem setB_free (f : Fld) (i v : Nat) : (s.setB f i v).free = s.free := rfl
@[simp] theorem setB_out (f : Fld) (i v : Nat) : (s.setB f i v).out = s.out := rfl
@[simp] theorem setB_log (f : Fld) (i v : Nat) : (s.setB f i v).log = s.log := rfl
@[simp] theorem setB_flt (f : Fld) (i v : Nat) : (s.setB f i v).flt = s.flt := rfl
@[simp] theorem setB_jnl (f : Fld) (i v : Nat) : (s.setB f i v).jnl = s.jnl := rfl
@[simp] theorem setB_css (f : Fld) (i v : Nat) : (s.setB f i v).css = s.css := rfl
@[simp] theorem setB_eng (f : Fld) (i v : Nat) : (s.setB f i v).eng = s.eng := rfl
@[simp] theorem setB_mpt (f : Fld) (i v : Nat) : (s.setB f i v).mpt = s.mpt := rfl
@[simp] theorem setB_mem (f : Fld) (i v : Nat) : (s.setB f i v).mem = s.mem := rfl
@[simp] theorem setB_hst (f : Fld) (i v : Nat) : (s.setB f i v).hst = s.hst := rfl
@[simp] theorem setB_coh (f : Fld) (i v : Nat) : (s.setB f i v).coh = s.coh := rfl
@[simp] theorem setB_cores (f : Fld) (i v : Nat) : (s.setB f i v).cores = s.cores := rfl
@[simp] theorem setB_pods (f : Fld) (i v : Nat) : (s.setB f i v).pods = s.pods := rfl
@[simp] theorem setB_ring (f : Fld) (i v : Nat) : (s.setB f i v).ring = s.ring := rfl
@[simp] theorem setB_pair (f : Fld) (i v : Nat) : (s.setB f i v).pair = s.pair := rfl
@[simp] theorem setB_tub (f : Fld) (i v : Nat) : (s.setB f i v).tub = s.tub := rfl
@[simp] theorem setB_mod (f : Fld) (i v : Nat) : (s.setB f i v).mod_ = s.mod_ := rfl

/-! `set` -/

@[simp] theorem set_pending (f : Fld) (v : Nat) : (s.set f v).pending = s.pending := rfl
@[simp] theorem set_free (f : Fld) (v : Nat) : (s.set f v).free = s.free := rfl
@[simp] theorem set_out (f : Fld) (v : Nat) : (s.set f v).out = s.out := rfl
@[simp] theorem set_log (f : Fld) (v : Nat) : (s.set f v).log = s.log := rfl
@[simp] theorem set_flt (f : Fld) (v : Nat) : (s.set f v).flt = s.flt := rfl
@[simp] theorem set_jnl (f : Fld) (v : Nat) : (s.set f v).jnl = s.jnl := rfl
@[simp] theorem set_css (f : Fld) (v : Nat) : (s.set f v).css = s.css := rfl
@[simp] theorem set_eng (f : Fld) (v : Nat) : (s.set f v).eng = s.eng := rfl
@[simp] theorem set_mpt (f : Fld) (v : Nat) : (s.set f v).mpt = s.mpt := rfl
@[simp] theorem set_mem (f : Fld) (v : Nat) : (s.set f v).mem = s.mem := rfl
@[simp] theorem set_hst (f : Fld) (v : Nat) : (s.set f v).hst = s.hst := rfl
@[simp] theorem set_coh (f : Fld) (v : Nat) : (s.set f v).coh = s.coh := rfl
@[simp] theorem set_cores (f : Fld) (v : Nat) : (s.set f v).cores = s.cores := rfl
@[simp] theorem set_pods (f : Fld) (v : Nat) : (s.set f v).pods = s.pods := rfl
@[simp] theorem set_ring (f : Fld) (v : Nat) : (s.set f v).ring = s.ring := rfl
@[simp] theorem set_pair (f : Fld) (v : Nat) : (s.set f v).pair = s.pair := rfl
@[simp] theorem set_tub (f : Fld) (v : Nat) : (s.set f v).tub = s.tub := rfl
@[simp] theorem set_mod (f : Fld) (v : Nat) : (s.set f v).mod_ = s.mod_ := rfl

/-! `setBitB` -/

@[simp] theorem setBitB_pending (f : Fld) (i k : Nat) (b : Bool) : (s.setBitB f i k b).pending = s.pending := rfl
@[simp] theorem setBitB_free (f : Fld) (i k : Nat) (b : Bool) : (s.setBitB f i k b).free = s.free := rfl
@[simp] theorem setBitB_out (f : Fld) (i k : Nat) (b : Bool) : (s.setBitB f i k b).out = s.out := rfl
@[simp] theorem setBitB_log (f : Fld) (i k : Nat) (b : Bool) : (s.setBitB f i k b).log = s.log := rfl
@[simp] theorem setBitB_flt (f : Fld) (i k : Nat) (b : Bool) : (s.setBitB f i k b).flt = s.flt := rfl
@[simp] theorem setBitB_jnl (f : Fld) (i k : Nat) (b : Bool) : (s.setBitB f i k b).jnl = s.jnl := rfl
@[simp] theorem setBitB_css (f : Fld) (i k : Nat) (b : Bool) : (s.setBitB f i k b).css = s.css := rfl
@[simp] theorem setBitB_eng (f : Fld) (i k : Nat) (b : Bool) : (s.setBitB f i k b).eng = s.eng := rfl
@[simp] theorem setBitB_mpt (f : Fld) (i k : Nat) (b : Bool) : (s.setBitB f i k b).mpt = s.mpt := rfl
@[simp] theorem setBitB_mem (f : Fld) (i k : Nat) (b : Bool) : (s.setBitB f i k b).mem = s.mem := rfl
@[simp] theorem setBitB_hst (f : Fld) (i k : Nat) (b : Bool) : (s.setBitB f i k b).hst = s.hst := rfl
@[simp] theorem setBitB_coh (f : Fld) (i k : Nat) (b : Bool) : (s.setBitB f i k b).coh = s.coh := rfl
@[simp] theorem setBitB_cores (f : Fld) (i k : Nat) (b : Bool) : (s.setBitB f i k b).cores = s.cores := rfl
@[simp] theorem setBitB_pods (f : Fld) (i k : Nat) (b : Bool) : (s.setBitB f i k b).pods = s.pods := rfl
@[simp] theorem setBitB_ring (f : Fld) (i k : Nat) (b : Bool) : (s.setBitB f i k b).ring = s.ring := rfl
@[simp] theorem setBitB_pair (f : Fld) (i k : Nat) (b : Bool) : (s.setBitB f i k b).pair = s.pair := rfl
@[simp] theorem setBitB_tub (f : Fld) (i k : Nat) (b : Bool) : (s.setBitB f i k b).tub = s.tub := rfl
@[simp] theorem setBitB_mod (f : Fld) (i k : Nat) (b : Bool) : (s.setBitB f i k b).mod_ = s.mod_ := rfl

/-! `bumpB` -/

@[simp] theorem bumpB_pending (f : Fld) (i n : Nat) : (s.bumpB f i n).pending = s.pending := rfl
@[simp] theorem bumpB_free (f : Fld) (i n : Nat) : (s.bumpB f i n).free = s.free := rfl
@[simp] theorem bumpB_out (f : Fld) (i n : Nat) : (s.bumpB f i n).out = s.out := rfl
@[simp] theorem bumpB_log (f : Fld) (i n : Nat) : (s.bumpB f i n).log = s.log := rfl
@[simp] theorem bumpB_flt (f : Fld) (i n : Nat) : (s.bumpB f i n).flt = s.flt := rfl
@[simp] theorem bumpB_jnl (f : Fld) (i n : Nat) : (s.bumpB f i n).jnl = s.jnl := rfl
@[simp] theorem bumpB_css (f : Fld) (i n : Nat) : (s.bumpB f i n).css = s.css := rfl
@[simp] theorem bumpB_eng (f : Fld) (i n : Nat) : (s.bumpB f i n).eng = s.eng := rfl
@[simp] theorem bumpB_mpt (f : Fld) (i n : Nat) : (s.bumpB f i n).mpt = s.mpt := rfl
@[simp] theorem bumpB_mem (f : Fld) (i n : Nat) : (s.bumpB f i n).mem = s.mem := rfl
@[simp] theorem bumpB_hst (f : Fld) (i n : Nat) : (s.bumpB f i n).hst = s.hst := rfl
@[simp] theorem bumpB_coh (f : Fld) (i n : Nat) : (s.bumpB f i n).coh = s.coh := rfl
@[simp] theorem bumpB_cores (f : Fld) (i n : Nat) : (s.bumpB f i n).cores = s.cores := rfl
@[simp] theorem bumpB_pods (f : Fld) (i n : Nat) : (s.bumpB f i n).pods = s.pods := rfl
@[simp] theorem bumpB_ring (f : Fld) (i n : Nat) : (s.bumpB f i n).ring = s.ring := rfl
@[simp] theorem bumpB_pair (f : Fld) (i n : Nat) : (s.bumpB f i n).pair = s.pair := rfl
@[simp] theorem bumpB_tub (f : Fld) (i n : Nat) : (s.bumpB f i n).tub = s.tub := rfl
@[simp] theorem bumpB_mod (f : Fld) (i n : Nat) : (s.bumpB f i n).mod_ = s.mod_ := rfl

/-! `bumpN` -/

@[simp] theorem bumpN_pending (f : Fld) (n : Nat) : (s.bumpN f n).pending = s.pending := rfl
@[simp] theorem bumpN_free (f : Fld) (n : Nat) : (s.bumpN f n).free = s.free := rfl
@[simp] theorem bumpN_out (f : Fld) (n : Nat) : (s.bumpN f n).out = s.out := rfl
@[simp] theorem bumpN_log (f : Fld) (n : Nat) : (s.bumpN f n).log = s.log := rfl
@[simp] theorem bumpN_flt (f : Fld) (n : Nat) : (s.bumpN f n).flt = s.flt := rfl
@[simp] theorem bumpN_jnl (f : Fld) (n : Nat) : (s.bumpN f n).jnl = s.jnl := rfl
@[simp] theorem bumpN_css (f : Fld) (n : Nat) : (s.bumpN f n).css = s.css := rfl
@[simp] theorem bumpN_eng (f : Fld) (n : Nat) : (s.bumpN f n).eng = s.eng := rfl
@[simp] theorem bumpN_mpt (f : Fld) (n : Nat) : (s.bumpN f n).mpt = s.mpt := rfl
@[simp] theorem bumpN_mem (f : Fld) (n : Nat) : (s.bumpN f n).mem = s.mem := rfl
@[simp] theorem bumpN_hst (f : Fld) (n : Nat) : (s.bumpN f n).hst = s.hst := rfl
@[simp] theorem bumpN_coh (f : Fld) (n : Nat) : (s.bumpN f n).coh = s.coh := rfl
@[simp] theorem bumpN_cores (f : Fld) (n : Nat) : (s.bumpN f n).cores = s.cores := rfl
@[simp] theorem bumpN_pods (f : Fld) (n : Nat) : (s.bumpN f n).pods = s.pods := rfl
@[simp] theorem bumpN_ring (f : Fld) (n : Nat) : (s.bumpN f n).ring = s.ring := rfl
@[simp] theorem bumpN_pair (f : Fld) (n : Nat) : (s.bumpN f n).pair = s.pair := rfl
@[simp] theorem bumpN_tub (f : Fld) (n : Nat) : (s.bumpN f n).tub = s.tub := rfl
@[simp] theorem bumpN_mod (f : Fld) (n : Nat) : (s.bumpN f n).mod_ = s.mod_ := rfl

/-! `bump` -/

@[simp] theorem bump_pending (f : Fld) : (s.bump f).pending = s.pending := rfl
@[simp] theorem bump_free (f : Fld) : (s.bump f).free = s.free := rfl
@[simp] theorem bump_out (f : Fld) : (s.bump f).out = s.out := rfl
@[simp] theorem bump_log (f : Fld) : (s.bump f).log = s.log := rfl
@[simp] theorem bump_flt (f : Fld) : (s.bump f).flt = s.flt := rfl
@[simp] theorem bump_jnl (f : Fld) : (s.bump f).jnl = s.jnl := rfl
@[simp] theorem bump_css (f : Fld) : (s.bump f).css = s.css := rfl
@[simp] theorem bump_eng (f : Fld) : (s.bump f).eng = s.eng := rfl
@[simp] theorem bump_mpt (f : Fld) : (s.bump f).mpt = s.mpt := rfl
@[simp] theorem bump_mem (f : Fld) : (s.bump f).mem = s.mem := rfl
@[simp] theorem bump_hst (f : Fld) : (s.bump f).hst = s.hst := rfl
@[simp] theorem bump_coh (f : Fld) : (s.bump f).coh = s.coh := rfl
@[simp] theorem bump_cores (f : Fld) : (s.bump f).cores = s.cores := rfl
@[simp] theorem bump_pods (f : Fld) : (s.bump f).pods = s.pods := rfl
@[simp] theorem bump_ring (f : Fld) : (s.bump f).ring = s.ring := rfl
@[simp] theorem bump_pair (f : Fld) : (s.bump f).pair = s.pair := rfl
@[simp] theorem bump_tub (f : Fld) : (s.bump f).tub = s.tub := rfl
@[simp] theorem bump_mod (f : Fld) : (s.bump f).mod_ = s.mod_ := rfl

/-! `restartRegs` -/

@[simp] theorem restartRegs_pending (k : Keep → Bool) : (s.restartRegs k).pending = s.pending := rfl
@[simp] theorem restartRegs_regs (k : Keep → Bool) : (s.restartRegs k).regs = s.regs.filter (fun c => k c.fld.info.keep) := rfl
@[simp] theorem restartRegs_free (k : Keep → Bool) : (s.restartRegs k).free = s.free := rfl
@[simp] theorem restartRegs_out (k : Keep → Bool) : (s.restartRegs k).out = s.out := rfl
@[simp] theorem restartRegs_log (k : Keep → Bool) : (s.restartRegs k).log = s.log := rfl
@[simp] theorem restartRegs_flt (k : Keep → Bool) : (s.restartRegs k).flt = s.flt := rfl
@[simp] theorem restartRegs_jnl (k : Keep → Bool) : (s.restartRegs k).jnl = s.jnl := rfl
@[simp] theorem restartRegs_css (k : Keep → Bool) : (s.restartRegs k).css = s.css := rfl
@[simp] theorem restartRegs_eng (k : Keep → Bool) : (s.restartRegs k).eng = s.eng := rfl
@[simp] theorem restartRegs_mpt (k : Keep → Bool) : (s.restartRegs k).mpt = s.mpt := rfl
@[simp] theorem restartRegs_mem (k : Keep → Bool) : (s.restartRegs k).mem = s.mem := rfl
@[simp] theorem restartRegs_hst (k : Keep → Bool) : (s.restartRegs k).hst = s.hst := rfl
@[simp] theorem restartRegs_coh (k : Keep → Bool) : (s.restartRegs k).coh = s.coh := rfl
@[simp] theorem restartRegs_cores (k : Keep → Bool) : (s.restartRegs k).cores = s.cores := rfl
@[simp] theorem restartRegs_pods (k : Keep → Bool) : (s.restartRegs k).pods = s.pods := rfl
@[simp] theorem restartRegs_ring (k : Keep → Bool) : (s.restartRegs k).ring = s.ring := rfl
@[simp] theorem restartRegs_pair (k : Keep → Bool) : (s.restartRegs k).pair = s.pair := rfl
@[simp] theorem restartRegs_tub (k : Keep → Bool) : (s.restartRegs k).tub = s.tub := rfl
@[simp] theorem restartRegs_mod (k : Keep → Bool) : (s.restartRegs k).mod_ = s.mod_ := rfl

/-! `emit` -/

@[simp] theorem emit_pending (o : Out) : (s.emit o).pending = s.pending := rfl
@[simp] theorem emit_regs (o : Out) : (s.emit o).regs = s.regs := rfl
@[simp] theorem emit_free (o : Out) : (s.emit o).free = s.free := rfl
@[simp] theorem emit_out (o : Out) : (s.emit o).out = s.out ++ [o] := rfl
@[simp] theorem emit_log (o : Out) : (s.emit o).log = s.log := rfl
@[simp] theorem emit_flt (o : Out) : (s.emit o).flt = s.flt := rfl
@[simp] theorem emit_jnl (o : Out) : (s.emit o).jnl = s.jnl := rfl
@[simp] theorem emit_css (o : Out) : (s.emit o).css = s.css := rfl
@[simp] theorem emit_eng (o : Out) : (s.emit o).eng = s.eng := rfl
@[simp] theorem emit_mpt (o : Out) : (s.emit o).mpt = s.mpt := rfl
@[simp] theorem emit_mem (o : Out) : (s.emit o).mem = s.mem := rfl
@[simp] theorem emit_hst (o : Out) : (s.emit o).hst = s.hst := rfl
@[simp] theorem emit_coh (o : Out) : (s.emit o).coh = s.coh := rfl
@[simp] theorem emit_cores (o : Out) : (s.emit o).cores = s.cores := rfl
@[simp] theorem emit_pods (o : Out) : (s.emit o).pods = s.pods := rfl
@[simp] theorem emit_ring (o : Out) : (s.emit o).ring = s.ring := rfl
@[simp] theorem emit_pair (o : Out) : (s.emit o).pair = s.pair := rfl
@[simp] theorem emit_tub (o : Out) : (s.emit o).tub = s.tub := rfl
@[simp] theorem emit_mod (o : Out) : (s.emit o).mod_ = s.mod_ := rfl

/-! `withLog` -/

@[simp] theorem withLog_pending (g : LogState → LogState) : (s.withLog g).pending = s.pending := rfl
@[simp] theorem withLog_regs (g : LogState → LogState) : (s.withLog g).regs = s.regs := rfl
@[simp] theorem withLog_free (g : LogState → LogState) : (s.withLog g).free = s.free := rfl
@[simp] theorem withLog_out (g : LogState → LogState) : (s.withLog g).out = s.out := rfl
@[simp] theorem withLog_log (g : LogState → LogState) : (s.withLog g).log = g s.log := rfl
@[simp] theorem withLog_flt (g : LogState → LogState) : (s.withLog g).flt = s.flt := rfl
@[simp] theorem withLog_jnl (g : LogState → LogState) : (s.withLog g).jnl = s.jnl := rfl
@[simp] theorem withLog_css (g : LogState → LogState) : (s.withLog g).css = s.css := rfl
@[simp] theorem withLog_eng (g : LogState → LogState) : (s.withLog g).eng = s.eng := rfl
@[simp] theorem withLog_mpt (g : LogState → LogState) : (s.withLog g).mpt = s.mpt := rfl
@[simp] theorem withLog_mem (g : LogState → LogState) : (s.withLog g).mem = s.mem := rfl
@[simp] theorem withLog_hst (g : LogState → LogState) : (s.withLog g).hst = s.hst := rfl
@[simp] theorem withLog_coh (g : LogState → LogState) : (s.withLog g).coh = s.coh := rfl
@[simp] theorem withLog_cores (g : LogState → LogState) : (s.withLog g).cores = s.cores := rfl
@[simp] theorem withLog_pods (g : LogState → LogState) : (s.withLog g).pods = s.pods := rfl
@[simp] theorem withLog_ring (g : LogState → LogState) : (s.withLog g).ring = s.ring := rfl
@[simp] theorem withLog_pair (g : LogState → LogState) : (s.withLog g).pair = s.pair := rfl
@[simp] theorem withLog_tub (g : LogState → LogState) : (s.withLog g).tub = s.tub := rfl
@[simp] theorem withLog_mod (g : LogState → LogState) : (s.withLog g).mod_ = s.mod_ := rfl

/-! `withJnl` -/

@[simp] theorem withJnl_pending (g : JnlState → JnlState) : (s.withJnl g).pending = s.pending := rfl
@[simp] theorem withJnl_regs (g : JnlState → JnlState) : (s.withJnl g).regs = s.regs := rfl
@[simp] theorem withJnl_free (g : JnlState → JnlState) : (s.withJnl g).free = s.free := rfl
@[simp] theorem withJnl_out (g : JnlState → JnlState) : (s.withJnl g).out = s.out := rfl
@[simp] theorem withJnl_log (g : JnlState → JnlState) : (s.withJnl g).log = s.log := rfl
@[simp] theorem withJnl_flt (g : JnlState → JnlState) : (s.withJnl g).flt = s.flt := rfl
@[simp] theorem withJnl_jnl (g : JnlState → JnlState) : (s.withJnl g).jnl = g s.jnl := rfl
@[simp] theorem withJnl_css (g : JnlState → JnlState) : (s.withJnl g).css = s.css := rfl
@[simp] theorem withJnl_eng (g : JnlState → JnlState) : (s.withJnl g).eng = s.eng := rfl
@[simp] theorem withJnl_mpt (g : JnlState → JnlState) : (s.withJnl g).mpt = s.mpt := rfl
@[simp] theorem withJnl_mem (g : JnlState → JnlState) : (s.withJnl g).mem = s.mem := rfl
@[simp] theorem withJnl_hst (g : JnlState → JnlState) : (s.withJnl g).hst = s.hst := rfl
@[simp] theorem withJnl_coh (g : JnlState → JnlState) : (s.withJnl g).coh = s.coh := rfl
@[simp] theorem withJnl_cores (g : JnlState → JnlState) : (s.withJnl g).cores = s.cores := rfl
@[simp] theorem withJnl_pods (g : JnlState → JnlState) : (s.withJnl g).pods = s.pods := rfl
@[simp] theorem withJnl_ring (g : JnlState → JnlState) : (s.withJnl g).ring = s.ring := rfl
@[simp] theorem withJnl_pair (g : JnlState → JnlState) : (s.withJnl g).pair = s.pair := rfl
@[simp] theorem withJnl_tub (g : JnlState → JnlState) : (s.withJnl g).tub = s.tub := rfl
@[simp] theorem withJnl_mod (g : JnlState → JnlState) : (s.withJnl g).mod_ = s.mod_ := rfl

/-! `withCss` -/

@[simp] theorem withCss_pending (g : CssState → CssState) : (s.withCss g).pending = s.pending := rfl
@[simp] theorem withCss_regs (g : CssState → CssState) : (s.withCss g).regs = s.regs := rfl
@[simp] theorem withCss_free (g : CssState → CssState) : (s.withCss g).free = s.free := rfl
@[simp] theorem withCss_out (g : CssState → CssState) : (s.withCss g).out = s.out := rfl
@[simp] theorem withCss_log (g : CssState → CssState) : (s.withCss g).log = s.log := rfl
@[simp] theorem withCss_flt (g : CssState → CssState) : (s.withCss g).flt = s.flt := rfl
@[simp] theorem withCss_jnl (g : CssState → CssState) : (s.withCss g).jnl = s.jnl := rfl
@[simp] theorem withCss_css (g : CssState → CssState) : (s.withCss g).css = g s.css := rfl
@[simp] theorem withCss_eng (g : CssState → CssState) : (s.withCss g).eng = s.eng := rfl
@[simp] theorem withCss_mpt (g : CssState → CssState) : (s.withCss g).mpt = s.mpt := rfl
@[simp] theorem withCss_mem (g : CssState → CssState) : (s.withCss g).mem = s.mem := rfl
@[simp] theorem withCss_hst (g : CssState → CssState) : (s.withCss g).hst = s.hst := rfl
@[simp] theorem withCss_coh (g : CssState → CssState) : (s.withCss g).coh = s.coh := rfl
@[simp] theorem withCss_cores (g : CssState → CssState) : (s.withCss g).cores = s.cores := rfl
@[simp] theorem withCss_pods (g : CssState → CssState) : (s.withCss g).pods = s.pods := rfl
@[simp] theorem withCss_ring (g : CssState → CssState) : (s.withCss g).ring = s.ring := rfl
@[simp] theorem withCss_pair (g : CssState → CssState) : (s.withCss g).pair = s.pair := rfl
@[simp] theorem withCss_tub (g : CssState → CssState) : (s.withCss g).tub = s.tub := rfl
@[simp] theorem withCss_mod (g : CssState → CssState) : (s.withCss g).mod_ = s.mod_ := rfl

/-! `withEng` -/

@[simp] theorem withEng_pending (g : EngState → EngState) : (s.withEng g).pending = s.pending := rfl
@[simp] theorem withEng_regs (g : EngState → EngState) : (s.withEng g).regs = s.regs := rfl
@[simp] theorem withEng_free (g : EngState → EngState) : (s.withEng g).free = s.free := rfl
@[simp] theorem withEng_out (g : EngState → EngState) : (s.withEng g).out = s.out := rfl
@[simp] theorem withEng_log (g : EngState → EngState) : (s.withEng g).log = s.log := rfl
@[simp] theorem withEng_flt (g : EngState → EngState) : (s.withEng g).flt = s.flt := rfl
@[simp] theorem withEng_jnl (g : EngState → EngState) : (s.withEng g).jnl = s.jnl := rfl
@[simp] theorem withEng_css (g : EngState → EngState) : (s.withEng g).css = s.css := rfl
@[simp] theorem withEng_eng (g : EngState → EngState) : (s.withEng g).eng = g s.eng := rfl
@[simp] theorem withEng_mpt (g : EngState → EngState) : (s.withEng g).mpt = s.mpt := rfl
@[simp] theorem withEng_mem (g : EngState → EngState) : (s.withEng g).mem = s.mem := rfl
@[simp] theorem withEng_hst (g : EngState → EngState) : (s.withEng g).hst = s.hst := rfl
@[simp] theorem withEng_coh (g : EngState → EngState) : (s.withEng g).coh = s.coh := rfl
@[simp] theorem withEng_cores (g : EngState → EngState) : (s.withEng g).cores = s.cores := rfl
@[simp] theorem withEng_pods (g : EngState → EngState) : (s.withEng g).pods = s.pods := rfl
@[simp] theorem withEng_ring (g : EngState → EngState) : (s.withEng g).ring = s.ring := rfl
@[simp] theorem withEng_pair (g : EngState → EngState) : (s.withEng g).pair = s.pair := rfl
@[simp] theorem withEng_tub (g : EngState → EngState) : (s.withEng g).tub = s.tub := rfl
@[simp] theorem withEng_mod (g : EngState → EngState) : (s.withEng g).mod_ = s.mod_ := rfl

/-! `withMpt` -/

@[simp] theorem withMpt_pending (g : MptState → MptState) : (s.withMpt g).pending = s.pending := rfl
@[simp] theorem withMpt_regs (g : MptState → MptState) : (s.withMpt g).regs = s.regs := rfl
@[simp] theorem withMpt_free (g : MptState → MptState) : (s.withMpt g).free = s.free := rfl
@[simp] theorem withMpt_out (g : MptState → MptState) : (s.withMpt g).out = s.out := rfl
@[simp] theorem withMpt_log (g : MptState → MptState) : (s.withMpt g).log = s.log := rfl
@[simp] theorem withMpt_flt (g : MptState → MptState) : (s.withMpt g).flt = s.flt := rfl
@[simp] theorem withMpt_jnl (g : MptState → MptState) : (s.withMpt g).jnl = s.jnl := rfl
@[simp] theorem withMpt_css (g : MptState → MptState) : (s.withMpt g).css = s.css := rfl
@[simp] theorem withMpt_eng (g : MptState → MptState) : (s.withMpt g).eng = s.eng := rfl
@[simp] theorem withMpt_mpt (g : MptState → MptState) : (s.withMpt g).mpt = g s.mpt := rfl
@[simp] theorem withMpt_mem (g : MptState → MptState) : (s.withMpt g).mem = s.mem := rfl
@[simp] theorem withMpt_hst (g : MptState → MptState) : (s.withMpt g).hst = s.hst := rfl
@[simp] theorem withMpt_coh (g : MptState → MptState) : (s.withMpt g).coh = s.coh := rfl
@[simp] theorem withMpt_cores (g : MptState → MptState) : (s.withMpt g).cores = s.cores := rfl
@[simp] theorem withMpt_pods (g : MptState → MptState) : (s.withMpt g).pods = s.pods := rfl
@[simp] theorem withMpt_ring (g : MptState → MptState) : (s.withMpt g).ring = s.ring := rfl
@[simp] theorem withMpt_pair (g : MptState → MptState) : (s.withMpt g).pair = s.pair := rfl
@[simp] theorem withMpt_tub (g : MptState → MptState) : (s.withMpt g).tub = s.tub := rfl
@[simp] theorem withMpt_mod (g : MptState → MptState) : (s.withMpt g).mod_ = s.mod_ := rfl

/-! `withMem` -/

@[simp] theorem withMem_pending (g : MemState → MemState) : (s.withMem g).pending = s.pending := rfl
@[simp] theorem withMem_regs (g : MemState → MemState) : (s.withMem g).regs = s.regs := rfl
@[simp] theorem withMem_free (g : MemState → MemState) : (s.withMem g).free = s.free := rfl
@[simp] theorem withMem_out (g : MemState → MemState) : (s.withMem g).out = s.out := rfl
@[simp] theorem withMem_log (g : MemState → MemState) : (s.withMem g).log = s.log := rfl
@[simp] theorem withMem_flt (g : MemState → MemState) : (s.withMem g).flt = s.flt := rfl
@[simp] theorem withMem_jnl (g : MemState → MemState) : (s.withMem g).jnl = s.jnl := rfl
@[simp] theorem withMem_css (g : MemState → MemState) : (s.withMem g).css = s.css := rfl
@[simp] theorem withMem_eng (g : MemState → MemState) : (s.withMem g).eng = s.eng := rfl
@[simp] theorem withMem_mpt (g : MemState → MemState) : (s.withMem g).mpt = s.mpt := rfl
@[simp] theorem withMem_mem (g : MemState → MemState) : (s.withMem g).mem = g s.mem := rfl
@[simp] theorem withMem_hst (g : MemState → MemState) : (s.withMem g).hst = s.hst := rfl
@[simp] theorem withMem_coh (g : MemState → MemState) : (s.withMem g).coh = s.coh := rfl
@[simp] theorem withMem_cores (g : MemState → MemState) : (s.withMem g).cores = s.cores := rfl
@[simp] theorem withMem_pods (g : MemState → MemState) : (s.withMem g).pods = s.pods := rfl
@[simp] theorem withMem_ring (g : MemState → MemState) : (s.withMem g).ring = s.ring := rfl
@[simp] theorem withMem_pair (g : MemState → MemState) : (s.withMem g).pair = s.pair := rfl
@[simp] theorem withMem_tub (g : MemState → MemState) : (s.withMem g).tub = s.tub := rfl
@[simp] theorem withMem_mod (g : MemState → MemState) : (s.withMem g).mod_ = s.mod_ := rfl

/-! `withHst` -/

@[simp] theorem withHst_pending (g : HstState → HstState) : (s.withHst g).pending = s.pending := rfl
@[simp] theorem withHst_regs (g : HstState → HstState) : (s.withHst g).regs = s.regs := rfl
@[simp] theorem withHst_free (g : HstState → HstState) : (s.withHst g).free = s.free := rfl
@[simp] theorem withHst_out (g : HstState → HstState) : (s.withHst g).out = s.out := rfl
@[simp] theorem withHst_log (g : HstState → HstState) : (s.withHst g).log = s.log := rfl
@[simp] theorem withHst_flt (g : HstState → HstState) : (s.withHst g).flt = s.flt := rfl
@[simp] theorem withHst_jnl (g : HstState → HstState) : (s.withHst g).jnl = s.jnl := rfl
@[simp] theorem withHst_css (g : HstState → HstState) : (s.withHst g).css = s.css := rfl
@[simp] theorem withHst_eng (g : HstState → HstState) : (s.withHst g).eng = s.eng := rfl
@[simp] theorem withHst_mpt (g : HstState → HstState) : (s.withHst g).mpt = s.mpt := rfl
@[simp] theorem withHst_mem (g : HstState → HstState) : (s.withHst g).mem = s.mem := rfl
@[simp] theorem withHst_hst (g : HstState → HstState) : (s.withHst g).hst = g s.hst := rfl
@[simp] theorem withHst_coh (g : HstState → HstState) : (s.withHst g).coh = s.coh := rfl
@[simp] theorem withHst_cores (g : HstState → HstState) : (s.withHst g).cores = s.cores := rfl
@[simp] theorem withHst_pods (g : HstState → HstState) : (s.withHst g).pods = s.pods := rfl
@[simp] theorem withHst_ring (g : HstState → HstState) : (s.withHst g).ring = s.ring := rfl
@[simp] theorem withHst_pair (g : HstState → HstState) : (s.withHst g).pair = s.pair := rfl
@[simp] theorem withHst_tub (g : HstState → HstState) : (s.withHst g).tub = s.tub := rfl
@[simp] theorem withHst_mod (g : HstState → HstState) : (s.withHst g).mod_ = s.mod_ := rfl

/-! `withCoh` -/

@[simp] theorem withCoh_pending (g : CohState → CohState) : (s.withCoh g).pending = s.pending := rfl
@[simp] theorem withCoh_regs (g : CohState → CohState) : (s.withCoh g).regs = s.regs := rfl
@[simp] theorem withCoh_free (g : CohState → CohState) : (s.withCoh g).free = s.free := rfl
@[simp] theorem withCoh_out (g : CohState → CohState) : (s.withCoh g).out = s.out := rfl
@[simp] theorem withCoh_log (g : CohState → CohState) : (s.withCoh g).log = s.log := rfl
@[simp] theorem withCoh_flt (g : CohState → CohState) : (s.withCoh g).flt = s.flt := rfl
@[simp] theorem withCoh_jnl (g : CohState → CohState) : (s.withCoh g).jnl = s.jnl := rfl
@[simp] theorem withCoh_css (g : CohState → CohState) : (s.withCoh g).css = s.css := rfl
@[simp] theorem withCoh_eng (g : CohState → CohState) : (s.withCoh g).eng = s.eng := rfl
@[simp] theorem withCoh_mpt (g : CohState → CohState) : (s.withCoh g).mpt = s.mpt := rfl
@[simp] theorem withCoh_mem (g : CohState → CohState) : (s.withCoh g).mem = s.mem := rfl
@[simp] theorem withCoh_hst (g : CohState → CohState) : (s.withCoh g).hst = s.hst := rfl
@[simp] theorem withCoh_coh (g : CohState → CohState) : (s.withCoh g).coh = g s.coh := rfl
@[simp] theorem withCoh_cores (g : CohState → CohState) : (s.withCoh g).cores = s.cores := rfl
@[simp] theorem withCoh_pods (g : CohState → CohState) : (s.withCoh g).pods = s.pods := rfl
@[simp] theorem withCoh_ring (g : CohState → CohState) : (s.withCoh g).ring = s.ring := rfl
@[simp] theorem withCoh_pair (g : CohState → CohState) : (s.withCoh g).pair = s.pair := rfl
@[simp] theorem withCoh_tub (g : CohState → CohState) : (s.withCoh g).tub = s.tub := rfl
@[simp] theorem withCoh_mod (g : CohState → CohState) : (s.withCoh g).mod_ = s.mod_ := rfl

/-! `withRing` -/

@[simp] theorem withRing_pending (g : RingState → RingState) : (s.withRing g).pending = s.pending := rfl
@[simp] theorem withRing_regs (g : RingState → RingState) : (s.withRing g).regs = s.regs := rfl
@[simp] theorem withRing_free (g : RingState → RingState) : (s.withRing g).free = s.free := rfl
@[simp] theorem withRing_out (g : RingState → RingState) : (s.withRing g).out = s.out := rfl
@[simp] theorem withRing_log (g : RingState → RingState) : (s.withRing g).log = s.log := rfl
@[simp] theorem withRing_flt (g : RingState → RingState) : (s.withRing g).flt = s.flt := rfl
@[simp] theorem withRing_jnl (g : RingState → RingState) : (s.withRing g).jnl = s.jnl := rfl
@[simp] theorem withRing_css (g : RingState → RingState) : (s.withRing g).css = s.css := rfl
@[simp] theorem withRing_eng (g : RingState → RingState) : (s.withRing g).eng = s.eng := rfl
@[simp] theorem withRing_mpt (g : RingState → RingState) : (s.withRing g).mpt = s.mpt := rfl
@[simp] theorem withRing_mem (g : RingState → RingState) : (s.withRing g).mem = s.mem := rfl
@[simp] theorem withRing_hst (g : RingState → RingState) : (s.withRing g).hst = s.hst := rfl
@[simp] theorem withRing_coh (g : RingState → RingState) : (s.withRing g).coh = s.coh := rfl
@[simp] theorem withRing_cores (g : RingState → RingState) : (s.withRing g).cores = s.cores := rfl
@[simp] theorem withRing_pods (g : RingState → RingState) : (s.withRing g).pods = s.pods := rfl
@[simp] theorem withRing_ring (g : RingState → RingState) : (s.withRing g).ring = g s.ring := rfl
@[simp] theorem withRing_pair (g : RingState → RingState) : (s.withRing g).pair = s.pair := rfl
@[simp] theorem withRing_tub (g : RingState → RingState) : (s.withRing g).tub = s.tub := rfl
@[simp] theorem withRing_mod (g : RingState → RingState) : (s.withRing g).mod_ = s.mod_ := rfl

/-! `withPair` -/

@[simp] theorem withPair_pending (g : PairState → PairState) : (s.withPair g).pending = s.pending := rfl
@[simp] theorem withPair_regs (g : PairState → PairState) : (s.withPair g).regs = s.regs := rfl
@[simp] theorem withPair_free (g : PairState → PairState) : (s.withPair g).free = s.free := rfl
@[simp] theorem withPair_out (g : PairState → PairState) : (s.withPair g).out = s.out := rfl
@[simp] theorem withPair_log (g : PairState → PairState) : (s.withPair g).log = s.log := rfl
@[simp] theorem withPair_flt (g : PairState → PairState) : (s.withPair g).flt = s.flt := rfl
@[simp] theorem withPair_jnl (g : PairState → PairState) : (s.withPair g).jnl = s.jnl := rfl
@[simp] theorem withPair_css (g : PairState → PairState) : (s.withPair g).css = s.css := rfl
@[simp] theorem withPair_eng (g : PairState → PairState) : (s.withPair g).eng = s.eng := rfl
@[simp] theorem withPair_mpt (g : PairState → PairState) : (s.withPair g).mpt = s.mpt := rfl
@[simp] theorem withPair_mem (g : PairState → PairState) : (s.withPair g).mem = s.mem := rfl
@[simp] theorem withPair_hst (g : PairState → PairState) : (s.withPair g).hst = s.hst := rfl
@[simp] theorem withPair_coh (g : PairState → PairState) : (s.withPair g).coh = s.coh := rfl
@[simp] theorem withPair_cores (g : PairState → PairState) : (s.withPair g).cores = s.cores := rfl
@[simp] theorem withPair_pods (g : PairState → PairState) : (s.withPair g).pods = s.pods := rfl
@[simp] theorem withPair_ring (g : PairState → PairState) : (s.withPair g).ring = s.ring := rfl
@[simp] theorem withPair_pair (g : PairState → PairState) : (s.withPair g).pair = g s.pair := rfl
@[simp] theorem withPair_tub (g : PairState → PairState) : (s.withPair g).tub = s.tub := rfl
@[simp] theorem withPair_mod (g : PairState → PairState) : (s.withPair g).mod_ = s.mod_ := rfl

/-! `withTub` -/

@[simp] theorem withTub_pending (g : TubState → TubState) : (s.withTub g).pending = s.pending := rfl
@[simp] theorem withTub_regs (g : TubState → TubState) : (s.withTub g).regs = s.regs := rfl
@[simp] theorem withTub_free (g : TubState → TubState) : (s.withTub g).free = s.free := rfl
@[simp] theorem withTub_out (g : TubState → TubState) : (s.withTub g).out = s.out := rfl
@[simp] theorem withTub_log (g : TubState → TubState) : (s.withTub g).log = s.log := rfl
@[simp] theorem withTub_flt (g : TubState → TubState) : (s.withTub g).flt = s.flt := rfl
@[simp] theorem withTub_jnl (g : TubState → TubState) : (s.withTub g).jnl = s.jnl := rfl
@[simp] theorem withTub_css (g : TubState → TubState) : (s.withTub g).css = s.css := rfl
@[simp] theorem withTub_eng (g : TubState → TubState) : (s.withTub g).eng = s.eng := rfl
@[simp] theorem withTub_mpt (g : TubState → TubState) : (s.withTub g).mpt = s.mpt := rfl
@[simp] theorem withTub_mem (g : TubState → TubState) : (s.withTub g).mem = s.mem := rfl
@[simp] theorem withTub_hst (g : TubState → TubState) : (s.withTub g).hst = s.hst := rfl
@[simp] theorem withTub_coh (g : TubState → TubState) : (s.withTub g).coh = s.coh := rfl
@[simp] theorem withTub_cores (g : TubState → TubState) : (s.withTub g).cores = s.cores := rfl
@[simp] theorem withTub_pods (g : TubState → TubState) : (s.withTub g).pods = s.pods := rfl
@[simp] theorem withTub_ring (g : TubState → TubState) : (s.withTub g).ring = s.ring := rfl
@[simp] theorem withTub_pair (g : TubState → TubState) : (s.withTub g).pair = s.pair := rfl
@[simp] theorem withTub_tub (g : TubState → TubState) : (s.withTub g).tub = g s.tub := rfl
@[simp] theorem withTub_mod (g : TubState → TubState) : (s.withTub g).mod_ = s.mod_ := rfl

/-! `withMod` -/

@[simp] theorem withMod_pending (g : ModState → ModState) : (s.withMod g).pending = s.pending := rfl
@[simp] theorem withMod_regs (g : ModState → ModState) : (s.withMod g).regs = s.regs := rfl
@[simp] theorem withMod_free (g : ModState → ModState) : (s.withMod g).free = s.free := rfl
@[simp] theorem withMod_out (g : ModState → ModState) : (s.withMod g).out = s.out := rfl
@[simp] theorem withMod_log (g : ModState → ModState) : (s.withMod g).log = s.log := rfl
@[simp] theorem withMod_flt (g : ModState → ModState) : (s.withMod g).flt = s.flt := rfl
@[simp] theorem withMod_jnl (g : ModState → ModState) : (s.withMod g).jnl = s.jnl := rfl
@[simp] theorem withMod_css (g : ModState → ModState) : (s.withMod g).css = s.css := rfl
@[simp] theorem withMod_eng (g : ModState → ModState) : (s.withMod g).eng = s.eng := rfl
@[simp] theorem withMod_mpt (g : ModState → ModState) : (s.withMod g).mpt = s.mpt := rfl
@[simp] theorem withMod_mem (g : ModState → ModState) : (s.withMod g).mem = s.mem := rfl
@[simp] theorem withMod_hst (g : ModState → ModState) : (s.withMod g).hst = s.hst := rfl
@[simp] theorem withMod_coh (g : ModState → ModState) : (s.withMod g).coh = s.coh := rfl
@[simp] theorem withMod_cores (g : ModState → ModState) : (s.withMod g).cores = s.cores := rfl
@[simp] theorem withMod_pods (g : ModState → ModState) : (s.withMod g).pods = s.pods := rfl
@[simp] theorem withMod_ring (g : ModState → ModState) : (s.withMod g).ring = s.ring := rfl
@[simp] theorem withMod_pair (g : ModState → ModState) : (s.withMod g).pair = s.pair := rfl
@[simp] theorem withMod_tub (g : ModState → ModState) : (s.withMod g).tub = s.tub := rfl
@[simp] theorem withMod_mod (g : ModState → ModState) : (s.withMod g).mod_ = g s.mod_ := rfl

/-! `modCore` -/

@[simp] theorem modCore_pending (k : Nat) (g : OctCore → OctCore) : (s.modCore k g).pending = s.pending := rfl
@[simp] theorem modCore_regs (k : Nat) (g : OctCore → OctCore) : (s.modCore k g).regs = s.regs := rfl
@[simp] theorem modCore_free (k : Nat) (g : OctCore → OctCore) : (s.modCore k g).free = s.free := rfl
@[simp] theorem modCore_out (k : Nat) (g : OctCore → OctCore) : (s.modCore k g).out = s.out := rfl
@[simp] theorem modCore_log (k : Nat) (g : OctCore → OctCore) : (s.modCore k g).log = s.log := rfl
@[simp] theorem modCore_flt (k : Nat) (g : OctCore → OctCore) : (s.modCore k g).flt = s.flt := rfl
@[simp] theorem modCore_jnl (k : Nat) (g : OctCore → OctCore) : (s.modCore k g).jnl = s.jnl := rfl
@[simp] theorem modCore_css (k : Nat) (g : OctCore → OctCore) : (s.modCore k g).css = s.css := rfl
@[simp] theorem modCore_eng (k : Nat) (g : OctCore → OctCore) : (s.modCore k g).eng = s.eng := rfl
@[simp] theorem modCore_mpt (k : Nat) (g : OctCore → OctCore) : (s.modCore k g).mpt = s.mpt := rfl
@[simp] theorem modCore_mem (k : Nat) (g : OctCore → OctCore) : (s.modCore k g).mem = s.mem := rfl
@[simp] theorem modCore_hst (k : Nat) (g : OctCore → OctCore) : (s.modCore k g).hst = s.hst := rfl
@[simp] theorem modCore_coh (k : Nat) (g : OctCore → OctCore) : (s.modCore k g).coh = s.coh := rfl
@[simp] theorem modCore_cores (k : Nat) (g : OctCore → OctCore) : (s.modCore k g).cores = kvMod s.cores k g := rfl
@[simp] theorem modCore_pods (k : Nat) (g : OctCore → OctCore) : (s.modCore k g).pods = s.pods := rfl
@[simp] theorem modCore_ring (k : Nat) (g : OctCore → OctCore) : (s.modCore k g).ring = s.ring := rfl
@[simp] theorem modCore_pair (k : Nat) (g : OctCore → OctCore) : (s.modCore k g).pair = s.pair := rfl
@[simp] theorem modCore_tub (k : Nat) (g : OctCore → OctCore) : (s.modCore k g).tub = s.tub := rfl
@[simp] theorem modCore_mod (k : Nat) (g : OctCore → OctCore) : (s.modCore k g).mod_ = s.mod_ := rfl

/-! `modPod` -/

@[simp] theorem modPod_pending (p : Nat) (g : PodSt → PodSt) : (s.modPod p g).pending = s.pending := rfl
@[simp] theorem modPod_regs (p : Nat) (g : PodSt → PodSt) : (s.modPod p g).regs = s.regs := rfl
@[simp] theorem modPod_free (p : Nat) (g : PodSt → PodSt) : (s.modPod p g).free = s.free := rfl
@[simp] theorem modPod_out (p : Nat) (g : PodSt → PodSt) : (s.modPod p g).out = s.out := rfl
@[simp] theorem modPod_log (p : Nat) (g : PodSt → PodSt) : (s.modPod p g).log = s.log := rfl
@[simp] theorem modPod_flt (p : Nat) (g : PodSt → PodSt) : (s.modPod p g).flt = s.flt := rfl
@[simp] theorem modPod_jnl (p : Nat) (g : PodSt → PodSt) : (s.modPod p g).jnl = s.jnl := rfl
@[simp] theorem modPod_css (p : Nat) (g : PodSt → PodSt) : (s.modPod p g).css = s.css := rfl
@[simp] theorem modPod_eng (p : Nat) (g : PodSt → PodSt) : (s.modPod p g).eng = s.eng := rfl
@[simp] theorem modPod_mpt (p : Nat) (g : PodSt → PodSt) : (s.modPod p g).mpt = s.mpt := rfl
@[simp] theorem modPod_mem (p : Nat) (g : PodSt → PodSt) : (s.modPod p g).mem = s.mem := rfl
@[simp] theorem modPod_hst (p : Nat) (g : PodSt → PodSt) : (s.modPod p g).hst = s.hst := rfl
@[simp] theorem modPod_coh (p : Nat) (g : PodSt → PodSt) : (s.modPod p g).coh = s.coh := rfl
@[simp] theorem modPod_cores (p : Nat) (g : PodSt → PodSt) : (s.modPod p g).cores = s.cores := rfl
@[simp] theorem modPod_ring (p : Nat) (g : PodSt → PodSt) : (s.modPod p g).ring = s.ring := rfl
@[simp] theorem modPod_pair (p : Nat) (g : PodSt → PodSt) : (s.modPod p g).pair = s.pair := rfl
@[simp] theorem modPod_tub (p : Nat) (g : PodSt → PodSt) : (s.modPod p g).tub = s.tub := rfl
@[simp] theorem modPod_mod (p : Nat) (g : PodSt → PodSt) : (s.modPod p g).mod_ = s.mod_ := rfl

/-! `setFn` -/

@[simp] theorem setFn_pending (n : Nat) (g : Fn) : (s.setFn n g).pending = s.pending := rfl
@[simp] theorem setFn_regs (n : Nat) (g : Fn) : (s.setFn n g).regs = s.regs := rfl
@[simp] theorem setFn_free (n : Nat) (g : Fn) : (s.setFn n g).free = s.free := rfl
@[simp] theorem setFn_out (n : Nat) (g : Fn) : (s.setFn n g).out = s.out := rfl
@[simp] theorem setFn_log (n : Nat) (g : Fn) : (s.setFn n g).log = s.log := rfl
@[simp] theorem setFn_flt (n : Nat) (g : Fn) : (s.setFn n g).flt = s.flt := rfl
@[simp] theorem setFn_jnl (n : Nat) (g : Fn) : (s.setFn n g).jnl = s.jnl := rfl
@[simp] theorem setFn_css (n : Nat) (g : Fn) : (s.setFn n g).css = s.css := rfl
@[simp] theorem setFn_eng (n : Nat) (g : Fn) : (s.setFn n g).eng = s.eng := rfl
@[simp] theorem setFn_mpt (n : Nat) (g : Fn) : (s.setFn n g).mpt = s.mpt := rfl
@[simp] theorem setFn_mem (n : Nat) (g : Fn) : (s.setFn n g).mem = s.mem := rfl
@[simp] theorem setFn_coh (n : Nat) (g : Fn) : (s.setFn n g).coh = s.coh := rfl
@[simp] theorem setFn_cores (n : Nat) (g : Fn) : (s.setFn n g).cores = s.cores := rfl
@[simp] theorem setFn_pods (n : Nat) (g : Fn) : (s.setFn n g).pods = s.pods := rfl
@[simp] theorem setFn_ring (n : Nat) (g : Fn) : (s.setFn n g).ring = s.ring := rfl
@[simp] theorem setFn_pair (n : Nat) (g : Fn) : (s.setFn n g).pair = s.pair := rfl
@[simp] theorem setFn_tub (n : Nat) (g : Fn) : (s.setFn n g).tub = s.tub := rfl
@[simp] theorem setFn_mod (n : Nat) (g : Fn) : (s.setFn n g).mod_ = s.mod_ := rfl

/-! `setMsix` -/

@[simp] theorem setMsix_pending (n v : Nat) (m : Msix) : (s.setMsix n v m).pending = s.pending := rfl
@[simp] theorem setMsix_regs (n v : Nat) (m : Msix) : (s.setMsix n v m).regs = s.regs := rfl
@[simp] theorem setMsix_free (n v : Nat) (m : Msix) : (s.setMsix n v m).free = s.free := rfl
@[simp] theorem setMsix_out (n v : Nat) (m : Msix) : (s.setMsix n v m).out = s.out := rfl
@[simp] theorem setMsix_log (n v : Nat) (m : Msix) : (s.setMsix n v m).log = s.log := rfl
@[simp] theorem setMsix_flt (n v : Nat) (m : Msix) : (s.setMsix n v m).flt = s.flt := rfl
@[simp] theorem setMsix_jnl (n v : Nat) (m : Msix) : (s.setMsix n v m).jnl = s.jnl := rfl
@[simp] theorem setMsix_css (n v : Nat) (m : Msix) : (s.setMsix n v m).css = s.css := rfl
@[simp] theorem setMsix_eng (n v : Nat) (m : Msix) : (s.setMsix n v m).eng = s.eng := rfl
@[simp] theorem setMsix_mpt (n v : Nat) (m : Msix) : (s.setMsix n v m).mpt = s.mpt := rfl
@[simp] theorem setMsix_mem (n v : Nat) (m : Msix) : (s.setMsix n v m).mem = s.mem := rfl
@[simp] theorem setMsix_coh (n v : Nat) (m : Msix) : (s.setMsix n v m).coh = s.coh := rfl
@[simp] theorem setMsix_cores (n v : Nat) (m : Msix) : (s.setMsix n v m).cores = s.cores := rfl
@[simp] theorem setMsix_pods (n v : Nat) (m : Msix) : (s.setMsix n v m).pods = s.pods := rfl
@[simp] theorem setMsix_ring (n v : Nat) (m : Msix) : (s.setMsix n v m).ring = s.ring := rfl
@[simp] theorem setMsix_pair (n v : Nat) (m : Msix) : (s.setMsix n v m).pair = s.pair := rfl
@[simp] theorem setMsix_tub (n v : Nat) (m : Msix) : (s.setMsix n v m).tub = s.tub := rfl
@[simp] theorem setMsix_mod (n v : Nat) (m : Msix) : (s.setMsix n v m).mod_ = s.mod_ := rfl

end Sys2Proof.Machine
end

