-- ==== Sys2Proof/Laws/Log.lean ====
section
/-!
SUPPORT. Frames of the change log and the fault collector: an entry or an event changes registers, the log, the
collector, outputs, MSI-X bits and interrupts of cores, and nothing else; and memory operations that may report faults keep
the canonical form.
-/

namespace Sys2Proof.Machine

/-- What no log entry and no fault event touches. -/
def State.beside (s : State) := 
  (s.pending, s.free, s.jnl, s.css, s.eng, s.mpt, s.mem, s.coh, s.pods, s.ring, s.pair, s.tub, s.mod_)

@[simp] theorem setB_beside (s : State) (f : Fld) (i v : Nat) : (s.setB f i v).beside = s.beside := rfl
@[simp] theorem set_beside (s : State) (f : Fld) (v : Nat) : (s.set f v).beside = s.beside := rfl
@[simp] theorem setBitB_beside (s : State) (f : Fld) (i k : Nat) (b : Bool) : (s.setBitB f i k b).beside = s.beside := rfl
@[simp] theorem bump_beside (s : State) (f : Fld) : (s.bump f).beside = s.beside := rfl
@[simp] theorem bumpB_beside (s : State) (f : Fld) (i n : Nat) : (s.bumpB f i n).beside = s.beside := rfl
@[simp] theorem setPlevel_beside (s : State) (n v : Nat) : (s.setPlevel n v).beside = s.beside := rfl

@[simp] theorem raiseVec_beside (fn v : Nat) (s : State) : (raiseVec fn v s).beside = s.beside := by
  unfold raiseVec
  dsimp only
  split_ifs <;> rfl

@[simp] theorem pendInt_beside (k src : Nat) (s : State) : (pendInt k src s).beside = s.beside := by
  unfold pendInt
  dsimp only
  split
  · split_ifs <;> rfl
  · show State.beside { (if src < 2 then _ else _ : State) with cores := _ } = _
    split_ifs <;> rfl

@[simp] theorem unpendInt_beside (k src : Nat) (s : State) : (unpendInt k src s).beside = s.beside := by
  unfold unpendInt
  dsimp only
  split_ifs <;> rfl

@[simp] theorem logPut_beside (o k t a b : Nat) (s : State) : (logPut o k t a b s).beside = s.beside := rfl

@[simp] theorem logDrop_beside (s : State) : (logDrop s).beside = s.beside := rfl

@[simp] theorem logRaw_beside (o k t a b : Nat) (s : State) : (logRaw o k t a b s).beside = s.beside := by
  unfold logRaw logGap
  dsimp only
  split_ifs <;> rfl

@[simp] theorem capture_beside (e : FaultIn) (l : Nat) (x : Bool) (s : State) : (capture e l x s).beside = s.beside := by
  unfold capture
  simp only [set_beside]

@[simp] theorem countFault_beside (e : FaultIn) (x : Bool) (s : State) : (countFault e x s).beside = s.beside := by
  unfold countFault
  dsimp only
  split_ifs <;> simp only [setBitB_beside, bumpB_beside]

@[simp] theorem latchFault_beside (e : FaultIn) (l : Nat) (x : Bool) (s : State) :
    (latchFault e l x s).beside = s.beside := by
  unfold latchFault
  dsimp only
  split_ifs <;> simp only [capture_beside, setPlevel_beside, setBitB_beside]

@[simp] theorem fwFaultIrq_beside (s : State) : (fwFaultIrq s).beside = s.beside := by
  unfold fwFaultIrq
  split_ifs
  · exact pendInt_beside _ _ _
  · rfl

@[simp] theorem reactFault_beside (e : FaultIn) (l : Nat) (s : State) : (reactFault e l s).beside = s.beside := by
  unfold reactFault
  dsimp only
  split_ifs
  · rfl
  · show (raiseVec 0 _ (fwFaultIrq s)).beside = _
    simp
  · simp

/-- An event at the collector leaves these components alone. -/
@[simp] theorem noteFault_beside (e : FaultIn) (s : State) : (noteFault e s).beside = s.beside := by
  unfold noteFault
  dsimp only
  split_ifs <;> simp

@[simp] theorem raiseUe_beside (a b c d e f : Nat) (s : State) : (raiseUe a b c d e f s).beside = s.beside :=
  noteFault_beside _ s

@[simp] theorem raiseCe_beside (a b c d e : Nat) (s : State) : (raiseCe a b c d e s).beside = s.beside :=
  noteFault_beside _ s

@[simp] theorem checkLogFull_beside (s : State) : (checkLogFull s).beside = s.beside := by
  unfold checkLogFull
  split_ifs
  · rfl
  · rw [raiseVec_beside, raiseUe_beside]; rfl
  · rfl

/-- A log entry of hardware leaves these components alone. -/
@[simp] theorem logHw_beside (k t a b : Nat) (s : State) : (logHw k t a b s).beside = s.beside := by
  unfold logHw; simp

/-- A log entry of an origin leaves these components alone. -/
@[simp] theorem logBy_beside (o : Origin) (k t a b : Nat) (s : State) : (logBy o k t a b s).beside = s.beside := by
  unfold logBy; simp

/-- Components that agree beside the log have the same memory. -/
theorem mem_of_beside {s t : State} (h : s.beside = t.beside) : s.mem = t.mem := by
  simp only [State.beside, Prod.mk.injEq] at h
  exact h.2.2.2.2.2.2.1

@[simp] theorem noteFault_mem (e : FaultIn) (s : State) : (noteFault e s).mem = s.mem := mem_of_beside (noteFault_beside e s)
@[simp] theorem raiseUe_mem (a b c d e f : Nat) (s : State) : (raiseUe a b c d e f s).mem = s.mem := noteFault_mem _ s
@[simp] theorem raiseCe_mem (a b c d e : Nat) (s : State) : (raiseCe a b c d e s).mem = s.mem := noteFault_mem _ s
@[simp] theorem checkLogFull_mem (s : State) : (checkLogFull s).mem = s.mem := mem_of_beside (checkLogFull_beside s)
@[simp] theorem logRaw_mem (o k t a b : Nat) (s : State) : (logRaw o k t a b s).mem = s.mem :=
  mem_of_beside (logRaw_beside o k t a b s)

@[simp] theorem epbFlag_mem (f : Fld) (s : State) : (epbFlag f s).mem = s.mem := by unfold epbFlag; split_ifs <;> rfl

/-- Marking a stripe failed changes no byte of DRAM. -/
theorem markStripe_dram (o k : Nat) (s : State) : (markStripe o k s).mem.dram = s.mem.dram := by
  unfold markStripe
  dsimp only
  split_ifs <;> simp only [raiseUe_mem, epbFlag_mem, withMem_mem, setBitB_mem, checkLogFull_mem, logRaw_mem]

/-- Counting a correction changes no byte of DRAM. -/
theorem countCorrection_dram (k : Nat) (s : State) : (countCorrection k s).mem.dram = s.mem.dram := by
  unfold countCorrection
  dsimp only
  split_ifs <;> simp only [markStripe_dram, raiseCe_mem, withMem_mem, bumpB_mem]

/-- Marking a line poisoned changes no byte of DRAM. -/
theorem newPoison_dram (l : Nat) (s : State) : (newPoison l s).mem.dram = s.mem.dram := by
  unfold newPoison
  dsimp only
  rw [raiseUe_mem]
  split_ifs <;> simp only [withMem_mem, set_mem, bump_mem]

/-- Reading a line, with its write-back, keeps the canonical form. -/
theorem readLine_wf (b : Bool) (l : Nat) (s : State) (hw : Memory.wf s.mem.dram = true) :
    Memory.wf (readLine b l s).2.mem.dram = true := by
  unfold readLine
  dsimp only
  by_cases h : ((kvGet s.mem.errs l []).isEmpty && !s.poisoned l && decide ((s.leftOut l).length < 2)) = true
  · rw [if_pos h]; exact hw
  · rw [if_neg h]
    split
    · exact hw
    · exact hw
    · dsimp only
      split_ifs
      · exact putLine_wf _ _ _ (by rw [countCorrection_dram]; exact hw)
      · rw [countCorrection_dram]; exact hw
    · dsimp only
      by_cases h2 : (s.bump Fld.MEM_POISON_READS_COUNT).poisoned l = true
      · rw [if_pos h2]; exact hw
      · rw [if_neg h2, newPoison_dram]; exact putLine_wf _ _ _ hw

/-- Writing part or all of a line keeps the canonical form. -/
theorem writeLine_wf (l off : Nat) (d : List Byte) (s : State) (hw : Memory.wf s.mem.dram = true) :
    Memory.wf (writeLine l off d s).2.mem.dram = true := by
  unfold writeLine
  split_ifs
  · exact putLine_wf _ _ _ hw
  · have h := readLine_wf false l s hw
    split
    · next heq => rw [heq] at h; exact h
    · next heq => rw [heq] at h; exact putLine_wf _ _ _ h

end Sys2Proof.Machine
end

