-- ==== Sys2Proof/Laws/Octip.lean ====
section
/-!
SUPPORT. What running one Octip instruction comes to on a core that is ready for it, so that no proof unfolds `octip`: on a main
core and on Tuber's.
-/

namespace Sys2Proof.Machine

@[simp] theorem flag_zero (k : OctCore) : k.flag 0 = k := by simp [OctCore.flag]

@[simp] theorem setG_pc (k : OctCore) (d : Nat) (v : Word) : (k.setG d v).pc = k.pc := by unfold OctCore.setG; split <;> rfl
@[simp] theorem setG_retire (k : OctCore) (d : Nat) (v : Word) : (k.setG d v).retire = k.retire := by
  unfold OctCore.setG; split <;> rfl
@[simp] theorem setP_pc (k : OctCore) (d : Nat) (v : Bool) : (k.setP d v).pc = k.pc := by unfold OctCore.setP; split <;> rfl
@[simp] theorem setP_retire (k : OctCore) (d : Nat) (v : Bool) : (k.setP d v).retire = k.retire := by
  unfold OctCore.setP; split <;> rfl
@[simp] theorem setF_pc (k : OctCore) (d : Nat) (v : Word) : (k.setF d v).pc = k.pc := rfl
@[simp] theorem setF_retire (k : OctCore) (d : Nat) (v : Word) : (k.setF d v).retire = k.retire := rfl
@[simp] theorem flag_pc (k : OctCore) (m : Word) : (k.flag m).pc = k.pc := rfl
@[simp] theorem flag_retire (k : OctCore) (m : Word) : (k.flag m).retire = k.retire := rfl

/-- A main core that is ready does the instruction's own work. -/
theorem octipOn_main (c : OctCtx) (k : OctCore) (s : State) (h : OctReady c k s) (body tuber : OctCore → State → Eff) :
    octipOn c body tuber s = finish (coreKey c) k.pc (BitVec.ofNat 64 (2 * c.parcels)) (body k s) := by
  obtain ⟨h0, h1, h2, h3, h4, h5, h6, h7⟩ := h
  rw [octipOn, if_neg h0]
  simp [octipMain, h1, h2, h3, h4, issue, h5, h6, h7]

/-- Tuber's core, when it is ready, does the instruction's own work. -/
theorem octipOn_tuber (c : OctCtx) (k : OctCore) (s : State) (h : TuberReady c k s) (body tuber : OctCore → State → Eff) :
    octipOn c body tuber s = finishTuber k.pc (BitVec.ofNat 64 (2 * c.parcels)) (tuber k s) := by
  obtain ⟨h0, h1, h2, h3, h4, h5, h6⟩ := h
  rw [octipOn, if_pos h0]
  simp [octipTuber, h1, h2, h3, issue, h4, h5, h6]

/-- An instruction that only changes its core, on either kind of core. -/
theorem octip_onCore (c : OctCtx) (k : OctCore) (s : State) (h : OnCore c k s) (f : OctCore → OctCore)
    (body : OctCore → State → Eff) (hb : body k s = .ok f s) (hr : (f k).retire = k.retire) :
    octip c body s = retiredOn c k (f k) s := by
  rcases h with h | h
  · rw [octip, octipOn_main c k s h, hb, retiredOn, if_neg h.1]
    simp [finish, State.modCore, kvMod, h.2.1, retired, retiredAt, nextPc, retireTo, hr]
  · rw [octip, octipOn_tuber c k s h, hb, retiredOn, if_pos h.1]
    simp [finishTuber, State.modTuber, h.2.2.1, tuberRetired, nextPc, retireTo, hr]

/-- An integer instruction writes g[D] and ORs its flags. -/
theorem intOp_onCore (c : OctCtx) (k : OctCore) (s : State) (h : OnCore c k s) (d : Nat) (r : OctCore → IntRes) :
    intOp c d r s = retiredOn c k ((k.setG d (r k).val).flag (r k).flags) s :=
  octip_onCore c k s h (fun x => (x.setG d (r k).val).flag (r k).flags) _ rfl (by simp)

/-- A predicate instruction writes p[D]. -/
theorem predOp_onCore (c : OctCtx) (k : OctCore) (s : State) (h : OnCore c k s) (d : Nat) (r : OctCore → Bool) :
    predOp c d r s = retiredOn c k (k.setP d (r k)) s :=
  octip_onCore c k s h (fun x => x.setP d (r k)) _ rfl (by simp)

/-- An instruction that Octip-S does not have is illegal on Tuber's core. -/
theorem octipNotS_tuber (c : OctCtx) (k : OctCore) (s : State) (h : TuberReady c k s) (body : OctCore → State → Eff) :
    octipNotS c body s = s.modTuber (enterTuber 0x100 k.pc 0x01 0) := by
  rw [octipNotS, octipOn_tuber c k s h]; rfl

end Sys2Proof.Machine
end

