-- ==== Sys2Proof/Laws/Orders.lean ====
section
/-!
SUPPORT. What the operations that most commands are built of come to when nothing stands in their way: an access to a lit block, a
command register, a Tuber service, an order at the front of its program, a message held for its flow.
-/

namespace Sys2Proof.Machine

/-- With nothing latched an access finds the state as it is. -/
theorem dropLatch_none (s : State) (h : s.hst.latch = none) : dropLatch s = s := by
  unfold dropLatch
  rw [← h]

theorem accessed_none (o : Origin) (s : State) (h : s.hst.latch = none) : accessed o s = s := by
  cases o <;> first | rfl | exact dropLatch_none s h

/-- An access to a block with power reaches it. -/
theorem reach_lit (s : State) (o : Origin) (r : Reg) (h : s.lit o r) (act : State → State) : reach o r act s = act s := by
  unfold reach
  rw [if_neg h.1]
  simp only [accessed_none o s h.2.2.2, h.2.1, h.2.2.1, Bool.not_true, Bool.false_eq_true, if_false]

/-- A command register of a lit block: the first check that fails gives RESULT; else the log decides. -/
theorem command_lit (s : State) (o : Origin) (r : Reg) (v : Nat) (res : Fld) (ref : Nat) (checks : List (Bool × Nat))
    (act : State → State) (h : s.lit o r) :
    command o r v res ref checks act s = match checks.find? (·.1) with
      | some q => s.set res q.2
      | none => if s.logTakes o then act ((logBy o 1 (regBase r) 0 v s).set res 0) else (logRefuse s).set res ref := by
  unfold command
  rw [reach_lit _ _ _ h]
  simp only [logged]
  cases checks.find? (·.1) <;> rfl

/-- The same of a command register with a BUSY bit that reads 0. -/
theorem busyCommand_lit (s : State) (o : Origin) (r : Reg) (busy : Fld) (v : Nat) (res : Fld) (ref : Nat) (checks : List (Bool × Nat))
    (act : State → State) (h : s.lit o r) (hb : s.on busy = false) :
    busyCommand o r busy v res ref checks act s = match checks.find? (·.1) with
      | some q => s.set res q.2
      | none => if s.logTakes o then act ((logBy o 1 (regBase r) 0 v s).set res 0) else (logRefuse s).set res ref := by
  unfold busyCommand
  rw [if_neg (by simp [hb]), command_lit _ _ _ _ _ _ _ _ h]

/-- A service of a Tuber that runs, on the request at the front of the ring: mode, buffer, then its own checks (R546). -/
theorem tubServe_running (mode : Bool) (need : Nat) (q : TubReq) (checks : List (Bool × Nat)) (act : State → State)
    (s : State) (h2 : s.on .TMB_STATUS_RESTARTING = false) (h3 : s.on .TMB_STATUS_RUNNING = true) :
    tubServe mode need q checks act s =
      if !mode then respond q.code rspRefused q.tag 0 [] s
      else if decide (0 < need) && (decide (q.len < need) || !s.inTmbWindow q.buf need) then respond q.code rspBadArg q.tag 0 [] s
      else match checks.find? (·.1) with
        | some p => respond q.code p.2 q.tag 0 [] s
        | none => act s := by
  unfold tubServe
  rw [if_neg (by simp [h2]), if_neg (by simp [h3])]
  split_ifs <;> first | rfl | (cases checks.find? (·.1) <;> rfl)

/-- A service whose request stands at the front of the ring is run on it. -/
theorem service_front (code : Nat) (run : TubReq → State → State) (s t : State) (d : List Byte) (h1 : s.pdOn 1 = true)
    (h2 : frontRequest s = (some d, t)) (h3 : (parseReq d).code = code) : service code run s = run (parseReq d) t := by
  unfold service
  rw [if_neg (by simp [h1]), h2]
  simp [h3]

theorem serviceLogged_taken (code kind target old new tag : Nat) (act : State → State) (s : State) (h : s.logTakes .tuber = true) :
    serviceLogged code kind target old new tag act s = act (logBy .tuber kind target old new s) := by
  unfold serviceLogged logged
  rw [if_pos h]

theorem serviceLogged_refused (code kind target old new tag : Nat) (act : State → State) (s : State) (h : s.logTakes .tuber = false) :
    serviceLogged code kind target old new tag act s = respond code rspLogFull tag 0 [] (logRefuse s) := by
  unfold serviceLogged logged
  rw [if_neg (by simp [h])]

/-- An order that is ready at the front of its program is taken. -/
theorem takeOrder_ready {k op : Nat} {p : Prog} {f : Fetched} {t : List Fetched} {s u : State} (h : OrderReady k op p f t s u)
    (place : RunAt) (act : Prog → Run → Ord → State → State) :
    takeOrder k op place act s =
      act (beginProg p f t place) (beginRun p f place) (parseOrd f.raw) (beginState k p f t place u) := by
  obtain ⟨h1, h2, h3, h4, h5, h6⟩ := h
  unfold takeOrder withProg
  simp only [h1, h2, h3, h4]
  rw [if_neg (by simp [h5, h6])]
  simp only [beginState, beginProg, beginRun, beginXfer, h6]
  try (cases p.join <;> rfl)

/-- What answers MCTP answers with power and unless it is silenced. -/
theorem mctp_on (act : State → State) (s : State) (h : s.mode ≠ Mode.off) (h' : s.on .MOD_MCTP_DISABLE = false) :
    mctp act s = act s := by
  unfold mctp
  rw [if_neg (by simp [h, h'])]

/-- One step of the delivery of what a flow holds. -/
theorem deliverHeld_succ (key n : Nat) (s : State) :
    deliverHeld key (n + 1) s = match kvGet? (kvGet s.ring.rx key {}).held (((kvGet s.ring.rx key {}).cum + 1) % 2 ^ 32) with
      | none => s
      | some m => deliverHeld key n (deliverMsg m (s.withRing (fun r =>
          { r with rx := kvSet r.rx key { kvGet s.ring.rx key {} with
            cum := ((kvGet s.ring.rx key {}).cum + 1) % 2 ^ 32
            held := kvDel (kvGet s.ring.rx key {}).held (((kvGet s.ring.rx key {}).cum + 1) % 2 ^ 32) } }))) := rfl

/-- What LOG_FULL comes to (R552). -/
theorem logFull_eq (s : State) : s.logFull =
    decide (logCapacity - 65536 ≤ s.logUnexported ∨
      512 ≤ s.get .LOG_CKPT_EXPORTED_MADE - s.get .LOG_CKPT_EXPORTED_COUNT) := rfl

end Sys2Proof.Machine
end

