-- ==== Sys2Proof/Laws/Regs.lean ====
section
/-!
SUPPORT. Laws of the register file: a field reads what was last written to it, cut to its width, and a write leaves every
other field and copy alone.
-/

namespace Sys2Proof.Machine

theorem cellsGet_cellsDel_same (l : List RegCell) (f : Fld) (i : Nat) : cellsGet (cellsDel l f i) f i = none := by
  induction l with
  | nil => rfl
  | cons c t ih =>
    simp only [cellsDel, List.filter_cons]
    cases h : cellIs f i c with
    | true => simp only [Bool.not_true]; exact ih
    | false => simp only [Bool.not_false, if_true, cellsGet, h]; exact ih

theorem cellIs_ne {f g : Fld} {i j : Nat} (h : ¬(f = g ∧ i = j)) {c : RegCell} (hc : cellIs f i c = true) :
    cellIs g j c = false := by
  simp only [cellIs, Bool.and_eq_true, decide_eq_true_eq, Bool.and_eq_false_imp, decide_eq_false_iff_not] at *
  rintro h1 h2
  exact h ⟨hc.1.symm.trans h1, hc.2.symm.trans h2⟩

theorem cellsGet_cellsDel_ne (l : List RegCell) (f g : Fld) (i j : Nat) (h : ¬(f = g ∧ i = j)) :
    cellsGet (cellsDel l f i) g j = cellsGet l g j := by
  induction l with
  | nil => rfl
  | cons c t ih =>
    simp only [cellsDel, List.filter_cons]
    cases hc : cellIs f i c with
    | true => simp only [Bool.not_true, cellsGet, cellIs_ne h hc]; exact ih
    | false => simp only [Bool.not_false, if_true, cellsGet]; rw [← ih]; rfl

theorem cellsGet_cellsIns_same (l : List RegCell) (f : Fld) (i v : Nat) (h : cellsGet l f i = none) :
    cellsGet (cellsIns l ⟨f, i, v⟩) f i = some v := by
  induction l with
  | nil => simp [cellsIns, cellsGet, cellIs]
  | cons d t ih =>
    simp only [cellsGet] at h
    split_ifs at h with hd
    simp only [cellsIns]
    split_ifs with hl
    · simp [cellsGet, cellIs]
    · simp [cellsGet, hd, ih h]

theorem cellsGet_cellsIns_ne (l : List RegCell) (c : RegCell) (g : Fld) (j : Nat) (h : cellIs g j c = false) :
    cellsGet (cellsIns l c) g j = cellsGet l g j := by
  induction l with
  | nil => simp [cellsIns, cellsGet, h]
  | cons d t ih =>
    simp only [cellsIns]
    split_ifs with hl
    · simp [cellsGet, h]
    · simp [cellsGet, ih]

/-- A field reads the value last written to it, cut to its width. -/
@[simp] theorem getB_setB_same (s : State) (f : Fld) (i v : Nat) : (s.setB f i v).getB f i = v % 2 ^ f.width := by
  unfold State.getB State.setB cellsPut
  dsimp only
  split_ifs with h
  · simp [cellsGet_cellsDel_same, h]
  · simp [cellsGet_cellsIns_same _ f i _ (cellsGet_cellsDel_same _ f i)]

/-- A write leaves every other field and copy alone. -/
theorem getB_setB_ne (s : State) (f g : Fld) (i j v : Nat) (h : ¬(f = g ∧ i = j)) :
    (s.setB f i v).getB g j = s.getB g j := by
  unfold State.getB State.setB cellsPut
  dsimp only
  split_ifs
  · rw [cellsGet_cellsDel_ne _ f g i j h]
  · rw [cellsGet_cellsIns_ne, cellsGet_cellsDel_ne _ f g i j h]
    simp only [cellIs, Bool.and_eq_false_imp, decide_eq_true_eq, decide_eq_false_iff_not]
    exact fun h1 h2 => h ⟨h1, h2⟩

@[simp] theorem getB_set_same (s : State) (f : Fld) (v : Nat) : (s.set f v).getB f 0 = v % 2 ^ f.width :=
  getB_setB_same s f 0 v

theorem getB_set_ne (s : State) (f g : Fld) (j v : Nat) (h : f ≠ g) : (s.set f v).getB g j = s.getB g j :=
  getB_setB_ne s f g 0 j v (fun e => h e.1)

@[simp] theorem get_set_same (s : State) (f : Fld) (v : Nat) : (s.set f v).get f = v % 2 ^ f.width :=
  getB_setB_same s f 0 v

theorem get_set_ne (s : State) (f g : Fld) (v : Nat) (h : f ≠ g) : (s.set f v).get g = s.get g :=
  getB_set_ne s f g 0 v h

/-- A counter after a count: one more in its own copy, held at the top of its width. -/
theorem getB_bumpB_same (s : State) (f : Fld) (i n : Nat) :
    (s.bumpB f i n).getB f i = min (s.getB f i + n) (2 ^ f.width - 1) := by
  unfold State.bumpB
  rw [getB_setB_same, Nat.mod_eq_of_lt]
  have := Nat.two_pow_pos f.width
  omega

theorem getB_bumpB_ne (s : State) (f g : Fld) (i j n : Nat) (h : ¬(f = g ∧ i = j)) :
    (s.bumpB f i n).getB g j = s.getB g j := getB_setB_ne s f g i j _ h

/-- Clearing bit `k` of a number clears that bit and no other. -/
theorem testBit_clearBit (v k j : Nat) : (clearBit v k).testBit j = if j = k then false else v.testBit j := by
  unfold clearBit
  by_cases h : v.testBit k
  · rw [if_pos h]
    have hr : v % 2 ^ k < 2 ^ k := Nat.mod_lt _ (Nat.two_pow_pos k)
    have hv : v = 2 ^ k * (v / 2 ^ k) + v % 2 ^ k := (Nat.div_add_mod v (2 ^ k)).symm
    have ho : v / 2 ^ k % 2 = 1 := by simpa [Nat.testBit, Nat.shiftRight_eq_div_pow, Nat.and_comm 1, Nat.and_one_is_mod] using h
    obtain ⟨q, hq⟩ : ∃ q, v / 2 ^ k = 2 * q + 1 := ⟨v / 2 ^ k / 2, by omega⟩
    have h1 : v = 2 ^ k * (2 * q + 1) + v % 2 ^ k := by rw [← hq]; exact hv
    have h2 : v - 2 ^ k = 2 ^ k * (2 * q) + v % 2 ^ k := by
      have : 2 ^ k * (2 * q + 1) = 2 ^ k * (2 * q) + 2 ^ k := by ring
      omega
    rw [h2, Nat.testBit_two_pow_mul_add _ hr]
    conv_rhs => rw [h1, Nat.testBit_two_pow_mul_add _ hr]
    by_cases hj : j < k
    · have : j ≠ k := by omega
      simp [hj, this]
    · by_cases hk : j = k
      · subst hk; simp
      · obtain ⟨n, hn⟩ : ∃ n, j - k = n + 1 := ⟨j - k - 1, by omega⟩
        simp only [hj, hk, if_false, hn, Nat.testBit_succ]
        congr 1
        omega
  · rw [if_neg h]
    by_cases hj : j = k
    · subst hj; simpa using h
    · simp [hj]

/-- Writing bit `k` of a number writes that bit and no other. -/
theorem testBit_putBit (v k j : Nat) (b : Bool) : (putBit v k b).testBit j = if j = k then b else v.testBit j := by
  unfold putBit
  cases b
  · simp only [Bool.false_eq_true, if_false, testBit_clearBit]
  · simp only [if_true, setBit, Nat.testBit_or, Nat.testBit_two_pow]
    by_cases hj : j = k
    · subst hj; simp
    · have : k ≠ j := fun e => hj e.symm
      simp [hj, this]

/-- A bit of a field reads the bit last written to it, and every other bit of every field keeps its value. -/
theorem bitB_setBitB (s : State) (f g i j k l b) (hk : l < g.width) : (s.setBitB f i k b).bitB g j l = if g = f ∧ j = i ∧ l = k then b else s.bitB g j l := by
  unfold State.bitB State.setBitB
  by_cases h : f = g ∧ i = j
  · obtain ⟨rfl, rfl⟩ := h
    rw [getB_setB_same, Nat.testBit_mod_two_pow, testBit_putBit]
    simp [hk]
  · rw [getB_setB_ne _ _ _ _ _ _ h, if_neg (by rintro ⟨a, b, _⟩; exact h ⟨a.symm, b.symm⟩)]

end Sys2Proof.Machine
end

