-- ==== Sys2Proof/Laws/Settle.lean ====
section
/-!
SUPPORT. What `settle` leaves: every core sees the levels of the shared interrupt sources, and PWR_HOLD mirrors what Tuber holds.
-/

namespace Sys2Proof.Machine

theorem levelW : Fld.width .POD_INT_PEND_LEVEL = 5 := by decide

theorem pendInt_regs (k src : Nat) (h : ¬ src < 2) (s : State) : (pendInt k src s).regs = (s.setBitB .POD_INT_PEND_LEVEL k (src-2) true).regs := by
  unfold pendInt; simp only [h, if_false]; split <;> rfl
theorem unpendInt_regs (k src : Nat) (h : ¬ src < 2) (s : State) : (unpendInt k src s).regs = (s.setBitB .POD_INT_PEND_LEVEL k (src-2) false).regs := by
  unfold unpendInt; simp only [h, if_false]
theorem pendInt_keys (k src : Nat) (s : State) : ∀ j ∈ kvKeys (pendInt k src s).cores, j ∈ kvKeys s.cores := by
  intro j h
  have e : ∀ b : Bool, (if src < 2 then s.setBitB .POD_INT_PEND_LATCHED k src b else s.setBitB .POD_INT_PEND_LEVEL k (src-2) b).cores = s.cores := by intro b; split <;> rfl
  unfold pendInt at h
  dsimp only at h
  split at h
  · exact e true ▸ h
  · rename_i c hc
    rcases mem_kvKeys_kvSet _ _ _ j h with h | h
    · subst h; exact kvGet?_mem _ _ _ (e true ▸ hc)
    · exact e true ▸ h
theorem unpendInt_keys (k src : Nat) (s : State) : ∀ j ∈ kvKeys (unpendInt k src s).cores, j ∈ kvKeys s.cores := by
  intro j h
  unfold unpendInt at h
  dsimp only at h
  have := keys_kvMod _ _ _ j h
  split at this <;> exact this
theorem getB_regs {s t : State} (h : s.regs = t.regs) (f i) : s.getB f i = t.getB f i := by unfold State.getB; rw [h]
theorem bitB_regs {s t : State} (h : s.regs = t.regs) (f i k) : s.bitB f i k = t.bitB f i k := by unfold State.bitB; rw [getB_regs h]

theorem irqLevel_regs {s t : State} (h : ∀ f, f ≠ .POD_INT_PEND_LEVEL → s.get f = t.get f) (src) : s.irqLevel src = t.irqLevel src := by
  unfold State.irqLevel
  split
  · rw [h .TMB_RSP_CTL_PROD (by decide), h .TMB_RSP_CTL_CONS (by decide)]
  · rw [h .CSS_CALL_CTL_PROD (by decide), h .CSS_CALL_CTL_CONS (by decide)]
  · rw [h .ENG_DREQ_CTL_HEAD (by decide), h .ENG_DREQ_CTL_TAIL (by decide)]
  · rw [h .MPT_EVQ_CTL_HEAD (by decide), h .MPT_EVQ_CTL_TAIL (by decide)]

/-- `syncCore` on one source. -/
def sync1 (k : Nat) (s : State) (src : Nat) : State :=
    let now := s.bitB .POD_INT_PEND_LEVEL k (src - 2)
    let want := s.irqLevel src
    if now == want then s else if want then pendInt k src s else unpendInt k src s

/-- What `syncCore k` leaves alone. -/
structure SyncKeeps (k : Nat) (s t : State) : Prop where
  keys : ∀ j ∈ kvKeys t.cores, j ∈ kvKeys s.cores
  other : ∀ f i, f ≠ .POD_INT_PEND_LEVEL → t.getB f i = s.getB f i
  lev : ∀ i l, i ≠ k → l < 5 → t.bitB .POD_INT_PEND_LEVEL i l = s.bitB .POD_INT_PEND_LEVEL i l
  eng : t.eng = s.eng
  md : t.mod_ = s.mod_

theorem sync1_R (k s src) (hs : src ∈ [3,4,5,6]) : SyncKeeps k s (sync1 k s src) ∧ (sync1 k s src).bitB .POD_INT_PEND_LEVEL k (src-2) = s.irqLevel src ∧
   (∀ l, l < 5 → l ≠ src - 2 → (sync1 k s src).bitB .POD_INT_PEND_LEVEL k l = s.bitB .POD_INT_PEND_LEVEL k l) := by
  have h2 : ¬ src < 2 := by simp at hs; omega
  have hl : src - 2 < Fld.width .POD_INT_PEND_LEVEL := by rw [levelW]; simp at hs; omega
  unfold sync1
  dsimp only
  by_cases h : (s.bitB .POD_INT_PEND_LEVEL k (src - 2) == s.irqLevel src) = true
  · rw [if_pos h]
    exact ⟨⟨fun _ h => h, fun _ _ _ => rfl, fun _ _ _ _ => rfl, rfl, rfl⟩, by simpa using h, fun _ _ _ => rfl⟩
  · rw [if_neg h]
    by_cases hw : s.irqLevel src = true
    · rw [if_pos hw]
      have hb := pendInt_beside k src s
      simp only [State.beside, Prod.mk.injEq] at hb
      refine ⟨⟨pendInt_keys k src s, ?_, ?_, hb.2.2.2.2.1, hb.2.2.2.2.2.2.2.2.2.2.2.2⟩, ?_, ?_⟩
      · intro f i hf; rw [getB_regs (pendInt_regs k src h2 s)]; exact getB_setB_ne _ _ _ _ _ _ (fun e => hf e.1.symm)
      · intro i l hi hl5; rw [bitB_regs (pendInt_regs k src h2 s), bitB_setBitB _ _ _ _ _ _ _ _ (by rw [levelW]; exact hl5), if_neg (by rintro ⟨_, e, _⟩; exact hi e)]
      · rw [bitB_regs (pendInt_regs k src h2 s), bitB_setBitB _ _ _ _ _ _ _ _ hl]; simp [hw]
      · intro l hl5 hne; rw [bitB_regs (pendInt_regs k src h2 s), bitB_setBitB _ _ _ _ _ _ _ _ (by rw [levelW]; exact hl5), if_neg (by rintro ⟨_, _, e⟩; exact hne e)]
    · rw [if_neg hw]
      have hb := unpendInt_beside k src s
      simp only [State.beside, Prod.mk.injEq] at hb
      refine ⟨⟨unpendInt_keys k src s, ?_, ?_, hb.2.2.2.2.1, hb.2.2.2.2.2.2.2.2.2.2.2.2⟩, ?_, ?_⟩
      · intro f i hf; rw [getB_regs (unpendInt_regs k src h2 s)]; exact getB_setB_ne _ _ _ _ _ _ (fun e => hf e.1.symm)
      · intro i l hi hl5; rw [bitB_regs (unpendInt_regs k src h2 s), bitB_setBitB _ _ _ _ _ _ _ _ (by rw [levelW]; exact hl5), if_neg (by rintro ⟨_, e, _⟩; exact hi e)]
      · rw [bitB_regs (unpendInt_regs k src h2 s), bitB_setBitB _ _ _ _ _ _ _ _ hl]; simp at hw; simp [hw]
      · intro l hl5 hne; rw [bitB_regs (unpendInt_regs k src h2 s), bitB_setBitB _ _ _ _ _ _ _ _ (by rw [levelW]; exact hl5), if_neg (by rintro ⟨_, _, e⟩; exact hne e)]

theorem SyncKeeps.trans {k s t u} (a : SyncKeeps k s t) (b : SyncKeeps k t u) : SyncKeeps k s u :=
  ⟨fun j h => a.keys j (b.keys j h), fun f i h => (b.other f i h).trans (a.other f i h), fun i l h h5 => (b.lev i l h h5).trans (a.lev i l h h5), b.eng.trans a.eng, b.md.trans a.md⟩

theorem SyncKeeps.irq {k s t} (a : SyncKeeps k s t) (src) : t.irqLevel src = s.irqLevel src := irqLevel_regs (fun f hf => a.other f 0 hf) src

theorem syncCore_R (s k) : SyncKeeps k s (syncCore s k) ∧ ∀ src ∈ [3,4,5,6], (syncCore s k).bitB .POD_INT_PEND_LEVEL k (src - 2) = s.irqLevel src := by
  show SyncKeeps k s (sync1 k (sync1 k (sync1 k (sync1 k s 3) 4) 5) 6) ∧ ∀ src ∈ [3,4,5,6], (sync1 k (sync1 k (sync1 k (sync1 k s 3) 4) 5) 6).bitB .POD_INT_PEND_LEVEL k (src - 2) = s.irqLevel src
  obtain ⟨r1, a1, b1⟩ := sync1_R k s 3 (by simp)
  obtain ⟨r2, a2, b2⟩ := sync1_R k (sync1 k s 3) 4 (by simp)
  obtain ⟨r3, a3, b3⟩ := sync1_R k (sync1 k (sync1 k s 3) 4) 5 (by simp)
  obtain ⟨r4, a4, b4⟩ := sync1_R k (sync1 k (sync1 k (sync1 k s 3) 4) 5) 6 (by simp)
  refine ⟨((r1.trans r2).trans r3).trans r4, ?_⟩
  intro src hs
  simp at hs
  rcases hs with rfl | rfl | rfl | rfl
  · rw [b4 _ (by omega) (by omega), b3 _ (by omega) (by omega), b2 _ (by omega) (by omega), a1]
  · rw [b4 _ (by omega) (by omega), b3 _ (by omega) (by omega), a2, r1.irq]
  · rw [b4 _ (by omega) (by omega), a3, r2.irq, r1.irq]
  · rw [a4, r3.irq, r2.irq, r1.irq]

theorem fold_sync (l : List Nat) : ∀ s, 
    let t := l.foldl syncCore s
    (∀ j ∈ kvKeys t.cores, j ∈ kvKeys s.cores) ∧ (∀ f i, f ≠ .POD_INT_PEND_LEVEL → t.getB f i = s.getB f i) ∧ t.eng = s.eng ∧ t.mod_ = s.mod_ ∧
    (∀ k ∈ l, ∀ src ∈ [3,4,5,6], t.bitB .POD_INT_PEND_LEVEL k (src-2) = s.irqLevel src) ∧
    (∀ k, k ∉ l → ∀ n, n < 5 → t.bitB .POD_INT_PEND_LEVEL k n = s.bitB .POD_INT_PEND_LEVEL k n) := by
  induction l with
  | nil => intro s; exact ⟨fun _ h => h, fun _ _ _ => rfl, rfl, rfl, fun _ h => by simp at h, fun _ _ _ _ => rfl⟩
  | cons k l ih =>
    intro s
    obtain ⟨r, a⟩ := syncCore_R s k
    obtain ⟨i1, i2, i3, i4, i5, i6⟩ := ih (syncCore s k)
    refine ⟨fun j h => r.keys j (i1 j h), fun f i h => (i2 f i h).trans (r.other f i h), i3.trans r.eng, i4.trans r.md, ?_, ?_⟩
    · intro q hq src hs
      by_cases hm : q ∈ l
      · exact (i5 q hm src hs).trans (r.irq src)
      · have : q = k := by simp at hq; tauto
        subst this
        have h5 : src - 2 < 5 := by simp at hs; omega
        exact (i6 q hm _ h5).trans (a src hs)
    · intro q hq n hn
      simp at hq
      exact (i6 q hq.2 n hn).trans (r.lev q n hq.1 hn)

theorem holdW : Fld.width .PWR_HOLD_HELD = 36 := by decide

theorem syncHold_holds (s : State) : (syncHold s).holdsAgree := by
  unfold State.holdsAgree
  have key : ∀ k, k < 36 → (syncHold s).bitB .PWR_HOLD_HELD 0 k = if k = 29 then (s.pdOn 29 && s.eng.doms.any (fun q => !s.eng.probeOut.contains q.1) && !s.going 29) else if k = 28 then !s.eng.slots.isEmpty else if k = 1 then true else s.bitB .PWR_HOLD_HELD 0 k := by
    intro k hk
    unfold syncHold
    dsimp only
    have hk' : k < Fld.width .PWR_HOLD_HELD := by rw [holdW]; exact hk
    rw [bitB_setBitB _ _ _ _ _ _ _ _ hk', bitB_setBitB _ _ _ _ _ _ _ _ hk', bitB_setBitB _ _ _ _ _ _ _ _ hk']
    have p1 : ∀ (a b : Bool), (((s.setBitB .PWR_HOLD_HELD 0 1 a).setBitB .PWR_HOLD_HELD 0 28 b).pdOn 29) = s.pdOn 29 := by
      intro a b; unfold State.pdOn State.get State.setBitB
      rw [getB_setB_ne _ _ _ _ _ _ (by decide), getB_setB_ne _ _ _ _ _ _ (by decide)]
    have p2 : ∀ (a b : Bool), (((s.setBitB .PWR_HOLD_HELD 0 1 a).setBitB .PWR_HOLD_HELD 0 28 b).going 29) = s.going 29 := by
      intro a b; rfl
    rw [p1, p2]
    simp only [true_and]
    rfl
  have hp : (syncHold s).pdOn 29 = s.pdOn 29 := by
    unfold syncHold State.pdOn State.get State.setBitB
    dsimp only
    rw [getB_setB_ne _ _ _ _ _ _ (by decide), getB_setB_ne _ _ _ _ _ _ (by decide), getB_setB_ne _ _ _ _ _ _ (by decide)]
  refine ⟨?_, ?_, ?_⟩
  · rw [key 1 (by omega)]; simp
  · rw [key 28 (by omega)]; simp; rfl
  · rw [key 29 (by omega), hp]; simp; rfl

theorem settle_Inv (s : State) : (settle s).Inv := by
  unfold settle
  dsimp only
  generalize hu : syncHold (epbWatch (pumpMemory (reactAll 64 (mirrorContexts (pumpMedia (yieldLook (drainEnd (dormantEnd (startEnd (ringWake (outclaimEnd (reactAll 64 s))))))))))))= u
  have hh : u.holdsAgree := by rw [← hu]; exact syncHold_holds _
  obtain ⟨a1, a2, a3, a4, a5, a6⟩ := fold_sync (kvKeys u.cores) u
  refine ⟨?_, ?_⟩
  · intro k hk src hs
    rw [a5 k (a1 k hk) src hs]
    exact (irqLevel_regs (fun f hf => a2 f 0 hf) src).symm
  · unfold State.holdsAgree at *
    have e : ∀ k, (List.foldl syncCore u (kvKeys u.cores)).bitB .PWR_HOLD_HELD 0 k = u.bitB .PWR_HOLD_HELD 0 k := by
      intro k; unfold State.bitB; rw [a2 _ _ (by decide)]
    rw [e, e, e, a3]
    have p : (List.foldl syncCore u (kvKeys u.cores)).pdOn 29 = u.pdOn 29 := by unfold State.pdOn State.get; rw [a2 _ _ (by decide)]
    have q : (List.foldl syncCore u (kvKeys u.cores)).going 29 = u.going 29 := by unfold State.going; rw [a4]
    rw [p, q]
    exact hh

end Sys2Proof.Machine
end

