-- ==== Sys2Proof/WellFormed.lean ====
section
/-!
DEFINITION. Which commands are well formed: every operand lies in the range the spec gives it. A command that is not
well formed cannot come from any sender; `exec` is total and does not ask.
-/

namespace Sys2Proof

/-- A general or floating-point register number (R310, R311). -/
def regOk (n : Nat) : Bool := decide (n < 32)
/-- A predicate number (R311). -/
def predOk (n : Nat) : Bool := decide (n < 8)
/-- log2 of an Octip access size in bytes. -/
def sizeOk (n : Nat) : Bool := decide (n < 4)
/-- The bytes of a register access (R11). -/
def accessOk (n : Nat) : Bool := decide (n = 4) || decide (n = 8)
/-- A function: 0 the PF, 1 to 64 a VF. -/
def fnOk (n : Nat) : Bool := decide (n ≤ 64)
/-- A subchannel number (R104). -/
def schOk (n : Nat) : Bool := decide (n < 65536 + 64 * 4096)
/-- A completion queue of a function. -/
def cqOk (n : Nat) : Bool := decide (n < 32)
/-- A logical pod. -/
def podOk (n : Nat) : Bool := decide (n < 16)
/-- A core of a pod. -/
def coreOk (n : Nat) : Bool := decide (n < 2)
/-- A ring port: 0 west, 1 east. -/
def portOk (n : Nat) : Bool := decide (n < 2)
/-- A media lane. -/
def laneOk (n : Nat) : Bool := decide (n < 64)
/-- A media device number (R236). -/
def devOk (n : Nat) : Bool := decide (n < 1024)
/-- A DRAM stripe. -/
def stripeOk (n : Nat) : Bool := decide (n < 6)
/-- A channel of a stripe, or a line group (R272). -/
def channelOk (n : Nat) : Bool := decide (n < 4)
/-- An injection slot. -/
def slotOk (n : Nat) : Bool := decide (n < 4)
/-- A line number of the 46-bit physical space. -/
def lineOk (n : Nat) : Bool := decide (n < 2 ^ 39)
/-- A power domain. -/
def domainOk (n : Nat) : Bool := decide (n < 36)
/-- A node of the ring (R471). -/
def nodeOk (n : Nat) : Bool := decide (n < 32)
/-- A class of ring messages. -/
def clsOk (n : Nat) : Bool := decide (n < 4)

/-- The numbers of an origin are in range (R15). -/
def Origin.wf : Origin → Bool
  | .fw p c w l => podOk p && coreOk c && decide (w < 8) && decide (l < 3)
  | .vf n => decide (1 ≤ n) && decide (n ≤ 64)
  | .ring n => nodeOk n
  | _ => true

/-- The core, the guard and the length of an Octip instruction are in range; pod 16, core 0 is Tuber's own core (R340). -/
def OctCtx.wf (c : OctCtx) : Bool := (podOk c.pod && coreOk c.core || c.pod == 16 && c.core == 0) && predOk c.gP && decide (1 ≤ c.parcels ∧ c.parcels ≤ 8)

/-- The registers of an AMO. -/
def AmoOp.wf (m : AmoOp) : Bool := regOk m.d && regOk m.a && regOk m.b

/-- A source operand's register. -/
def Src.wf : Src → Bool
  | .reg n => regOk n
  | .imm _ => true

/-- The source and base level of a fault report (R440). -/
def FaultIn.wf (e : FaultIn) : Bool := decide (e.source < 56) && decide (e.base < 4)

/-- The header fields of a frame fit the header's bytes (R472); one out of range is malformed, which the port finds (R473). -/
def Frame.wf (f : Frame) : Bool :=
  decide (f.dst < 128) && decide (f.src < 256) && decide (f.cls < 256) && decide (f.seq < 2 ^ 32) && decide (f.gen < 65536) &&
  decide (f.claim < 2 ^ 32) && decide (f.pairId < 65536) && decide (f.origin < 65536) && decide (f.session < 2 ^ 32) &&
  decide (f.hops < 256) && decide (f.kind < 256) && decide (f.payload.length < 16384)

/-- The fields of a REMOTE header. -/
def RemoteHdr.wf (h : RemoteHdr) : Bool := nodeOk h.src && decide (h.fn ≤ 64)

/-- Every operand of a command lies in its range. DESIGN CHOICE, log entry 12. -/
def Instr.wf : Instr → Bool
  | .registerWrite by_ _ size _ => by_.wf && accessOk size
  | .lowHalfRead by_ _ => by_.wf
  | .hostReadIssue sch _ => schOk sch
  | .hostReadCompletion sch _ => schOk sch
  | .epbStart by_ => by_.wf
  | .epbStop by_ _ => by_.wf
  | .epbCal by_ => by_.wf
  | .epbCalDone _ _ => true
  | .epbLiveUpdate _ _ => true
  | .stripeBufferGrant => true
  | .doorbellWrite fn _ _ => fnOk fn
  | .ctlStart fn => fnOk fn
  | .ctlHalt fn => fnOk fn
  | .ctlClear fn => fnOk fn
  | .ctlResume fn => fnOk fn
  | .ctlTest fn => fnOk fn
  | .controlWordInvalid fn => fnOk fn
  | .engineSlotGrant sch => schOk sch
  | .orderFetch sch _ => schOk sch
  | .ordIngest sch _ => schOk sch
  | .ordChunk sch => schOk sch
  | .ordProbe sch => schOk sch
  | .ordPack sch => schOk sch
  | .ordSeal sch => schOk sch
  | .ordSpread sch _ => schOk sch
  | .ordDigest sch => schOk sch
  | .ordCommit sch => schOk sch
  | .ordGather sch _ => schOk sch
  | .ordUnseal sch => schOk sch
  | .ordUnpack sch => schOk sch
  | .ordEmit sch _ _ => schOk sch
  | .ordVerify sch => schOk sch
  | .ordMedia sch _ _ _ => schOk sch
  | .ordZone sch => schOk sch
  | .ordJump sch => schOk sch
  | .ordBranch sch => schOk sch
  | .ordWait sch => schOk sch
  | .waitExpire sch => schOk sch
  | .ordNote sch => schOk sch
  | .ordCallCore sch _ => schOk sch
  | .ordEnd sch => schOk sch
  | .callPost sch => schOk sch
  | .callAnswer by_ _ => by_.wf
  | .callCoreTimeout sch => schOk sch
  | .cohReady by_ => by_.wf
  | .clearDrained sch => schOk sch
  | .statusWordPost fn cq => fnOk fn && cqOk cq
  | .cqCoalesceTimeout fn cq => fnOk fn && cqOk cq
  | .journalRecordDurable => true
  | .retireRecordWrite fn cq => fnOk fn && cqOk cq
  | .journalCarry => true
  | .contextAgeTick => true
  | .contextFill sch => schOk sch
  | .journalReplay => true
  | .redriveStart sch => schOk sch
  | .functionReset fn _ => fnOk fn
  | .functionResetComplete fn => fnOk fn
  | .schAssign by_ => by_.wf
  | .schRelease by_ => by_.wf
  | .streamPlaceGrant => true
  | .chunkInputData sch _ => schOk sch
  | .probeLookup sch => schOk sch
  | .domCreate by_ => by_.wf
  | .domDestroy by_ => by_.wf
  | .domSet by_ => by_.wf
  | .domainCmdComplete _ => true
  | .idxClear by_ => by_.wf
  | .idxClearComplete => true
  | .idxPurge by_ => by_.wf
  | .purgeScanComplete _ => true
  | .purgeSlotFree by_ _ => by_.wf
  | .idxLoad by_ => by_.wf
  | .idxLoadComplete => true
  | .packChunkDone sch _ _ _ => schOk sch
  | .unpackChunk sch => schOk sch
  | .sealChunk sch _ _ => schOk sch
  | .unsealChunk sch _ => schOk sch
  | .keySlotLoad _ _ => true
  | .spreadChunk sch _ _ => schOk sch
  | .shardWriteIssue _ _ _ => true
  | .shardWriteComplete _ _ _ => true
  | .commitDlogWrite sch => schOk sch
  | .dlogHeadWrite by_ _ => by_.wf
  | .dirRequestPost => true
  | .dreqHeadWrite by_ _ => by_.wf
  | .dreqRearm by_ => by_.wf
  | .dirFilled by_ _ => by_.wf
  | .dirAbsent by_ _ => by_.wf
  | .dirFlush by_ => by_.wf
  | .dirFlushComplete => true
  | .epochClose => true
  | .epochSigned => true
  | .manifestWriteComplete l => decide (l.length = 4)
  | .manifestNoticePost => true
  | .manifestRetry => true
  | .laneLinkChange lane _ _ _ => laneOk lane
  | .discRun by_ => by_.wf
  | .broadcastChange lane => laneOk lane
  | .discoveryComplete _ _ => true
  | .devRelease by_ => by_.wf
  | .mediaCommandTimeout _ => true
  | .mediaOrderComplete sch _ _ => schOk sch
  | .syncCacheComplete dev _ => devOk dev
  | .writeFilemarksComplete dev _ => devOk dev
  | .scrubPace dev _ => devOk dev
  | .scrubVerifyComplete dev _ => devOk dev
  | .mediaEventPost => true
  | .injectReorderRelease slot => slotOk slot
  | .memRead _ line _ => lineOk line
  | .memWrite _ _ _ => true
  | .channelTimeout stripe channel => stripeOk stripe && channelOk channel
  | .frontEndSwitchComplete => true
  | .stripeMark by_ stripe => by_.wf && stripeOk stripe
  | .stripeClear by_ stripe => by_.wf && stripeOk stripe
  | .memAgePromote group => channelOk group
  | .refreshDue group => channelOk group
  | .mr4Poll _ => true
  | .dqsOscCheck stripe channel _ => stripeOk stripe && channelOk channel
  | .channelRetrainComplete stripe channel _ => stripeOk stripe && channelOk channel
  | .patrolScrubRead _ => true
  | .mramWriteComplete => true
  | .jnlScrubRead _ _ _ _ => true
  | .mramDieFail _ => true
  | .supplyFault => true
  | .coreStart pod core => podOk pod && coreOk core
  | .opAdd c _ d a b => c.wf && regOk d && regOk a && regOk b
  | .opSub c _ d a b => c.wf && regOk d && regOk a && regOk b
  | .opAnd c d a b => c.wf && regOk d && regOk a && regOk b
  | .opOr c d a b => c.wf && regOk d && regOk a && regOk b
  | .opXor c d a b => c.wf && regOk d && regOk a && regOk b
  | .opAndn c d a b => c.wf && regOk d && regOk a && regOk b
  | .opSll c d a b => c.wf && regOk d && regOk a && regOk b
  | .opSrl c d a b => c.wf && regOk d && regOk a && regOk b
  | .opSra c d a b => c.wf && regOk d && regOk a && regOk b
  | .opRol c d a b => c.wf && regOk d && regOk a && regOk b
  | .opRor c d a b => c.wf && regOk d && regOk a && regOk b
  | .opMin c d a b => c.wf && regOk d && regOk a && regOk b
  | .opMax c d a b => c.wf && regOk d && regOk a && regOk b
  | .opMinu c d a b => c.wf && regOk d && regOk a && regOk b
  | .opMaxu c d a b => c.wf && regOk d && regOk a && regOk b
  | .opNeg c _ d a => c.wf && regOk d && regOk a
  | .opMul c _ d a b => c.wf && regOk d && regOk a && regOk b
  | .opMulh c d a b => c.wf && regOk d && regOk a && regOk b
  | .opMulhu c d a b => c.wf && regOk d && regOk a && regOk b
  | .opDiv c _ d a b => c.wf && regOk d && regOk a && regOk b
  | .opDivu c _ d a b => c.wf && regOk d && regOk a && regOk b
  | .opRem c _ d a b => c.wf && regOk d && regOk a && regOk b
  | .opRemu c _ d a b => c.wf && regOk d && regOk a && regOk b
  | .opCmpEq c pt pf a b => c.wf && predOk pt && predOk pf && regOk a && b.wf
  | .opCmpNe c pt pf a b => c.wf && predOk pt && predOk pf && regOk a && b.wf
  | .opCmpLt c pt pf a b => c.wf && predOk pt && predOk pf && regOk a && b.wf
  | .opCmpGe c pt pf a b => c.wf && predOk pt && predOk pf && regOk a && b.wf
  | .opCmpLtu c pt pf a b => c.wf && predOk pt && predOk pf && regOk a && b.wf
  | .opCmpGeu c pt pf a b => c.wf && predOk pt && predOk pf && regOk a && b.wf
  | .opPand c d a b => c.wf && predOk d && predOk a && predOk b
  | .opPor c d a b => c.wf && predOk d && predOk a && predOk b
  | .opPxor c d a b => c.wf && predOk d && predOk a && predOk b
  | .opPandn c d a b => c.wf && predOk d && predOk a && predOk b
  | .opMovgp c d a => c.wf && regOk d && predOk a
  | .opMovpg c d a => c.wf && predOk d && regOk a
  | .opAddi c d a _ => c.wf && regOk d && regOk a
  | .opAndi c d a _ => c.wf && regOk d && regOk a
  | .opOri c d a _ => c.wf && regOk d && regOk a
  | .opXori c d a _ => c.wf && regOk d && regOk a
  | .opSlli c d a n => c.wf && regOk d && regOk a && decide (n < 64)
  | .opSrli c d a n => c.wf && regOk d && regOk a && decide (n < 64)
  | .opSrai c d a n => c.wf && regOk d && regOk a && decide (n < 64)
  | .opRori c d a n => c.wf && regOk d && regOk a && decide (n < 64)
  | .opMov c d a => c.wf && regOk d && regOk a
  | .opLi c d _ => c.wf && regOk d
  | .opLih c d _ => c.wf && regOk d
  | .opLa c d _ => c.wf && regOk d
  | .opLd c size _ _ d a _ => c.wf && sizeOk size && regOk d && regOk a
  | .opSt c size _ d a _ => c.wf && sizeOk size && regOk d && regOk a
  | .opFld c size _ d a _ => c.wf && sizeOk size && regOk d && regOk a
  | .opFst c size _ d a _ => c.wf && sizeOk size && regOk d && regOk a
  | .opJump c _ => c.wf
  | .opCall c _ => c.wf
  | .opJumpr c a => c.wf && regOk a
  | .opCallr c a => c.wf && regOk a
  | .opRet c => c.wf
  | .opEret c => c.wf
  | .opFadd c _ d a b => c.wf && regOk d && regOk a && regOk b
  | .opFsub c _ d a b => c.wf && regOk d && regOk a && regOk b
  | .opFmul c _ d a b => c.wf && regOk d && regOk a && regOk b
  | .opFdiv c _ d a b => c.wf && regOk d && regOk a && regOk b
  | .opFsqrt c _ d a => c.wf && regOk d && regOk a
  | .opFmin c _ d a b => c.wf && regOk d && regOk a && regOk b
  | .opFmax c _ d a b => c.wf && regOk d && regOk a && regOk b
  | .opFsgnj c _ d a b => c.wf && regOk d && regOk a && regOk b
  | .opFcvtI c _ d a => c.wf && regOk d && regOk a
  | .opFcvtU c _ d a => c.wf && regOk d && regOk a
  | .opIcvtF c _ d a => c.wf && regOk d && regOk a
  | .opUcvtF c _ d a => c.wf && regOk d && regOk a
  | .opFcvtP c _ d a => c.wf && regOk d && regOk a
  | .opFmovg c d a => c.wf && regOk d && regOk a
  | .opFmovf c d a => c.wf && regOk d && regOk a
  | .opFeq c _ pt pf a b => c.wf && predOk pt && predOk pf && regOk a && regOk b
  | .opFlt c _ pt pf a b => c.wf && predOk pt && predOk pf && regOk a && regOk b
  | .opFle c _ pt pf a b => c.wf && predOk pt && predOk pf && regOk a && regOk b
  | .opFun c _ pt pf a b => c.wf && predOk pt && predOk pf && regOk a && regOk b
  | .opFmadd c _ d a b cc => c.wf && regOk d && regOk a && regOk b && regOk cc
  | .opFmsub c _ d a b cc => c.wf && regOk d && regOk a && regOk b && regOk cc
  | .opFnmadd c _ d a b cc => c.wf && regOk d && regOk a && regOk b && regOk cc
  | .opFnmsub c _ d a b cc => c.wf && regOk d && regOk a && regOk b && regOk cc
  | .opFence c => c.wf
  | .opFenceC c => c.wf
  | .opIsync c => c.wf
  | .opMcall c service => c.wf && decide (service < 65536)
  | .opBrk c service => c.wf && decide (service < 65536)
  | .opWfi c => c.wf
  | .opCrr c d k => c.wf && regOk d && decide (k < 256)
  | .opCrw c k a => c.wf && decide (k < 256) && regOk a
  | .opTlbw c _ => c.wf
  | .opTlbr c _ a => c.wf && regOk a
  | .opTlbiA c _ a b => c.wf && regOk a && regOk b
  | .opTlbiT c _ a => c.wf && regOk a
  | .opTlbiAll c _ => c.wf
  | .opTlbiLk c _ => c.wf
  | .opIn c size d a _ => c.wf && sizeOk size && regOk d && regOk a
  | .opOut c size d a _ => c.wf && sizeOk size && regOk d && regOk a
  | .opLdi c size d a _ => c.wf && sizeOk size && regOk d && regOk a
  | .opSti c size d a _ => c.wf && sizeOk size && regOk d && regOk a
  | .amoAdd c m => c.wf && m.wf
  | .amoSwap c m => c.wf && m.wf
  | .amoCas c m cc => c.wf && m.wf && regOk cc
  | .amoAnd c m => c.wf && m.wf
  | .amoOr c m => c.wf && m.wf
  | .amoXor c m => c.wf && m.wf
  | .amoMax c m => c.wf && m.wf
  | .amoMin c m => c.wf && m.wf
  | .interruptTake pod core => podOk pod && coreOk core
  | .ipiRaise by_ pod core => by_.wf && podOk pod && coreOk core
  | .timecmpMatch pod core => podOk pod && coreOk core
  | .cohMaintAddrWrite c _ => c.wf
  | .mtClean c => c.wf
  | .mtCleanInv c => c.wf
  | .mtInv c => c.wf
  | .mtZero c => c.wf
  | .mtLock c => c.wf
  | .mtUnlock c => c.wf
  | .getShared pod line => podOk pod && lineOk line
  | .getExclusive pod line => podOk pod && lineOk line
  | .putLine pod line => podOk pod && lineOk line
  | .snoop pod line => podOk pod && lineOk line
  | .cohNackRetry pod line => podOk pod && lineOk line
  | .cohAgentTimeout _ => true
  | .coreDomainRestart _ => true
  | .cacheScrub _ _ => true
  | .lockstepMismatch pod _ _ _ => podOk pod
  | .comparatorFault pod => podOk pod
  | .retrySuccess pod => podOk pod
  | .sparingTimeout pod => podOk pod
  | .sparingComplete pod => podOk pod
  | .podSplit by_ pod => by_.wf && podOk pod
  | .podPark by_ pod => by_.wf && podOk pod
  | .podCheck by_ pod _ => by_.wf && podOk pod
  | .warmRestart by_ pod => by_.wf && podOk pod
  | .faultEvent ev => ev.wf
  | .regionRestartComplete _ => true
  | .fltAck by_ _ => by_.wf
  | .fltCaptureRearm by_ => by_.wf
  | .fltInject by_ _ => by_.wf
  | .collectorHeartbeatMiss _ => true
  | .ringFrameReceive port f _ _ => portOk port && f.wf
  | .ringAck src cls _ _ => nodeOk src && clsOk cls
  | .claimNack src cls _ _ => nodeOk src && clsOk cls
  | .ringAnnounce src _ _ _ _ _ => nodeOk src
  | .announceTick => true
  | .nodeListTimeout node => nodeOk node
  | .ringLeave src port => nodeOk src && portOk port
  | .ringClaim src _ _ => nodeOk src
  | .ringRemove src _ => nodeOk src
  | .mirrorMessage src _ _ => nodeOk src
  | .remoteStart h _ => h.wf
  | .remoteControl h _ _ => h.wf
  | .remoteRead h _ => h.wf
  | .readData h _ => h.wf
  | .remoteWrite h _ _ => h.wf
  | .remoteStatus h _ => h.wf
  | .remoteQuery h => h.wf
  | .remoteAnswer h _ => h.wf
  | .remoteReset h _ => h.wf
  | .frameTransmit port => portOk port
  | .creditReturn port cls _ => portOk port && clsOk cls
  | .retxTimeout _ cls _ => clsOk cls
  | .portLoss port => portOk port
  | .portUnwrap port => portOk port
  | .spanLockTimeout port => portOk port
  | .loopbackTestComplete _ _ => true
  | .memsPositionCheck _ => true
  | .rngInsertWrite by_ _ => by_.wf
  | .leaveBypass => true
  | .ringInjectRelease slot => slotOk slot
  | .hostPortReset _ _ => true
  | .linkUpconfigure _ _ _ => true
  | .configRequest fn _ _ => fnOk fn
  | .flr vf => fnOk vf
  | .vfEnableClear => true
  | .powerStateChange fn _ => fnOk fn
  | .fnCqCfgWrite fn cq _ _ => fnOk fn && cqOk cq
  | .fnCqHeadWrite fn cq _ => fnOk fn && cqOk cq
  | .vfCreate by_ => by_.wf
  | .vfDestroy by_ => by_.wf
  | .vfmReset by_ => by_.wf
  | .vfmPause by_ => by_.wf
  | .vfmUnpause by_ => by_.wf
  | .vfmSetwin by_ => by_.wf
  | .mailboxSend _ vf _ => fnOk vf
  | .mailboxAck _ vf => fnOk vf
  | .dirtySync by_ => by_.wf
  | .dirtySyncComplete fn => fnOk fn
  | .heartbeatSend => true
  | .heartbeatReceive _ => true
  | .heartbeatLoss => true
  | .takeoverConfirm => true
  | .takeoverComplete => true
  | .isolationCheck _ => true
  | .clmTakeover by_ => by_.wf
  | .forceActive by_ => by_.wf
  | .clmDetach by_ => by_.wf
  | .clmResync by_ => by_.wf
  | .resyncComplete _ => true
  | .switchback by_ => by_.wf
  | .tmbAttest => true
  | .tmbCerts => true
  | .tmbRandom => true
  | .tmbKeyCreate => true
  | .tmbKeyImport => true
  | .tmbKeyRevoke => true
  | .tmbKekProvision => true
  | .tmbFuseSlot => true
  | .tmbFuseRevoke => true
  | .tmbRollback => true
  | .tmbDebugKill => true
  | .tmbKick by_ => by_.wf
  | .tuberWatchdogExpire => true
  | .tuberRestartComplete _ => true
  | .entropyHealthFail => true
  | .pwrReq by_ _ => by_.wf
  | .pwrHoldClear domain => domainOk domain
  | .pwrHoldTimeout => true
  | .pwrForce by_ _ => by_.wf
  | .domainPowerComplete domain => domainOk domain
  | .pwrPodMhzWrite by_ pod _ => by_.wf && podOk pod
  | .logExportedWrite by_ _ => by_.wf
  | .logExportEnable by_ _ => by_.wf
  | .logEntryExport => true
  | .checkpointClose _ => true
  | .checkpointSigned => true
  | .logCkptExportedWrite by_ _ => by_.wf
  | .debugReq by_ _ => by_.wf
  | .debugCheck by_ _ => by_.wf
  | .debugChallengeExpire => true
  | .modRestart by_ _ _ => by_.wf
  | .modDormant by_ => by_.wf
  | .modWake by_ => by_.wf
  | .modMaintenance by_ => by_.wf
  | .maintenanceDrainTimeout => true
  | .modInstall by_ _ => by_.wf
  | .wakeTimeReached => true
  | .wakeFail _ => true
  | .supplyInRegulation _ => true
  | .sporeReady => true
  | .sporeRetryDelay => true
  | .tuberVerifyDone _ _ => true
  | .dramTrainingDone _ => true
  | .selftestDone _ => true
  | .ringLockDone _ _ => true
  | .mainImageLoaded _ _ => true
  | .startWatchdogExpire => true
  | .startCountClear => true
  | .timEpochWrite by_ _ => by_.wf
  | .timSave => true
  | .setEndpointId _ _ => true
  | .getEndpointId => true
  | .getMctpVersionSupport _ => true
  | .getMessageTypeSupport => true
  | .getVendorDefinedMessageSupport _ => true
  | .getStatus _ _ => true
  | .getSensors _ _ => true
  | .requestMode _ _ => true
  | .getSpore _ _ => true
  | .resetNAssert => true
  | .resetNRelease => true
  | .thermalStep _ _ _ => true
  | .ageMonitorRead _ => true
  | .refreshPassComplete => true
  | .shardReadComplete sch _ _ _ _ => schOk sch
  | .persistentReserveComplete dev _ _ _ => devOk dev
  | .fillData pod line => podOk pod && lineOk line
  | .putAck pod line => podOk pod && lineOk line
  | .snoopAnswer pod line => podOk pod && lineOk line
  | .entropyStartUpTestPass => true

end Sys2Proof
end

