-- ==== Sys2Proof/Tests/Slice0.lean ====
section
/-!
SUPPORT. Tests: the well-formedness checks refuse what they should, single commands come to what the spec's examples and tables
give, and every statement's hypotheses are met by a concrete state and operands.
-/

namespace Sys2Proof.Tests

open Sys2Proof Sys2Proof.Machine

set_option Elab.async false

/-! ## Well-formedness: one ill-formed term for each check -/

def ctx : OctCtx := { pod := 0, core := 0 }

theorem test_wf_register : (Instr.opAdd ctx false 31 0 31).wf = true ∧ (Instr.opAdd ctx false 32 0 0).wf = false := by decide
theorem test_wf_predicate : (Instr.opPand ctx 7 0 7).wf = true ∧ (Instr.opPand ctx 8 0 0).wf = false := by decide
theorem test_wf_size : (Instr.opLd ctx 3 true false 1 2 0).wf = true ∧ (Instr.opLd ctx 4 true false 1 2 0).wf = false := by decide
theorem test_wf_access : (Instr.registerWrite .pf 0 4 0).wf = true ∧ (Instr.registerWrite .pf 0 2 0).wf = false := by decide
theorem test_wf_function : (Instr.ctlTest 64).wf = true ∧ (Instr.ctlTest 65).wf = false := by decide
theorem test_wf_subchannel : (Instr.ordEnd 327679).wf = true ∧ (Instr.ordEnd 327680).wf = false := by decide
theorem test_wf_queue : (Instr.statusWordPost 0 31).wf = true ∧ (Instr.statusWordPost 0 32).wf = false := by decide
theorem test_wf_pod : (Instr.coreStart 15 1).wf = true ∧ (Instr.coreStart 16 0).wf = false := by decide
theorem test_wf_core : (Instr.coreStart 0 2).wf = false := by decide
theorem test_wf_port : (Instr.portLoss 1).wf = true ∧ (Instr.portLoss 2).wf = false := by decide
theorem test_wf_lane : (Instr.broadcastChange 63).wf = true ∧ (Instr.broadcastChange 64).wf = false := by decide
theorem test_wf_device : (Instr.scrubPace 1023 none).wf = true ∧ (Instr.scrubPace 1024 none).wf = false := by decide
theorem test_wf_stripe : (Instr.channelTimeout 5 3).wf = true ∧ (Instr.channelTimeout 6 0).wf = false := by decide
theorem test_wf_channel : (Instr.refreshDue 3).wf = true ∧ (Instr.refreshDue 4).wf = false := by decide
theorem test_wf_slot : (Instr.injectReorderRelease 3).wf = true ∧ (Instr.injectReorderRelease 4).wf = false := by decide
theorem test_wf_line : (Instr.getShared 0 (2 ^ 39 - 1)).wf = true ∧ (Instr.getShared 0 (2 ^ 39)).wf = false := by decide
theorem test_wf_domain : (Instr.domainPowerComplete 35).wf = true ∧ (Instr.domainPowerComplete 36).wf = false := by decide
theorem test_wf_node : (Instr.nodeListTimeout 31).wf = true ∧ (Instr.nodeListTimeout 32).wf = false := by decide
theorem test_wf_class : (Instr.retxTimeout 0 3 0).wf = true ∧ (Instr.retxTimeout 0 4 0).wf = false := by decide
theorem test_wf_origin : (Instr.vfCreate (.fw 15 1 7 2)).wf = true ∧ (Instr.vfCreate (.fw 0 0 8 0)).wf = false ∧
    (Instr.vfCreate (.fw 0 0 0 3)).wf = false ∧ (Instr.vfCreate (.vf 0)).wf = false ∧ (Instr.vfCreate (.vf 65)).wf = false ∧
    (Instr.vfCreate (.ring 32)).wf = false := by decide
theorem test_wf_context : (Instr.opRet { ctx with pod := 16 }).wf = true ∧
    (Instr.opRet { ctx with pod := 16, core := 1 }).wf = false ∧ (Instr.opRet { ctx with gP := 8 }).wf = false ∧
    (Instr.opRet { ctx with parcels := 0 }).wf = false ∧ (Instr.opRet { ctx with parcels := 9 }).wf = false := by decide
theorem test_wf_amo : (Instr.amoAdd ctx { eight := true, hint := 0, acqRel := false, d := 32, a := 0, b := 0 }).wf = false := by
  decide
theorem test_wf_source : (Instr.opCmpEq ctx 1 2 3 (.imm 99)).wf = true ∧ (Instr.opCmpEq ctx 1 2 3 (.reg 32)).wf = false := by
  decide
theorem test_wf_fault : (Instr.faultEvent { source := 55, ue := false, base := 0 }).wf = true ∧
    (Instr.faultEvent { source := 56, ue := false, base := 0 }).wf = false ∧
    (Instr.faultEvent { source := 0, ue := true, base := 4 }).wf = false := by decide
theorem test_wf_frame : let f : Frame := { dst := 1, src := 31, cls := 0, claim := 0, pairId := 0, session := 0, kind := 0, payload := [] }
    f.wf = true ∧ { f with dst := 128 }.wf = false ∧ { f with src := 256 }.wf = false ∧ { f with cls := 256 }.wf = false ∧
    { f with seq := 2 ^ 32 }.wf = false ∧ { f with gen := 65536 }.wf = false ∧ { f with claim := 2 ^ 32 }.wf = false ∧
    { f with pairId := 65536 }.wf = false ∧ { f with origin := 65536 }.wf = false ∧ { f with session := 2 ^ 32 }.wf = false ∧
    { f with hops := 256 }.wf = false ∧ { f with kind := 256 }.wf = false := by decide
theorem test_wf_remote : (Instr.remoteQuery
    { src := 0, token := 0, fn := 65, sch := 0, gen := 0, addr := 0, len := 0, req := 0 }).wf = false := by decide
theorem test_wf_shift_count : (Instr.opSlli ctx 1 2 63).wf = true ∧ (Instr.opSlli ctx 1 2 64).wf = false := by decide
theorem test_wf_service : (Instr.opMcall ctx 65535).wf = true ∧ (Instr.opMcall ctx 65536).wf = false := by decide
theorem test_wf_control_register : (Instr.opCrr ctx 1 255).wf = true ∧ (Instr.opCrr ctx 1 256).wf = false := by decide

/-! ## States to start from -/

/-- A core that runs at M at the start of a code region, with a few registers set. -/
def core : OctCore :=
  { run := .running, pc := 0x1000, status := 2, seenCode := [{ base := 0, limit := 0x200000, monly := false }],
    g := (List.replicate 32 0).set 1 7 }

/-- The module in FROND with every domain on and one core that runs. -/
def frond : State := ((State.reset.set .MOD_STATE_MODE 3).set .PWR_STATE_ON (2 ^ 36 - 1)).set .COH_STATUS_DOMAIN 3

def octS (k : OctCore) : State := { frond with cores := [(0, k)] }

/-- Tuber's core in its ROM, with power. -/
def tuberS (k : OctCore) : State := { frond with tub := { frond.tub with core := some k } }

def tctx : OctCtx := { pod := 16, core := 0 }
def tcore : OctCore := { run := .running, pc := 0x1000, status := 2 }

/-! ## Octip: what lets an instruction reach its work -/

theorem test_main_core_ready : OctReady ctx core (octS core) := by decide +kernel
theorem test_tuber_core_ready : TuberReady tctx tcore (tuberS tcore) := by decide +kernel
theorem test_core_ready_at_u_and_s : OctReady ctx { core with status := 0 } (octS { core with status := 0 }) ∧
    OctReady ctx { core with status := 1 } (octS { core with status := 1 }) := by decide +kernel
theorem test_core_ready_in_enclave : OctReady ctx { core with status := 0x101 } (octS { core with status := 0x101 }) := by
  decide +kernel
theorem test_core_ready_in_tlbm : OctReady ctx { core with status := 0x21 } (octS { core with status := 0x21 }) := by
  decide +kernel

/-- Hypotheses of the integer, move, shift, division, compare, predicate and floating-point statements, on both cores. -/
theorem test_onCore_witness : OnCore ctx core (octS core) ∧ OnCore tctx tcore (tuberS tcore) :=
  ⟨.inl test_main_core_ready, .inr test_tuber_core_ready⟩

theorem test_registers_have_their_length : core.g.length = 32 ∧ core.p.length = 8 ∧ core.f.length = 32 := by decide

/-- The core of a next state. -/
def coreAfter (o : Host.Outcome State Fault Refusal) : OctCore :=
  match o with
  | .next t => (kvGet? t.cores 0).getD {}
  | _ => {}

def gAfter (k : OctCore) (i : Instr) (n : Nat) : Word := (coreAfter (exec i (octS k))).gr n

def regs (x y : Word) : OctCore := { core with g := ((List.replicate 32 0).set 1 x).set 2 y }

theorem test_add_wraps : gAfter (regs 0xFFFFFFFFFFFFFFFF 2) (.opAdd ctx true 3 1 2) 3 = 1 := by decide +kernel
theorem test_add_overflow_sets_iov :
    (coreAfter (exec (.opAdd ctx true 3 1 2) (octS (regs 0x7FFFFFFFFFFFFFFF 1)))).astat = 0x100 := by decide +kernel
theorem test_sub_writes_its_own_source : gAfter (regs 5 8) (.opSub ctx false 1 1 2) 1 = 0xFFFFFFFFFFFFFFFD := by decide +kernel
theorem test_mulh_signed : gAfter (regs 0xFFFFFFFFFFFFFFFF 2) (.opMulh ctx 3 1 2) 3 = 0xFFFFFFFFFFFFFFFF := by decide +kernel
theorem test_mulhu_unsigned : gAfter (regs 0xFFFFFFFFFFFFFFFF 2) (.opMulhu ctx 3 1 2) 3 = 1 := by decide +kernel
/-- R349: −7 DIV 2 gives −3, and −7 REM 2 gives −1. -/
theorem test_div_example : gAfter (regs 0xFFFFFFFFFFFFFFF9 2) (.opDiv ctx false 3 1 2) 3 = 0xFFFFFFFFFFFFFFFD := by decide +kernel
theorem test_rem_example : gAfter (regs 0xFFFFFFFFFFFFFFF9 2) (.opRem ctx false 3 1 2) 3 = 0xFFFFFFFFFFFFFFFF := by decide +kernel
/-- *Integer results at the edges*: a divide by zero. -/
theorem test_div_by_zero : gAfter (regs 9 0) (.opDiv ctx false 3 1 2) 3 = 0xFFFFFFFFFFFFFFFF ∧
    (coreAfter (exec (.opDiv ctx false 3 1 2) (octS (regs 9 0)))).astat = 0x200 := by decide +kernel
/-- R351: a count register holding −1 makes SLL give 0. -/
theorem test_sll_by_minus_one : gAfter (regs 1 0xFFFFFFFFFFFFFFFF) (.opSll ctx 3 1 2) 3 = 0 := by decide +kernel
theorem test_sra_of_negative : gAfter (regs 0x8000000000000000 64) (.opSra ctx 3 1 2) 3 = 0xFFFFFFFFFFFFFFFF := by decide +kernel
theorem test_ror_by_immediate : gAfter (regs 1 0) (.opRori ctx 3 1 1) 3 = 0x8000000000000000 := by decide +kernel
theorem test_g0_stays_zero : gAfter (regs 5 6) (.opAdd ctx false 0 1 2) 0 = 0 := by decide +kernel
theorem test_compare_writes_both : (coreAfter (exec (.opCmpLt ctx 1 2 1 (.imm 9)) (octS (regs 5 0)))).p.take 3 = [true, true, false] := by
  decide +kernel
theorem test_compare_one_register_twice :
    (coreAfter (exec (.opCmpLt ctx 1 1 1 (.imm 9)) (octS (regs 5 0)))).causeM = 1 := by decide +kernel
theorem test_false_guard_is_noop : let k := coreAfter (exec (.opAdd { ctx with gN := true } false 3 1 2) (octS (regs 5 6)))
    k.gr 3 = 0 ∧ k.retire = 1 ∧ k.pc = 0x1004 := by decide +kernel

def fregs (x y : Word) : OctCore := { core with f := ((List.replicate 32 0).set 1 x).set 2 y }

/-- *Edge results, binary64*: max × 2. -/
theorem test_fmul_overflow : let k := coreAfter (exec (.opFmul ctx false 3 1 2) (octS (fregs 0x7FEFFFFFFFFFFFFF 0x4000000000000000)))
    k.fr 3 = 0x7FF0000000000000 ∧ k.astat = 0x5 := by decide +kernel
/-- *Edge results, binary64*: 1 ÷ +0 sets DZ. -/
theorem test_fdiv_by_zero : let k := coreAfter (exec (.opFdiv ctx false 3 1 2) (octS (fregs 0x3FF0000000000000 0)))
    k.fr 3 = 0x7FF0000000000000 ∧ k.astat = 0x8 := by decide +kernel
/-- R353: a binary32 operand that is not boxed reads as the quiet NaN, with no flag. -/
theorem test_unboxed_operand_is_nan : let k := coreAfter (exec (.opFadd ctx true 3 1 2) (octS (fregs 0x3F800000 0xFFFFFFFF3F800000)))
    k.fr 3 = 0xFFFFFFFF7FC00000 ∧ k.astat = 0 := by decide +kernel

/-- Hypotheses of the loads: an aligned access, and one that crosses an 8-byte boundary, in DRAM. -/
def dataCore : OctCore := { core with g := ((List.replicate 32 0).set 1 0x40000).set 31 0x50000 }
theorem test_loads_witness : OctReady ctx dataCore (octS dataCore) ∧
    Reaches (octS dataCore) dataCore .read .load false false (dataCore.gr 1 + 0) 8 [(0x40000, 8)] ∧
    Reaches (octS dataCore) dataCore .read .load false false (dataCore.gr 1 + 6) 4 [(0x40006, 2), (0x40008, 2)] ∧
    Reaches (octS dataCore) dataCore .read .pop false false (dataCore.gr 31) 8 [(0x50000, 8)] ∧
    (match loadPieces 0 [] [(0x40006, 2), (0x40008, 2)] (octS dataCore) with
      | .data b _ => decide (leNat b = 0) | _ => false) = true ∧
    piecesPoisoned [(0x40000, 8)] (octS dataCore) = false := by decide +kernel
theorem test_tuber_access_witness : let k := { tcore with g := (List.replicate 32 0).set 1 0x10000000 }
    TuberReady tctx k (tuberS k) ∧ tuberFault true (k.gr 1) 8 = none ∧ tuberFault false (k.gr 1) 8 = none ∧
    (tuberS k).tuberRead (k.gr 1) 8 % 2 = 0 := by decide +kernel

/-- A load returns what the core has just stored, from its store buffer (R373). -/
def after (o : Host.Outcome State Fault Refusal) : State := match o with | .next t => t | _ => frond
theorem test_store_then_load : (coreAfter (exec (.opLd ctx 3 true false 4 1 0)
    (after (exec (.opSt ctx 3 false 31 1 0) (octS dataCore))))).gr 4 = 0x50000 := by decide +kernel

/-- R371: an LD of the low half of a 16-byte block keeps the high half for the LD that follows at once; an ST that follows the ST
of its low half joins it. -/
theorem test_pairs_witness : (let k := coreAfter (exec (.opLd ctx 3 true false 4 1 0) (octS dataCore))
     k.half.any (fun h => h.pa == 0x40008 && h.retire == k.retire && !h.aq) = true) ∧
    (let k := coreAfter (exec (.opSt ctx 3 false 31 1 0) (octS dataCore))
     k.buf.getLast?.any (fun e => e.addr + 8 == 0x40008 && e.half == some k.retire && !e.rel) = true) := by decide +kernel
theorem test_stores_witness : OctReady ctx dataCore (octS dataCore) ∧
    Reaches (octS dataCore) dataCore .write .store true false (dataCore.gr 1 + 0) 8 [(0x40000, 8)] ∧
    Reaches (octS dataCore) dataCore .write .store true false (dataCore.gr 1 + 6) 8 [(0x40006, 2), (0x40008, 6)] := by
  decide +kernel
/-- A code region that STI may write, open at M. -/
def codeS (k : OctCore) : State := ((octS k).setB .COH_CODE_BASE_VALID 0 1).setB .COH_CODE_LIMIT_LIMIT 0 1
theorem test_sti_witness : OctReady ctx dataCore (codeS dataCore) ∧ stPl dataCore.status ≠ 0 ∧
    instrPieces (codeS dataCore) dataCore false (dataCore.gr 1 + 0) 8 = .ok [(0x40000, 8)] ∧
    piecesPoisoned [(0x40000, 8)] (codeS dataCore) = false ∧
    instrPieces (codeS dataCore) dataCore true (dataCore.gr 1 + 0) 8 = .ok [(0x40000, 8)] ∧
    (stiPieces ctx dataCore [(0x40000, 8)] (leBytes 8 5) (codeS dataCore)).isSome = true := by decide +kernel

def amo (hint : Nat) : AmoOp := { eight := true, hint := hint, acqRel := false, d := 4, a := 1, b := 31 }
theorem test_atomics_witness : OctReady ctx dataCore (octS dataCore) ∧
    Reaches (octS dataCore) dataCore .both .amo true true (dataCore.gr 1) 8 [(0x40000, 8)] ∧
    (drainCore 0 (octS dataCore)).1 = true ∧
    (match amoAt ctx (amo 1) (fun o b => some (o + b)) (dataCore.gr 1) 0x40000 dataCore (octS dataCore) with
      | some (.ok _ _) => true | _ => false) = true ∧
    (match amoAt ctx (amo 2) (fun o b => some (o + b)) (dataCore.gr 1) 0x40000 dataCore (octS dataCore) with
      | some (.ok _ _) => true | _ => false) = true ∧
    (match acquire 0 (lineOf 0x40000) true (octS dataCore) with
      | some u => (u.coh.l2At 0 (lineOf 0x40000)).any (fun e => !e.poison) | none => false) = true := by decide +kernel

theorem test_transfers_witness : OctReady ctx dataCore (octS dataCore) ∧
    (dataCore.pc + 2 * 6 : Word).toNat % 2 = 0 ∧ (dataCore.gr 1).toNat % 2 = 0 ∧ (regs 0x40001 0).gr 1 = 0x40001 ∧
    Reaches (octS dataCore) dataCore .write .push true false (dataCore.gr 31 - 8) 8 [(0x4FFF8, 8)] ∧
    piecesPoisoned [(0x4FFF8, 8)] (octS dataCore) = false ∧ OctReady ctx (regs 0x40001 0) (octS (regs 0x40001 0)) := by
  decide +kernel
theorem test_tuber_call_witness : let k := { tcore with g := ((List.replicate 32 0).set 1 0x1000).set 31 0x10000008 }
    TuberReady tctx k (tuberS k) ∧ (k.gr 1).toNat % 2 = 0 ∧ tuberFault true (k.gr 31 - 8) 8 = none := by decide +kernel
theorem test_call_pushes_return_address :
    (coreAfter (exec (.opCall ctx 6) (octS dataCore))).buf.map (·.addr) = [0x4FFF8] := by decide +kernel

theorem test_fences_witness : OctReady ctx core (octS core) ∧ (drainCore 0 (octS core)).1 = true ∧
    (drainCore 0 (octS core)).2.jnl.writes = 0 := by decide +kernel

def uCore : OctCore := { core with status := 0, vbase := 0x8000 }
theorem test_mcall_witness : OctReady ctx uCore (octS uCore) ∧ stTlbm uCore.status = false ∧ stPl uCore.status ≠ 2 ∧
    stTlbm core.status = false ∧ stPl core.status = 2 := by decide +kernel
theorem test_brk_at_u : let k := coreAfter (exec (.opBrk ctx 3) (octS uCore))
    k.pc = 0x8100 ∧ k.epcS = 0x1000 ∧ k.causeS = 0xF ∧ k.badS = 3 ∧ k.status = 1 := by decide +kernel
theorem test_eret_witness :
    (let k := { core with status := 1, estatusS := 0 }; OctReady ctx k (octS k) ∧ stPl k.estatusS < 2) ∧
    (let k := { core with estatusM := 1, epcM := 0x2000 }; OctReady ctx k (octS k) ∧ stPl k.estatusM ≠ 3 ∧ stWorld k.estatusM = 0) ∧
    (let k := { core with estatusM := 0x101 }; OctReady ctx k (octS k) ∧ stPl k.estatusM ≠ 3 ∧ stWorld k.estatusM ≠ 0 ∧
      (octS k).mode = Mode.frond) := by decide +kernel

theorem test_control_register_levels : stPl 0 = 0 ∧ stPl 1 = 1 ∧ stPl 2 = 2 := by decide
theorem test_crw_epc_drops_bit_0 : (coreAfter (exec (.opCrw ctx 2 1) (octS (regs 0x1235 0)))).epcM = 0x1234 := by decide +kernel

def tlbCore : OctCore := { core with tlbhi := 0x5000, tlblo := 0x700F }
theorem test_tlb_witness : OctReady ctx tlbCore (octS tlbCore) ∧ stPl tlbCore.status ≠ 0 ∧
    tlbSlot tlbCore.dtlb 64 (tlbMake tlbCore.tlbhi tlbCore.tlblo tlbCore.stamp) = some 0 ∧
    (tlbMake tlbCore.tlbhi tlbCore.tlblo tlbCore.stamp).lo.toNat.testBit 5 = false := by decide +kernel

/-- Hypotheses of the I/O accesses: TIM_NOW read at M, a misaligned address, an address without a grant at U, one outside the
space, one in a block with no power. -/
def ioCore (a : Word) (pl : Word) : OctCore := { core with status := pl, g := (List.replicate 32 0).set 1 a }
theorem test_io_witness :
    (OctReady ctx (ioCore 0x50000 2) (octS (ioCore 0x50000 2)) ∧ (octS core).granted 2 5 = true ∧ (octS core).blockDark 0x50000 = false) ∧
    (0x50002 % 4 ≠ 0 ∧ OctReady ctx (ioCore 0x50002 2) (octS (ioCore 0x50002 2))) ∧
    (OctReady ctx (ioCore 0x50000 0) (octS (ioCore 0x50000 0)) ∧ (octS core).granted 0 5 = false) ∧
    (OctReady ctx (ioCore 0x800000 2) (octS (ioCore 0x800000 2)) ∧ (octS core).granted 2 0x80 = true) ∧
    ((State.reset).blockDark 0x200000 = true) := by decide +kernel

theorem test_bad_fields_witness : octipCtx (.opAdd { ctx with fieldsOk := false } false 1 2 3) = some { ctx with fieldsOk := false } ∧
    fetchFault (octS core) core 2 = none ∧ guardOf ctx core = true ∧ guardOf { ctx with gN := true } core = false := by decide +kernel
theorem test_computing_witness : octipCtx (.opAdd ctx false 1 2 3) = some ctx ∧ onlyComputes (.opAdd ctx false 1 2 3) = true :=
  ⟨rfl, rfl⟩

/-! ## Cores, coherence, pods, faults, memory -/

/-- One pod is logical, its core 0 stands as `k`. -/
def podS (k : OctCore) : State := (octS k).set .POD_SPARES_LOGICAL 4

theorem test_core_start_witness : (podS core).coreUp = true ∧ 3 < (podS core).get .POD_SPARES_LOGICAL ∧
    (podS core).getB .POD_MODE_MODE 3 ≠ 3 ∧ ((podS core).setB .POD_MODE_MODE 3 1).getB .POD_MODE_MODE 3 = 1 ∧
    isFw (.fw 0 0 0 2) = true ∧ kvHas (podS core).cores 0 = true ∧ core.timed = false := by decide +kernel
def irqCore : OctCore := { core with status := 0x5 }
def irqS (k : OctCore) : State := ((octS k).setB .POD_INT_EN_EN 0 0x7F).setB .POD_INT_PEND_LATCHED 0 3
theorem test_interrupt_witness : kvGet? (irqS irqCore).cores 0 = some irqCore ∧ irqCore.run = .running ∧ irqCore.wait = none ∧
    intOpen irqCore = true ∧ (irqS irqCore).takeable 0 irqCore = some 0 ∧
    intOpen { core with status := 0x101 } = true ∧ (irqS { core with status := 0x101 }).takeable 0 { core with status := 0x101 } = some 0 := by
  decide +kernel
theorem test_core_starts_at_m : let k := (kvGet? (after (exec (.coreStart 3 0) (podS core))).cores 6).getD {}
    k.run = .running ∧ k.status = 2 ∧ k.g = List.replicate 32 0 := by decide +kernel

/-- A maintenance range of two lines; then a length of 0, an end past the DRAM, a ZERO of a code region. -/
def mtS (addr len : Nat) : State :=
  (((octS core).setB .COH_MAINT_ADDR_ADDR 0 addr).setB .COH_MAINT_PROG_NEXT 0 addr).setB .COH_MAINT_LEN_LEN 0 len
theorem test_maintenance_witness : OctReady ctx core (mtS 8 256) ∧ (mtS 8 256).granted 2 0x10 = true ∧ (mtS 8 256).pdOn 18 = true ∧
    (mtS 8 256).getB .COH_MAINT_LEN_LEN 0 = 256 ∧ (mtS 8 0).getB .COH_MAINT_LEN_LEN 0 = 0 ∧
    (mtS (2 ^ 31 - 1) 256).getB .COH_MAINT_ADDR_ADDR 0 * 128 + 256 = dramSize + 128 ∧
    ((codeS core).setB .COH_MAINT_LEN_LEN 0 128).codeRegions = [{ base := 0, limit := 0x200000, monly := false }] ∧
    (mtLines 1 0 0 2 8 (mtS 8 256)).1 = false ∧ ((mtS 8 256).coh.dirAt 8).trans = none ∧
    (lockLine 0 8 ((mtS 8 256).setB .COH_L2LOCK_WAYS 0 4)).map (·.1) = some false ∧
    (lockLine 0 8 (mtS 8 256)).map (·.1) = some true := by decide +kernel

/-- A line with a stable entry, one that a transaction of pod 3 holds, and a request that holds the token. -/
def trans (p : Nat) (filling maint : Bool) : DirEnt := { trans := some { pod := p, excl := true, left := [], filling := filling, maint := maint } }
def cohS (c : CohState) : State := { octS core with coh := c }
theorem test_directory_witness :
    (cohS {}).cohLive 1 9 = true ∧ (cohS {}).coh.l2At 1 9 = none ∧ (cohS {}).coh.tokenOf 9 = none ∧
    ((cohS {}).coh.dirAt 9).trans = none ∧ (dirRoom 9 (cohS {})).isSome = true ∧
    (((cohS { dir := [(9, trans 3 false false)] }).coh.dirAt 9).trans).any (fun x => x.pod != 1) = true ∧
    ((cohS { reqs := [{ pod := 2, line := 9, excl := true, nacks := 16, queued := true }] }).coh.tokenOf 9).any
      (fun r => r.line == 9 && r.pod != 1) = true ∧
    ((cohS { reqs := [{ pod := 1, line := 9, excl := true, nacks := 1 }] }).coh.reqOf 1 9).any (fun r => r.excl) = true := by
  decide +kernel
theorem test_protocol_witness :
    (let s := cohS { l2 := [(l2Key 1 9, { st := .modified, data := zeros 128 })] }
     (s.coh.l2At 1 9).any (fun e => !e.locked && !e.evicting) = true ∧ s.coh.acks.contains (l2Key 1 9) = false ∧
     s.coh.snooped 1 9 = false) ∧
    (let s := cohS { l2 := [(l2Key 1 9, { st := .modified, data := zeros 128, evicting := true })], acks := [l2Key 1 9] }
     (s.coh.l2At 1 9).any (·.evicting) = true ∧ l2Key 1 9 ∈ s.coh.acks) ∧
    (let s := cohS { l2 := [(l2Key 1 9, { st := .shared, data := zeros 128 })], dir := [(9, { trans := some { pod := 3, excl := true, left := [1] } })],
                     snoops := [{ pod := 1, line := 9, inval := true }] }
     (s.coh.snoopOf 1 9 false).isSome = true ∧ s.coh.snooped 1 9 = true ∧
     ((s.coh.dirAt 9).trans).any (fun t => !t.maint) = true ∧ (s.coh.l2At 1 9).isSome = true) ∧
    (let s := cohS { dir := [(9, trans 1 true true)], snoops := [{ pod := 1, line := 9, inval := true }] }
     (s.coh.snoopOf 1 9 false).isSome = true ∧ ((s.coh.dirAt 9).trans).any (fun t => t.maint && t.pod == 1 && t.filling) = true) ∧
    (let s := cohS { dir := [(9, trans 3 false false)], snoops := [{ pod := 1, line := 9, inval := true, ans := true }] }
     (s.coh.snoopOf 1 9 true).any (fun n => !n.evicting) = true ∧ ((s.coh.dirAt 9).trans).any (fun t => !t.maint) = true) ∧
    (let s := cohS { dir := [(9, trans 1 true false)] }
     ((s.coh.dirAt 9).trans).any (fun t => t.pod == 1 && t.filling && !t.maint && !t.noInstall) = true) := by decide +kernel
theorem test_coherent_domain_witness : (octS core).coreUp = true ∧
    (let s := { octS core with coh := { restarting := true }, flt := { coreEvent := some { source := 16, ue := true, base := 2 } } }
     s.coreUp = true ∧ s.coh.restarting = true ∧ s.flt.coreEvent = some { source := 16, ue := true, base := 2 }) ∧
    (kvGet? (cohS { l3 := [(9, { data := zeros 128, dirty := true })] }).coh.l3 9).isSome = true := by decide +kernel

/-- Pod 0 runs in lockstep; physical pod 15 is a spare. -/
def lockS (p : PodSt) : State := { podS core with pods := [(0, p)] }
theorem test_lockstep_witness :
    ((lockS {}).checkedPod 0 = true ∧ ((lockS {}).podAt 0).sparing = none ∧ ((lockS {}).podAt 0).retry = 0) ∧
    ((lockS { retry := 1 }).podAt 0).retry = 1 ∧ ((lockS { retry := 2 }).podAt 0).retry = 2 ∧
    (((lockS { recent := [1, 2] }).podAt 0).recent.length = 2 ∧
      max 1 (((lockS {}).set .POD_RETRY_CTL_LIMIT 0).get .POD_RETRY_CTL_LIMIT) = 1) ∧
    (lockS {}).spare = none ∧ ((lockS {}).set .POD_PHYS_STATE (2 ^ 30)).spare = some 15 ∧
    ((lockS { sparing := some (0, 1) }).podAt 0).sparing = some (0, 1) := by decide +kernel
theorem test_pod_command_witness :
    (let s := (codeS core).setB .POD_SPLIT_ENTRY_ADDR 0 0x800
     s.onB .POD_CMD_BUSY 0 = false ∧ s.getB .POD_MODE_MODE 0 = 0 ∧ s.onB .POD_MODE_SERVICE 0 = false ∧
     s.inCode (s.getB .POD_SPLIT_ENTRY_ADDR 0 * 2) = true ∧ s.inCode (s.getB .POD_RESTART_ENTRY_ADDR 0 * 2) = true) ∧
    (let s := ((codeS core).setB .POD_MODE_MODE 0 1).setB .POD_MODE_PARKED 0 1
     s.getB .POD_MODE_MODE 0 = 1 ∧ s.onB .POD_MODE_PARKED 0 = true ∧ s.onB .POD_MODE_SERVICE 0 = false) := by decide +kernel

theorem test_collector_witness : frond.lit .pf .FLT_ACK ∧ frond.lit .pf .FLT_FIRST_TYPE ∧ frond.lit .pf .FLT_INJECT ∧ frond.logTakes .pf = true ∧
    (frond.set .MOD_STATE_MODE Mode.maintenance).mode = Mode.maintenance ∧ (frond.set .MOD_STATE_MODE Mode.maintenance).lit .pf .FLT_INJECT ∧
    (frond.set .LOG_SEQ_SEQ logCapacity).logTakes .pf = false ∧
    frond.get .FLT_CTL_COLL = 0 ∧ (frond.set .FLT_CTL_COLL 2).get .FLT_CTL_COLL = 2 ∧
    ({ frond with flt := { restarting := [.pack0] } } : State).flt.restarting.contains .pack0 = true := by decide +kernel

/-- R276, R277: one wrong symbol is corrected; the line reads as written. -/
theorem test_memory_witness : frond.memHolds 5 false = false ∧ frond.memHolds 5 true = false ∧ fromDevice .core = false ∧
    frond.inEnclave (5 * 128) = none ∧ (piecesOf 640 200).map (·.1) = [5, 6] ∧ kvGet frond.mem.errs 5 [] = [] ∧
    frond.poisoned 5 = false ∧ (frond.leftOut 5).length < 2 ∧ (zeros 128).length = 128 ∧
    (readLine false 5 { frond with mem := { poison := [5] } }).1 = none ∧ frond.lineQueued 5 = false ∧
    (frond.set .MOD_STATE_MODE Mode.dormant).memHolds 5 false = true ∧ (frond.set .MOD_STATE_MODE Mode.dormant).memHolds 5 true = true ∧
    ({ frond with mem := { reqs := [{ client := .core, line := 5 }] } } : State).lineQueued 5 = true ∧ fromDevice .media = true ∧
    ((frond.setB .COH_ENC_VALID 1 1).inEnclave (5 * 128)).isSome = true := by decide +kernel
theorem test_one_wrong_symbol_is_corrected :
    (readLine false 5 { frond with mem := { errs := [(5, [{ stripe := 2, col := 7, err := 0x5A }])] } }).1 = some (zeros 128) := by
  decide +kernel
theorem test_memory_past_the_dram_stops : exec (.memRead .core (2 ^ 31) []) frond = .fault (.noSuchLine (2 ^ 38)) := rfl

theorem test_stripes_witness : frond.lit .pf .MEM_STRIPE_CMD ∧ frond.logTakes .pf = true ∧ frond.otherStripeFailed 2 = false ∧
    (frond.set .MEM_STRIPE_STATUS_FAILED 8).bitB .MEM_STRIPE_STATUS_FAILED 0 3 = true ∧
    (frond.set .MEM_STRIPE_STATUS_FAILED 8).otherStripeFailed 2 = true ∧
    (frond.set .MOD_STATE_MODE Mode.maintenance).lit .pf .MEM_STRIPE_CMD ∧ frond.mode ≠ Mode.maintenance ∧
    frond.nextFrontEnd = some 0 ∧ ({ frond with mem := { switching := true } } : State).nextFrontEnd = some 0 := by decide +kernel
theorem test_age_witness : (frond.waitsAt 1).all (·.aged) = true ∧
    (let q : MemReq := { client := .core, line := 5, at_ := 100 }
     let s : State := { frond with mem := { reqs := [{ q with aged := true }, q] } }
     (s.waitsAt (lineGroup 5)).find? (fun q => !q.aged) = some q ∧ lineGroup 5 < 4) := by decide +kernel
theorem test_controller_witness : frond.bitB .MEM_STRIPE_STATUS_FAILED 0 0 = false ∧ frond.mode ≠ Mode.dormant ∧
    frond.mem.retrain = [] ∧ max 1 (frond.get .MEM_TRAIN_CTL_DRIFT) < 255 ∧
    (let s := { frond with mem := { retrain := [23], badTrain := [(23, 1)] } }
     23 ∈ s.mem.retrain ∧ kvGet s.mem.badTrain 23 0 = 1) ∧
    (let s := frond.set .MEM_SCRUB_CTL_ENABLE 1
     s.on .MEM_SCRUB_CTL_ENABLE = true ∧ s.mode = Mode.frond ∧ s.memHolds (s.get .MEM_SCRUB_STATUS_POS) false = false) := by
  decide +kernel
theorem test_mram_witness :
    (let s := frond.set .JNL_SCRUB_CTL_ENABLE 1
     s.on .JNL_SCRUB_CTL_ENABLE = true ∧ 7 < areaBlocks .descLog ∧ s.copyOk .descLog 7 false = true ∧
     s.copyOk .descLog 7 true = true ∧ s.jnl.lost.contains (MramArea.descLog, 7) = false) ∧ frond.dieOk 3 = true := by decide +kernel

/-- A RESET record, which may be written while a slot is free. -/
def rec : JRec := { sch := 0, token := 0, seq := 1, fn := 3, node := 2, body := .reset 1 2 }
def recS : State :=
  (({ frond with jnl := { slots := [(0, ⟨.good rec, .good rec⟩)], pending := [{ record := rec, acts := [] }] } } : State).set
    .JNL_TAIL_COUNT 1)
theorem test_journal_witness : takeFirst (fun p => recS.jnlTakes p.record) recS.jnl.pending = some ({ record := rec, acts := [] }, []) ∧
    (let s := recS.set .JNL_TAIL_COUNT jnlSlots; s.jnl.pending ≠ [] ∧ s.jnlFree = 0 ∧ s.jnl.noSlot = false) ∧
    kvGet? ({ frond with css := { retire := [(cqKey 3 1, [(3, 5, 1)])] } } : State).css.retire (cqKey 3 1) = some [(3, 5, 1)] ∧
    (let t := syncFree (stepHead (recS.get .JNL_TAIL_COUNT - recS.get .JNL_HEAD_COUNT) recS)
     t.jnlRec (t.get .JNL_HEAD_COUNT) = some rec ∧ t.get .JNL_HEAD_COUNT ≠ t.get .JNL_TAIL_COUNT ∧ t.mode ≠ Mode.spore ∧
     t.on .JNL_STATUS_REFUSING = false ∧ rec.ofProg = false ∧ 1 ≤ t.jnlFree) := by decide +kernel

/-! ## Channel programs -/

/-- The 32 bytes of an order, without its check. -/
def order (op flags sel count addr pa pb : Nat) : List Byte :=
  leBytes 1 op ++ leBytes 2 flags ++ leBytes 1 sel ++ leBytes 4 count ++ leBytes 8 addr ++ leBytes 8 pa ++ leBytes 4 pb ++ leBytes 4 0
def fetched (raw : List Byte) : Fetched := { addr := 0x1000, raw := raw }
/-- A program on engine 0 that is about to run one order. -/
def prog (raw : List Byte) : Prog :=
  { token := 0x10000, start := 0x1000, tag := 1, journaled := true, engine := some 0, next := 0x1000, fetchAt := none,
    fetched := [fetched raw] }
def sub (p : Option Prog) (st : SubState) : Sub := { fn := 0, rel := 5, cq := 0, remote := false, node := 0, st := st, prog := p }
/-- The module with subchannel 5 handed to the PF, its context in the cache. -/
def cssS (b : Sub) : State :=
  { frond with css := { subs := [(5, b)], ctx := [{ sch := 5, ref := true, age := 0, dirty := false, filling := false }] } }
def progS (p : Prog) : State := cssS (sub (some p) .active)
def orderS (raw : List Byte) : State := progS (prog raw)

/-- An order that is first in its list, of a live program whose context is cached, can run. -/
theorem orderReady_of {k op : Nat} {p : Prog} {f : Fetched} {t : List Fetched} {s : State} (h1 : s.live k = some p)
    (h2 : (ctxTouch k (p.engine.getD 0) s).1 = true) (h3 : p.run = none) (h4 : p.fetched = f :: t) (h5 : f.failed = false)
    (h6 : (parseOrd f.raw).op = op) : OrderReady k op p f t s (ctxTouch k (p.engine.getD 0) s).2 :=
  ⟨h1, Prod.ext h2 rfl, h3, h4, h5, h6⟩

def ready (op : Nat) (raw : List Byte) : Prop :=
  OrderReady 5 op (prog raw) (fetched raw) [] (orderS raw) (ctxTouch 5 0 (orderS raw)).2

theorem ready_of {op : Nat} {raw : List Byte} (h1 : (orderS raw).live 5 = some (prog raw))
    (h2 : (ctxTouch 5 0 (orderS raw)).1 = true) (h3 : (parseOrd raw).op = op) : ready op raw :=
  orderReady_of h1 h2 rfl rfl rfl h3

theorem test_chunk_ready : ready opChunk (order opChunk 0 0 0 0 0x10000000010000 18) := by apply ready_of <;> decide +kernel
theorem test_probe_ready : ready opProbe (order opProbe 0 0 0 0 0 0) := by apply ready_of <;> decide +kernel
theorem test_pack_ready : ready opPack (order opPack 0 0 0 0 65536 0x13) := by apply ready_of <;> decide +kernel
theorem test_seal_ready : ready opSeal (order opSeal 0 0 0 0 7 0) := by apply ready_of <;> decide +kernel
theorem test_spread_ready : ready opSpread (order opSpread 0 0 0 0x2000 0 0x0102) := by apply ready_of <;> decide +kernel
theorem test_digest_ready : ready opDigest (order opDigest 0 0 0 0x2000 0 1) := by apply ready_of <;> decide +kernel
theorem test_gather_ready : ready opGather (order opGather 0 0 64 0x2000 0 0) := by apply ready_of <;> decide +kernel
theorem test_unseal_ready : ready opUnseal (order opUnseal 0 0 0 0 7 0) := by apply ready_of <;> decide +kernel
theorem test_unpack_ready : ready opUnpack (order opUnpack 0 0 0 0 0 1) := by apply ready_of <;> decide +kernel
theorem test_jump_ready : ready opJump (order opJump 0 0 0 0x3000 0 0) := by apply ready_of <;> decide +kernel
theorem test_branch_ready : ready opBranch (order opBranch 0 0 0 0x3000 0 0x102) := by apply ready_of <;> decide +kernel
theorem test_wait_ready : ready opWait (order opWait 0 0 0 0 1000 0) := by apply ready_of <;> decide +kernel
theorem test_note_ready : ready opNote (order opNote 0 0 9 0 0 0) := by apply ready_of <;> decide +kernel
theorem test_call_ready : ready opCall (order opCall 0 0 64 0x2000 0 0x640001) := by apply ready_of <;> decide +kernel
theorem test_end_ready : ready opEnd (order opEnd 0 0 0 0 0 0) := by apply ready_of <;> decide +kernel
theorem test_ingest_ready : ready opIngest (order opIngest 0 0 4096 0x2000 0 0) := by apply ready_of <;> decide +kernel
theorem test_commit_ready : ready opCommit (order opCommit 0 0 64 0x2000 0 0) := by apply ready_of <;> decide +kernel
theorem test_emit_ready : ready opEmit (order opEmit 0 0 4096 0x2000 0 0) := by apply ready_of <;> decide +kernel
theorem test_verify_ready : ready opVerify (order opVerify 0 0 0 0 0 0) := by apply ready_of <;> decide +kernel
theorem test_media_ready : ready opMedia (order opMedia 0 0 4096 0x2000 0x3000 0) := by apply ready_of <;> decide +kernel
theorem test_zone_ready : ready opZone (order opZone 0 0 0 0 0x80000 0x50000) := by apply ready_of <;> decide +kernel

/-- What the blocks the orders name come to: read from host memory, or not (R48, R60). -/
theorem test_block_witness : (readBlock false 0x2000 48 (.ok (zeros 48)) frond).1 = .ok (zeros 48) ∧
    (prog []).mediaJoin = none ∧ frond.devFull 0 = false ∧ (prog []).stages.spread = none ∧ (prog []).deadDoms = [] ∧
    frond.shapeTooBig 16 4 0 = true ∧ ((frond.set .ENG_POOL_CTL_ENABLE 1).set .ENG_POOL_SIZE_UNITS 32768).shapeTooBig 4 2 0 = false := by
  decide +kernel
/-- Clauses over a program that is read on its own. -/
theorem test_program_witness : (orderS (order opJump 0 0 0 0x3000 0 0)).progAt 5 = some (prog (order opJump 0 0 0 0x3000 0 0)) ∧
    (prog []).transfers = 0 ∧ ({ prog [] with transfers := 65535 } : Prog).transfers + 1 = 65536 ∧
    (orderS (order opBranch 0 0 0 0x3000 0 0x102)).progAt 5 = some (prog (order opBranch 0 0 0 0x3000 0 0x102)) ∧
    (parseOrd (order opJump 16 0 0 0x3000 0 0)).mark = true ∧ (parseOrd (order opJump 0 0 0 0x3000 0 0)).mark = false ∧
    (readBlock true 0x2000 16 .failed { frond with mem := { poison := [0x40] } }).1 = .poisoned := by decide +kernel
/-- A program with a SPREAD whose shape the pool holds (R203), and one whose shape it cannot. -/
def spreadProg (raw : List Byte) : Prog := { prog raw with stages := { spread := some { k := 4, m := 2, shift := 0, places := [] } } }
def poolS (p : Prog) : State := ((progS p).set .ENG_POOL_CTL_ENABLE 1).set .ENG_POOL_SIZE_UNITS 32768
theorem test_ingest_witness : let raw := order opIngest 32 0 64 0x2000 0 1
    let p := spreadProg raw
    (OrderReady 5 opIngest p (fetched raw) [] (poolS p) (ctxTouch 5 0 (poolS p)).2 ∧
      (beginState 5 p (fetched raw) [] .ingest (ctxTouch 5 0 (poolS p)).2).shapeTooBig 4 2 0 = false) ∧
    (OrderReady 5 opIngest p (fetched raw) [] (progS p) (ctxTouch 5 0 (progS p)).2 ∧
      (beginState 5 p (fetched raw) [] .ingest (ctxTouch 5 0 (progS p)).2).shapeTooBig 4 2 0 = true) ∧
    (parseOrd raw).list = true ∧ (parseOrd raw).dev = false := by
  refine ⟨⟨orderReady_of ?_ ?_ rfl rfl rfl ?_, ?_⟩, ⟨orderReady_of ?_ ?_ rfl rfl rfl ?_, ?_⟩, ?_⟩ <;> decide +kernel
theorem test_emit_list_ready : ready opEmit (order opEmit 32 0 64 0x2000 0 1) := by apply ready_of <;> decide +kernel
/-- A call without argument, and one with it in device DRAM. -/
theorem test_call_forms : (parseOrd (order opCall 0 0 64 0x2000 0 0x640001)).count ≠ 0 ∧ (parseOrd (order opCall 0 0 64 0x2000 0 0x640001)).dev = false ∧
    (parseOrd (order opCall 64 0 64 0x2000 0 0x640001)).dev = true := by decide +kernel
/-- ZONE with each action it knows, and a device that takes no command. -/
theorem test_zone_actions : (List.range 6).map (fun a => bits (parseOrd (order opZone 0 0 0 0 0x80000 (a * 65536))).pb 19 16) = [0, 1, 2, 3, 4, 5] ∧
    (parseOrd (order opMedia 8 0 4096 0x2000 0x3000 0)).sink = true := by decide +kernel
/-- A WAIT, a call and a COMMIT that stand. -/
def running (place : RunAt) : Prog := { prog [] with fetched := [], run := some { addr := 0x1000, raw := [], x := { addr := 0x1000, sel := 0 }, place := place } }
theorem test_wait_witness : (let s := cssS (sub (some (running (.wait 2 500))) .waiting)
     (s.subAt 5).st = .waiting ∧ ((s.progAt 5).bind (·.run)).any (fun r => r.place == .wait 2 500) = true) ∧
    (let s := progS { running .stage with run := some { addr := 0x1000, raw := order opEnd 0 0 0 0 0 0, x := { addr := 0x1000, sel := 0 }, place := .stage } }
     (s.progAt 5).any (fun q => q.join.isNone && q.halt.isNone && (q.run.any (fun x => (parseOrd x.raw).op == opEnd))) = true ∧
     (s.subAt 5).st ≠ .resetting) ∧
    (progS (running .word)).over 5 (running .word) = false ∧ (progS (running .word)).progAt 5 = some (running .word) ∧
    (progS (running (.wordTo 0x3000))).progAt 5 = some (running (.wordTo 0x3000)) := by decide +kernel
def call (slot : Option Nat) : Call :=
  { sch := 5, token := 0x10000, addr := 0x1000, a := 0, service := 1, timeoutMs := 100, len := 8, dev := false, arg := 0x2000,
    slot := slot, tag := 3 }
theorem test_call_witness :
    (let s := (({ frond with css := { calls := [call none] } } : State).set .CSS_CALL_CTL_ENABLE 1).set .COH_CTL_READY 1
     s.css.calls.find? (fun c => c.slot.isNone) = some (call none) ∧
     (List.range s.callEntries).find? (fun i => s.css.calls.all (fun q => q.slot != some i)) = some 0 ∧
     s.on .CSS_CALL_CTL_ENABLE = true ∧ s.on .COH_CTL_READY = true) ∧
    (let s : State := { frond with css := { calls := [call (some 2)] } }
     let v := 2 ^ 63 + 3 * 65536 + 2
     isFw (.fw 0 0 0 2) = true ∧ v.testBit 63 = true ∧ bits v 61 48 = 0 ∧
     s.css.calls.find? (fun c => c.slot == some (bits v 7 0) && c.tag == bits v 31 16) = some (call (some 2)) ∧
     frond.css.calls.find? (fun c => c.slot == some (bits v 7 0) && c.tag == bits v 31 16) = none ∧
     s.lit (.fw 0 0 0 2) .CSS_CALL_ANS ∧ s.css.calls.find? (fun c => c.sch == 5) = some (call (some 2)) ∧
     (call (some 2)).timeoutMs ≠ 0 ∧ (call (some 2)).dev = false ∧
     (call (some 2)).len < bits (9 * 2 ^ 48) 61 48 ∧ bits (8 * 2 ^ 48) 61 48 ≤ (call (some 2)).len) ∧
    frond.lit (.fw 0 0 0 2) .COH_CTL ∧ frond.coreUp = true := by decide +kernel
theorem test_commit_log_witness : (let s := progS (running (.commit .dlog 0 0x2000 64 0 false))
     s.progAt 5 = some (running (.commit .dlog 0 0x2000 64 0 false)) ∧ s.over 5 (running (.commit .dlog 0 0x2000 64 0 false)) = false ∧ s.dlogUsed + 4096 < 2097152) := by decide +kernel

/-- The control word START of subchannel 5 with a program at 0x1000, or another control. -/
def control (ctl addr : Nat) : List Byte := leBytes 2 5 ++ leBytes 1 ctl ++ leBytes 1 0 ++ leBytes 4 9 ++ leBytes 8 addr
def ctlS (b : Sub) (w : List Byte) : State := { cssS b with css := { (cssS b).css with ctl := [(0, [w])] } }
theorem test_doorbell_witness : frond.mode ≠ Mode.off ∧ frond.pdOn 30 = true ∧ (control 1 0x1000).length = 16 ∧
    kvGet frond.css.resets 0 false = false ∧ ({ frond with hst := { vfEnable := true, vfMse := true, fns := [(3, { created := true })] } } : State).fnLives 3 = true := by
  decide +kernel
theorem test_controls_witness : ∀ ctl ∈ List.range 6, let w := control ctl (if ctl = 1 then 0x1000 else 0)
    let s := ctlS (sub none .idle) w
    s.ctlRuns 0 = true ∧ ((parseCtl w).valid = decide (1 ≤ ctl)) ∧ (parseCtl w).ctl = ctl ∧
    s.findSub 0 5 = some (5, sub none .idle) ∧ s.mode = Mode.frond ∧ startReserve ≤ s.jnlFree ∧
    s.get .MOD_STATE_PENDING ≠ Mode.dormant ∧ s.findSub 0 6 = none ∧ s.fnResetting 0 = false := by decide +kernel
/-- The states a control meets, and the module as a START finds it: not in FROND, without journal room, its node away. -/
theorem test_control_meets_each_state : (∀ st ∈ [SubState.idle, .statusPending, .active, .waiting, .startPending, .resetting, .clearPending,
      .waitCore, .redrive, .haltPending],
      (ctlS (sub (some (prog [])) st) (control 2 0)).findSub 0 5 = some (5, sub (some (prog [])) st)) ∧
    (let b := { sub none .idle with remote := true, node := 3 }
     let s := popCtl 0 (ctlS b (control 1 0x1000))
     (ctlS b (control 1 0x1000)).findSub 0 5 = some (5, b) ∧ s.present 3 = false) ∧
    (popCtl 0 ((ctlS (sub none .idle) (control 1 0x1000)).set .MOD_STATE_MODE Mode.standby)).mode ≠ Mode.frond ∧
    (popCtl 0 ((ctlS (sub none .idle) (control 1 0x1000)).set .JNL_TAIL_COUNT 24200000)).jnlFree < startReserve ∧
    (let b := { sub (some { prog [] with farWait := some 2 }) .waiting with remote := true, node := 3 }
     (ctlS b (control 4 0)).findSub 0 5 = some (5, b)) := by decide +kernel
theorem test_lost_doorbells : 4096 ≤ 4096 ∧ 8 % 16 ≠ 0 ∧
    64 ≤ (kvGet ({ frond with css := { ctl := [(0, List.replicate 64 (control 5 0))] } } : State).css.ctl 0 []).length ∧
    kvGet ({ frond with css := { resets := [(0, true)] } } : State).css.resets 0 false = true := by decide +kernel
theorem test_control_states_witness :
    (ctlS (sub (some (prog [])) .active) (control 2 0)).findSub 0 5 = some (5, sub (some (prog [])) .active) ∧
    (let b := sub (some (running (.wait 2 500))) .waiting
     let s := popCtl 0 (ctlS b (control 4 0))
     (s.subAt 5).st = .waiting ∧ ((s.progAt 5).bind (·.run)).any (fun r => r.place == .wait 2 500) = true) := by decide +kernel

theorem test_service_witness :
    (let b := sub (some { prog [] with fetched := [], engine := none }) .startPending
     let s := cssS b
     s.progAt 5 = b.prog ∧ (s.subAt 5).st = .startPending ∧ s.getB .VFM_CFG_MAX_ACTIVE 0 = 0 ∧ s.engineLoad 0 = 0 ∧
     ∀ f ∈ List.range 8, s.engineLoad 0 ≤ s.engineLoad f) ∧
    (let p := { prog [] with fetched := [], fetchAt := some 0x1000 }
     (progS p).progAt 5 = some p ∧ ((progS p).live 5).isSome = true ∧ p.fetched.length < 8) ∧
    (let p := { prog [] with halt := some 3 }
     let s := cssS (sub (some p) .clearPending)
     (s.subAt 5).st = .clearPending ∧ s.draining 5 p = false ∧ s.objectWritten 5 = false ∧ (s.subAt 5).remote = false ∧ p.ending = none) ∧
    (let s := { (progS (prog [])).set .ENG_ONLINE_CHUNK 0xFF with css := { (progS (prog [])).css with laneWait := [5] } }
     s.freeLane = some 0) ∧
    (let s := (({ progS (prog []) with css := { (progS (prog [])).css with bufWait := [(5, 6, false)] } } : State).set
        .ENG_POOL_CTL_ENABLE 1).set .ENG_POOL_SIZE_UNITS 32768
     s.css.bufWait.find? (fun w => s.inShare w) = some (5, 6, false) ∧ s.poolFit 6 = some 0 ∧ (s.progAt 5).isSome = true) ∧
    (let w : Post := { w := { sch := 5, flags := 8, token := 0, bits := 0, addr := 0, node := 0 }, sch := 5, kind := .reply }
     let s := (({ frond with css := { posts := [(0, [w])] } } : State).setB .FN_CQ_CFG_ENABLE 0 1).setB .FN_CQ_CFG_LOG2 0 4
     kvGet s.css.posts (cqKey 0 0) [] = [w] ∧ s.cqRoom 0 = true ∧ s.inD3 0 = false) := by decide +kernel

def post (kind : PostKind) : Post := { w := { sch := 5, flags := 0, token := 0x10000, bits := 0, addr := 0, node := 0 }, sch := 5, kind := kind }
theorem test_posted_words_witness : ∀ kind ∈ [PostKind.note, .final], let s := ((({ progS (running .word) with css := { (progS (running .word)).css with
      posts := [(0, [post kind])] } } : State).setB .FN_CQ_CFG_ENABLE 0 1).setB .FN_CQ_CFG_LOG2 0 4)
    let posted := writeWord 0 0 (post kind) (s.withCss (fun c => { c with posts := kvDel c.posts 0 }))
    (posted.subAt 5).remote = false ∧ (posted.progAt 5).map (·.token) = some (post kind).w.token := by decide +kernel
theorem test_coalescing_witness : kvGet? ({ frond with css := { coal := [(cqKey 0 0, (2, 100))] } } : State).css.coal (cqKey 0 0) = some (2, 100) := by
  decide +kernel
theorem test_redrive_witness : let s := cssS (sub (some (prog [])) .redrive)
    (s.subAt 5).prog = some (prog []) ∧ (s.subAt 5).st = .redrive ∧ (prog []).ending = none ∧ s.mode = Mode.frond := by decide +kernel

/-! ## Registers, host port, write path, tables -/

theorem test_register_write_witness : frond.mode ≠ Mode.off ∧ frond.pdOn 18 = true ∧ frond.pdOn 33 = true ∧
    frond.logTakes (.fw 0 0 0 2) = true ∧ (frond.set .PWR_STATE_ON 0).pdOn 33 = false ∧ frond.hst.latch = none ∧
    ({ frond with hst := { latch := some (originCode .pf, regBase .TIM_NOW, 7) } } : State).hst.latch =
      some (originCode .pf, regBase .TIM_NOW, 7) := by decide +kernel
theorem test_log_full_witness : (frond.set .LOG_CKPT_EXPORTED_MADE 512).logTakes .pf = false ∧
    (frond.set .LOG_CKPT_EXPORTED_MADE 511).logTakes .pf = true := by decide +kernel
theorem test_queue_witness : (frond.fnOf 0).created = true ∧ 0 < frond.ncqOf 0 ∧ frond.cqOpen 0 = true ∧
    (let s := ((frond.setB .FN_CQ_CFG_ENABLE 0 1).setB .FN_CQ_CFG_LOG2 0 4).setB .FN_CQ_HEAD_TAIL 0 9
     s.getB .FN_CQ_HEAD_HEAD 0 < s.cqSize 0 ∧ s.getB .FN_CQ_HEAD_TAIL 0 < s.cqSize 0 ∧ (9 + s.cqSize 0 - 0) % s.cqSize 0 = 9) := by
  decide +kernel
theorem test_assign_witness : (let s := frond.set .CSS_SCH_ASSIGN_COUNT 3
    s.lit .pf .CSS_SCH_CMD ∧ s.logTakes .pf = true ∧ s.on .CSS_SCH_CMD_BUSY = false ∧ s.fnLives 0 = true ∧ s.on .CSS_SCH_ASSIGN_REMOTE = false ∧
    s.get .CSS_SCH_ASSIGN_CQ < s.ncqOf 0 ∧ (∀ k ∈ s.schRange, kvHas s.css.subs k = false) ∧ s.freeRun 0 3 = some 0 ∧
    s.schRangeBad = false) := by decide +kernel
def piece : SrcPiece := { dev := false, addr := 0x2000, len := 64, sel := 0, stages := {} }
def lane0 (p : Prog) : State := (progS { p with lane := some 0 }).set .ENG_ONLINE_CHUNK 0xFF
theorem test_host_read_witness : (let s := lane0 { running .ingest with todo := [piece] }
     (s.streams 5).isSome = true ∧ isExec 5 = false ∧ s.fifoUsed 0 + 64 ≤ 262144 ∧ s.pdOn 33 = true ∧ s.inD3 0 = false) ∧
    (let s := lane0 { running .ingest with reads := [piece] }
     ((s.progAt 5).map (·.reads)) = some [piece] ∧ (s.progAt 5).any (fun p => p.ending.isNone && p.run.isSome) = true) := by decide +kernel
theorem test_energy_witness : frond.lit .pf .ENG_EPB_CTL ∧ frond.on .ENG_EPB_CTL_CAL_BUSY = false ∧
    (frond.set .ENG_EPB_CTL_OPEN 1).on .ENG_EPB_CTL_OPEN = true ∧ frond.on .ENG_EPB_CTL_CAL_VALID = false := by decide +kernel
/-- R11: a read of the low half of TIM_NOW latches the high half for the next read. -/
theorem test_low_half_latches : (after (exec (.lowHalfRead .pf (regBase .TIM_NOW)) (frond.set .TIM_NOW_NS 0x500000007))).hst.latch =
    some (originCode .pf, regBase .TIM_NOW, 5) := by decide +kernel
/-- R11 speaks of the PF's BAR0 alone: a VF's read latches nothing. -/
theorem test_only_the_pf_latches : (after (exec (.lowHalfRead (.vf 3) (regBase .TIM_NOW)) (frond.set .TIM_NOW_NS 0x500000007))).hst.latch = none := by
  decide +kernel

def vf3 (f : Fn) : State := { frond with hst := { vfEnable := true, vfMse := true, fns := [(3, f)] } }
theorem test_reset_witness : (frond.fnOf 0).created = true ∧ kvHas frond.css.resets 0 = false ∧
    (let s : State := { frond with css := { resets := [(3, true)] } }
     kvHas s.css.resets 3 = true ∧ s.resetPending 3 = false ∧ s.hst.destroying ≠ some 3 ∧ s.hst.vfmReset ≠ some 3 ∧ 3 ∉ s.hst.flrs ∧
     s.subsOf 3 = []) ∧
    (let s := cssS (sub none .idle)
     let r : JRec := { sch := 0, token := 0, seq := 0, fn := 0, node := s.node, body := .reset (s.gen 0) (nextGen (s.gen 0)) }
     (dropFinals 0 (tellNodes 0 (nextGen (s.gen 0)) (advanceGen 0 (jnlAsk r [] s)))).subsOf 0 = [(5, sub none .idle)]) ∧
    (cssS (sub none .idle)).subsOf 0 = [(5, sub none .idle)] := by decide +kernel
theorem test_function_witness : frond.fullLink = true ∧ (vf3 { created := true }).hst.vfEnable = true ∧
    ((resetConfig 3 (vf3 { created := true })).fnOf 3).created = true ∧ ((resetConfig 3 (vf3 {})).fnOf 3).created = false ∧
    frond.hst.vfEnable = false := by decide +kernel
theorem test_manager_witness : (let s := ((vf3 {}).set .VFM_SEL_FUNCTION 3).setB .VFM_CFG_NCQ 3 2
     s.lit .pf .VFM_CMD ∧ s.on .VFM_CMD_BUSY = false ∧ s.vfmSel = 3 ∧ (s.fnOf 3).created = false ∧ s.getB .VFM_CFG_NCQ 3 = 2 ∧
     s.badWin 3 = false ∧ s.logTakes .pf = true) ∧
    (((vf3 {}).set .VFM_SEL_FUNCTION 3).setB .VFM_WIN_BASE 3 131071 |>.setB .VFM_WIN_UNITS 3 2).badWin 3 = true ∧
    (let s := (vf3 { created := true }).set .VFM_SEL_FUNCTION 3
     (s.fnOf 3).created = true ∧ s.eng.doms.any (fun q => q.2.owner == 3) = false ∧ s.logFits .pf (2 + (s.handlesOf 3).length) = true ∧
     kvHas s.css.resets 3 = false ∧ ∀ q ∈ s.subsOf 3, q.2.st = .idle) := by decide +kernel
theorem test_mailbox_witness : (let s := vf3 { created := true }
     s.onB .FN_MBX_CTL_BUSY 3 = false ∧ s.onB .VFM_MBX_CTL_BLOCK 3 = false ∧ s.onB .VFM_MBX_CTL_BUSY 3 = false) ∧
    ((vf3 { created := true }).setB .VFM_MBX_CTL_FULL 3 1).onB .VFM_MBX_CTL_FULL 3 = true ∧
    ((vf3 { created := true }).setB .FN_MBX_CTL_BUSY 3 1).onB .FN_MBX_CTL_BUSY 3 = true ∧ frond.lit .pf .VFM_DIRTY_CMD ∧ frond.lit .pf .VFM_MBX_CTL ∧ frond.vfmSel = 0 ∧
    frond.onB .VFM_DIRTY_CMD_BUSY 0 = false ∧ (frond.setB .VFM_DIRTY_CTL_ENABLE 0 1).onB .VFM_DIRTY_CTL_ENABLE 0 = true := by decide +kernel

def chunk (p : ChunkAt) : Chunk := { ordinal := 0, off := 0, data := [1, 2], len := 2, crc := 0, sel := 8, stages := {}, digLen := 0, place := p }
def chunkS (p : ChunkAt) : State := lane0 { running .ingest with chunks := [chunk p] }
theorem test_chunk_input_witness : (let s := lane0 { running .ingest with fifo := [{ src := piece, data := [1, 2, 3] }] }
     (s.streams 5).any (fun q => q.1.fifo == [{ src := piece, data := [1, 2, 3] }]) = true) ∧
    (let s := lane0 { running .ingest with open_ := [9] }
     (s.progAt 5).any (fun p => p.open_ != []) = true ∧ piece.sel.testBit 5 = false ∧ (s.streams 5).any (fun q => 1 < s.turnLeft 5 q.2 q.1) = true) ∧
    (2 * (running .ingest).hash + gear 7) % 2 ^ 64 &&& cutMask 0 = 0 ∧ (2 * (running .ingest).hash + gear 7) % 2 ^ 64 &&& cutMask 40 ≠ 0 := by
  decide +kernel
theorem test_probe_witness : (let s := (chunkS .cut).set .ENG_ONLINE_PROBE 0x3FF
     (s.inEngines 5).isSome = true ∧ s.codeUp = true ∧ s.get .ENG_ONLINE_PROBE ≠ 0 ∧ kvGet? s.eng.doms 0 = none ∧ s.idxValid = false ∧
     (locReady s).1 = true ∧ s.probeKey 0 = true ∧
     ((s.set .ENG_IDX_CTL_ENABLE 1).set .ENG_IDX_CTL_STATE 1).idxValid = true) := by decide +kernel
theorem test_pack_witness : (let s := (chunkS (.packing 2)).set .ENG_ONLINE_PACK 0xFF
     s.packUp 2 = true ∧ (s.inEngines 5).isSome = true ∧ s.packEngines.filter (· != 2) = [0, 1, 3, 4, 5, 6, 7]) := by decide +kernel
/-- A bucket that holds a fingerprint, and a pending entry that does. -/
theorem test_lookup_witness : bucketHit (zeros 32 ++ (List.replicate 24 9 ++ leBytes 8 77) ++ zeros 64) (List.replicate 24 9) frond = some 77 ∧
    bucketHit (zeros 128) (List.replicate 24 9) frond = none ∧
    (let s : State := { chunkS .cut with eng := { doms := [(4, { owner := 0, own := false, pfGrant := true, vfGrant := 0, key := [1] })],
                                                  pend := [{ sch := 5, dom := 4, fp := List.replicate 24 9, mac24 := 0, loc := 3, obj := 0, slot := 0 }] } }
     (indexLookup 5 4 (List.replicate 24 9) s).1 = some 3 ∧ (indexLookup 5 4 (List.replicate 24 8) s).1 = none ∧
     (kvGet? s.eng.doms 4).isSome = true) := by decide +kernel
/-- A chunk whose PACK output is kept and decodes to it, whatever the search of PACK does: one byte makes one RLE block. -/
theorem test_pack_output (l w : Nat) : packStream 0 l w [7] = [0x28, 0xB5, 0x2F, 0xFD, 0x20, 1, 0x0B, 0, 0, 7] := by
  have h : ∀ c : List Nat, ([7] : List Byte).length ≤ clamp 1 131072 (c.headD 131072) := by
    intro c; unfold clamp; simp only [List.length_singleton]; omega
  have h2 : ∀ c : List Nat, ([7] : List Byte).take (clamp 1 131072 (c.headD 131072)) = [7] := fun c => List.take_of_length_le (h c)
  simp only [packStream, if_pos, List.length_singleton, zstdBlocks, h2, zstdBlock]
  rw [if_pos (by decide), if_pos (by simpa using h _), show decide (1 ≤ clamp 1 131072 _) = true from by simpa using h _]
  decide
theorem test_pack_output_decodes : unpackStream 0 [0x28, 0xB5, 0x2F, 0xFD, 0x20, 1, 0x0B, 0, 0, 7] = some [7] := by decide +kernel
theorem test_keep_witness : let x := { chunk (.packing 2) with data := [7], len := 20, crc := crc32c [7] }
    let out := packStream x.stages.packFmt x.stages.packLevel x.stages.packWin x.data
    out.length ≤ x.len - x.len * frond.get .ENG_PACK_CTL_MIN_SAVE / 256 ∧
    (unpackStream x.stages.packFmt out).any (fun d => crc32c d == x.crc) = true := by
  intro x out
  have h : out = _ := test_pack_output x.stages.packLevel x.stages.packWin
  rw [h, show x.stages.packFmt = 0 from rfl, test_pack_output_decodes]
  decide +kernel
/-- SP 800-38D, AES-256 with a key, an IV and a text of zeros; FIPS 197, appendix C.3. -/
theorem test_gcm_vector : gcmOpen (zeros 32) (zeros 12) [] [0xCE, 0xA7, 0x40, 0x3D, 0x4D, 0x60, 0x6B, 0x6E, 0x07, 0x4E, 0xC5, 0xD3, 0xBA, 0xF3, 0x9D,
    0x18, 0xD0, 0xD1, 0xC8, 0xA7, 0x99, 0x99, 0x6B, 0xF0, 0x26, 0x5B, 0x98, 0xB5, 0xD4, 0x8A, 0xB9, 0x19] = some (zeros 16) := by decide +kernel
theorem test_aes_vector : aesEncrypt (aesRoundKeys ((List.range 32).map (BitVec.ofNat 8))) ((List.range 16).map (fun i => BitVec.ofNat 8 (i * 17))) =
    [0x8E, 0xA2, 0xB7, 0xCA, 0x51, 0x67, 0x45, 0xBF, 0xEA, 0xFC, 0x49, 0x90, 0x4B, 0x49, 0x60, 0x89] := by decide +kernel
theorem test_seal_witness : (let s := { chunkS .packed with eng := { slots := [0] } }
     (s.inEngines 5).any (fun p => p.nextToSeal == some (chunk .packed)) = true ∧ s.sealUp = true ∧ s.eng.slots.contains 0 = true ∧
     (chunk .packed).nonce = [] ∧ (giveLoc 5 (chunk .packed) s).1 = some 1 ∧ (takeInvoke (giveLoc 5 (chunk .packed) s).2).1 = some 1) := by
  decide +kernel
theorem test_spread_witness : (let s := chunkS .sealed
     ((skipHits 5 s).progAt 5).any (fun q => q.chunks[q.nextChunk]? == some (chunk .sealed) && q.stripe.isNone) = true ∧
     (skipHits 5 s).codeUp = true ∧ (skipHits 5 s).going 29 = false) := by decide +kernel
theorem test_open_stripe_witness :
    let y : Stripe := { id := 1, sch := 5, token := 0x10000, fn := 0, obj := 0, cursor := 0, set := { k := 4, m := 2, shift := 16, places := [] },
                        buf := 0, granules := 6 }
    let s : State := lane0 { running .ingest with stripe := some 1, chunks := [chunk .sealed] }
    let s : State := { s with css := { s.css with stripes := [(1, y)] } }
    ((skipHits 5 s).progAt 5).any (fun q => q.stripe.bind (kvGet? (skipHits 5 s).css.stripes) == some y) = true ∧ fits y 100 = true ∧
    fits y 300000 = false ∧ (giveLoc 5 (chunk .sealed) s).1 = some 1 ∧ (chunk .sealed).close = false ∧
    { chunk .sealed with sealed := true }.sealed = true ∧ y.set.m ≠ 0 ∧ y.digBad = false ∧
    ((s.progAt 5).bind (fun p => p.stripe.bind (kvGet? s.css.stripes))) = some y := by decide +kernel
def restore (p : ReadAt) : Restore :=
  { verify := false, todo := [{ loc := 1, off := 0, len := 2, stored := 2, flags := 0, crc := 0 }], from_ := 0, upTo := 2, place := p,
    chunk := some { loc := 1, off := 0, stored := 2, len := 2, flags := 0, fmt := 0 }, data := [1, 2] }
/-- A chunk as it stands sealed under a key of zeros, its header all zero. -/
def sealedText : List Byte := [207, 165, 252, 217, 33, 217, 133, 86, 98, 210, 243, 195, 26, 126, 208, 201, 30, 120]
theorem test_restore_witness : (let s := { progS (running (.restore (restore .decoded))) with eng := { slots := [0] } }
     (s.inEngines 5).any (fun p => (p.restore?).isSome) = true ∧ s.sealUp = true ∧ s.eng.slots.contains 0 = true ∧
     (restore .decoded).verify = false ∧
     gcmOpen ((touchSlot 0 s).dataKey 0) (bytesAt (zeros 32 ++ sealedText) 20 12) ((zeros 32 ++ sealedText).take 20 ++ leBytes 8 0)
       ((zeros 32 ++ sealedText).drop 32) = some [1, 2] ∧
     gcmOpen ((touchSlot 0 s).dataKey 0) (bytesAt (zeros 48) 20 12) ((zeros 48).take 20 ++ leBytes 8 0) ((zeros 48).drop 32) = none) ∧
    ((progS (running (.restore (restore .opened)))).set .ENG_ONLINE_PACK 0xFF).packEngines ≠ [] ∧ ({} : StageSet).verify = true ∧
    unpackStream 0 (restore .opened).data = none ∧ (restore .opened).chunk.any (fun x => !x.flags.testBit 2) = true ∧
    ((restore .opened).todo.find? (fun e => decide (e.off ≤ 0) && decide (0 < e.off + e.len))).isSome = true := by decide +kernel
def handle : Handle := { fn := 0, kek := 0, st := 1, seq := 0, blob := [] }
def keyS : State := { frond.set .TMB_STATUS_RUNNING 1 with tub := { handles := [(7, handle)] } }
theorem test_key_slot_witness : kvGet? keyS.tub.handles 7 = some handle ∧ handle.st = 1 ∧ keyS.on .TMB_STATUS_RUNNING = true ∧
    keyS.on .TMB_STATUS_RESTARTING = false ∧ keyS.sealUp = true ∧ keyS.get .DBG_STATUS_GRANTED = 0 ∧
    (∀ q ∈ keyS.css.subs, (q.2.prog.bind (·.run)).map (·.place) ≠ some (.keyLoad 7)) := by decide +kernel
theorem test_key_unwraps : (unwrapKey (zeros 32) [117, 65, 116, 174, 59, 52, 175, 147, 134, 149, 79, 211, 81, 102, 48, 232, 2, 213, 160, 213, 204,
    179, 47, 72]).isSome = true := by decide +kernel

def dom : Dom := { owner := 0, own := false, pfGrant := true, vfGrant := 0, key := [1] }
theorem test_tables_witness : (let s := frond.set .ENG_DOM_SEL_DOMAIN 4
     s.lit .pf .ENG_DOM_CMD ∧ s.on .ENG_DOM_CMD_BUSY = false ∧ s.domSel = 4 ∧ kvHas s.eng.doms 4 = false ∧ (s.domNew 4).own = false ∧
     s.logTakes .pf = true ∧ frond.domSel = 0 ∧ frond.get .DBG_STATUS_GRANTED = 0 ∧ (frond.set .DBG_STATUS_GRANTED 1).get .DBG_STATUS_GRANTED ≠ 0) ∧
    (let s : State := { frond with eng := { doms := [(4, dom)], domCmd := some (true, 4, dom) } }
     kvHas s.eng.doms 4 = true ∧ s.eng.domCmd = some (true, 4, dom)) ∧
    frond.lit (.fw 0 0 0 2) .ENG_IDX_CMD ∧ frond.logTakes (.fw 0 0 0 2) = true ∧ frond.on .ENG_IDX_CMD_BUSY = false ∧ (frond.set .ENG_IDX_CTL_ENABLE 1).on .ENG_IDX_CTL_ENABLE = true ∧
    kvFree frond.eng.purges 16 = some 0 ∧ 0 + 40 * 3 ≤ dramSize ∧
    (let s := (frond.set .ENG_IDX_CMD_BUSY 1).set .ENG_IDX_CTL_STATE 2
     s.on .ENG_IDX_CMD_BUSY = true ∧ s.get .ENG_IDX_CTL_STATE = 2) ∧
    ({ frond with eng := { idxCmd := some (0x1000, 3) } } : State).get .ENG_IDX_CTL_STATE ≠ 2 ∧
    (let s : State := { frond with eng := { purges := [(2, { lo := 0, hi := 9, scanned := false, waits := [] })] } }
     (kvGet? s.eng.purges 2).any (fun q => !q.scanned) = true ∧ s.get .ENG_IDX_CTL_STATE ≠ 1) ∧
    (let s := frond.set .ENG_IDX_PURGE_DONE 4
     s.lit (.fw 0 0 0 2) .ENG_IDX_PURGE ∧ ∀ i ∈ List.range 16, s.bitB .ENG_IDX_PURGE_DONE 0 i = (i == 2)) := by decide +kernel
theorem test_logs_and_directory_witness : isFw (.fw 0 0 0 1) = true ∧ frond.lit (.fw 0 0 0 1) .ENG_DLOG_CTL ∧
    frond.lit (.fw 0 0 0 1) .ENG_DREQ_CTL ∧ frond.lit (.fw 0 0 0 1) .ENG_DIR_CMD ∧ (frond.set .ENG_DREQ_CTL_HEAD 3).lookups = [] ∧
    (let s := (frond.set .ENG_DLOG_CTL_TAIL 30).set .ENG_DLOG_MARK_MARK 20
     s.get .ENG_DLOG_CTL_HEAD = 0 ∧ (20 + dlogSize - 0) % dlogSize = 20 ∧ s.get .ENG_DLOG_MARK_MARK = 20) ∧
    frond.dreqHeld = 0 ∧ frond.on .ENG_DIR_CMD_BUSY = false ∧ (frond.set .ENG_DIR_CMD_BUSY 1).on .ENG_DIR_CMD_BUSY = true ∧
    (let s : State := { frond with eng := { dirReqs := [{ kind := 2, id := 0, posted := true }] } }
     s.eng.dirReqs.any (fun r => r.kind == 2 && r.id == s.get .ENG_DIR_ARG_ID && r.posted) = true ∧ (dreqPost 2 0 s).1 = true) ∧
    (let rs := { restore .wantStripe with stripe := 0 }
     let s := { (progS (running (.restore rs))).set .ENG_DIR_CTL_STRIPE_UNITS 1 with eng := { dirReqs := [{ kind := 2, id := 0, posted := true }] } }
     s.dirWaiters 2 0 = [5] ∧ ((dirResult 0 s).progAt 5).any (fun p => p.restore?.isSome) = true ∧ s.dirSlots ≠ 0 ∧
     (let t := (devWrite (s.dirSlotAddr 0) [0x11] s).2
      match dirRead 2 0 t with | (.ok d, _) => fieldAt d 0 1 == 0x11 && fieldAt d 8 8 == 0 | _ => false) = true) ∧
    ({ frond with eng := { dirReqs := [{ kind := 2, id := 0, posted := false }] } } : State).eng.dirReqs.find? (fun r => !r.posted) =
      some { kind := 2, id := 0, posted := false } := by decide +kernel

/-! ## Custody, media, ring, remote programs, the pair -/

def closedEpoch (signed : Bool) : CusEpoch := { number := 1, header := [1], stripes := [], root := [2], signed := signed }
theorem test_custody_witness : frond.eng.cusClosed = none ∧ frond.eng.cus.length < clamp 1 2097152 (frond.get .ENG_CUS_STRIPES_LIMIT) ∧
    (let s : State := ({ frond with eng := { cusClosed := some (closedEpoch false) } } : State).set .TMB_STATUS_RUNNING 1
     s.on .TMB_STATUS_RUNNING = true ∧ s.on .TMB_STATUS_RESTARTING = false ∧ (closedEpoch false).signed = false) ∧
    ({ frond with eng := { cusClosed := some (closedEpoch true) } } : State).eng.cusClosed = some (closedEpoch true) ∧
    (∀ r ∈ List.range 4, frond.regionBusy r = false) ∧
    (let s : State := { frond with eng := { notices := [[1]] } }
     s.inD3 0 = false ∧ (s.get .ENG_CUS_MQ_CTL_TAIL + 1) % 2 ^ (min 8 (s.get .ENG_CUS_MQ_CTL_LOG2) + 4) ≠ 0) := by decide +kernel
def place (dev : Nat) : Place := { dev := dev, kind := 1, start := 0 }
def stripe7 : Stripe := { id := 7, sch := 5, token := 0x10000, fn := 0, obj := 0, cursor := 0, buf := 0, granules := 6, closed := true,
                          set := { k := 1, m := 1, shift := 16, places := [place 3, place 4] } }
/-- A disk of 1000 blocks, present behind the wide port of lanes 0 to 3, lane 2 up. -/
def diskS : State :=
  { (((((frond.setB .MPT_DEV_INFO_STATE 3 1).setB .MPT_DEV_INFO_TYPE 3 tyDisk).setB .MPT_DEV_CAP_BLOCKS 3 1000).setB .MPT_DEV_INFO_LBS
    3 0).setB .MPT_LANE_STATUS_UP 2 1) with mpt := { devs := [(3, { ports := [0] })] } }
def stripeS (blocks : Nat) : State := { diskS.setB .MPT_DEV_CAP_BLOCKS 3 blocks with css := { stripes := [(7, stripe7)] } }
theorem test_shard_witness : (stripe7.placeOf 0).kind = 1 ∧ (stripeS 1000).devRoom 3 = true ∧ stripe7.closed = true ∧ stripe7.discarded = false ∧
    (stripeS 1000).probing 7 0 = false ∧ 0 ∉ stripe7.issued ∧ stripe7.token ∉ ((stripeS 1000).devAt 3).pastEnd ∧
    0 + 0 + 2 ^ 16 / (stripeS 1000).blockSize 3 ≤ (stripeS 1000).getB .MPT_DEV_CAP_BLOCKS 3 ∧
    (stripeS 5).getB .MPT_DEV_CAP_BLOCKS 3 < 2 ^ 16 / (stripeS 5).blockSize 3 := by decide +kernel
def mcmd (u : CmdFor) : MediaCmd := { dev := 3, lane := 2, use := u, mutating := false, issuedAt := 0, fua := true }
def cmd (u : CmdFor) : State := { stripeS 1000 with mpt := { devs := [(3, { ports := [0] })], cmds := [(9, mcmd u)] } }
theorem test_completion_witness :
    (((cmd (.shardWrite 7 0)).findCmd (fun c => c.use == .shardWrite 7 0)).any (fun q => q.2.hold.isNone) = true) ∧
    (((cmd (.shardRead 5 1 7 0)).findCmd (fun c => match c.use with | .shardRead j _ x y => j == 5 && x == 7 && y == 0 | _ => false)).isSome = true) ∧
    (((cmd (.order 5 1)).findCmd (fun c => match c.use with | .order j _ => j == 5 | _ => false)).isSome = true) ∧
    (((cmd (.manifestSync 1)).findCmd (fun c => c.dev == 3 && (match c.use with | .sync _ | .manifestSync _ => true | _ => false))).isSome = true) ∧
    (((cmd (.filemark [])).findCmd (fun c => c.dev == 3 && (match c.use with | .filemark _ => true | _ => false))).isSome = true) ∧
    (((cmd (.scrub 0 1 0)).findCmd (fun c => c.dev == 3 && (match c.use with | .scrub .. => true | _ => false))).isSome = true) ∧
    (((cmd (.reserve .register)).findCmd (fun c => c.dev == 3 && c.use == .reserve .register)).isSome = true) ∧
    (((cmd (.probe 7 0)).findCmd (fun c => c.use == .probe 7 0)).isSome = true) ∧
    (((cmd .scrubProbe).findCmd (fun c => c.dev == 3 && c.use == .scrubProbe)).isSome = true) ∧
    (kvGet? (cmd (.order 5 1)).mpt.cmds 9).isSome = true := by decide +kernel
/-- A manifest's write without FUA, a shard's write with it, and what the commands' ends meet. -/
theorem test_durable_witness : (mcmd (.manifest 1)).flip = none ∧ (mcmd (.manifest 1)).use.forRegion 1 = true ∧
    { mcmd (.manifest 1) with fua := false }.fua = false ∧
    (let v := laneEnd 9 2 (dropCmd 9 (cmd (.manifest 1))); v.gateOpen = true ∧ v.reachable 3 = true) ∧
    (let v := laneEnd 9 2 (dropCmd 9 (cmd (.shardWrite 7 0))); kvGet? v.css.stripes 7 = some stripe7 ∧ v.gateOpen = true) ∧
    (let s : State := { cmd (.scrub 0 1 0) with mpt := { (cmd (.scrub 0 1 0)).mpt with held := [(2, [(9, .good false, [])])] } }
     kvGet s.mpt.held 2 [] = [(9, .good false, [])]) := by decide +kernel
theorem test_media_witness : (frond.setB .MPT_LANE_CTL_ENABLE 40 1).onB .MPT_LANE_CTL_ENABLE 40 = true ∧ frond.pdOn 32 = true ∧ frond.mpt.devs = [] ∧
    frond.lit .pf .MPT_DISC_CTL ∧ diskS.laneUp 2 = true ∧ frond.on .MPT_DISC_CTL_BUSY = false ∧
    frond.lit .pf .MPT_DEV_CMD ∧ diskS.devState 3 = devPresent ∧ (frond.setB .MPT_DEV_INFO_STATE 3 2).devState 3 = devAbsent ∧
    (∀ r ∈ List.range 4, frond.onB .ENG_CUS_MCFG_VALID r = false) ∧
    (let s := (((stripeS 1000).set .MPT_SCRUB_CTL_ENABLE 1).setB .MPT_DEV_CTL_SCRUB_EN 3 1)
     s.on .MPT_SCRUB_CTL_ENABLE = true ∧ s.onB .MPT_DEV_CTL_SCRUB_EN 3 = true ∧ s.devType 3 = tyDisk ∧ s.devState 3 = devPresent ∧
     (s.devAt 3).scrubbing = false ∧ s.reachable 3 = true ∧ s.devRoom 3 = true ∧ (s.devAt 3).scrubPos < s.getB .MPT_DEV_CAP_BLOCKS 3) ∧
    (stripeS 0).getB .MPT_DEV_CAP_BLOCKS 3 ≤ ((stripeS 0).devAt 3).scrubPos ∧
    (let s : State := { frond with mpt := { events := [zeros 32] } }
     (s.get .MPT_EVQ_CTL_TAIL + 1) % s.evqSize ≠ s.get .MPT_EVQ_CTL_HEAD % s.evqSize ∧ (devWrite (s.addrB .MPT_EVQ_BASE_BASE 0) (zeros 32) s).1 = true) := by
  decide +kernel
def found (depth : Nat) : FoundDevice :=
  { name := 77, kind := tyDisk, lanes := [2], depth := depth, expander := 5, phy := 1, dual := false, lbs := 0, blocks := 1000, tapeReady := false,
    tapeMinRecord := 0, tapeMaxRecord := 0, tapeGranularity := 0 }
/-- Behind an expander a device is found through a wide port; directly attached, or behind more than four, through none here (R234, R235). -/
theorem test_ports_of_a_device : diskS.portsOf (found 1) = [0] ∧ diskS.portsOf (found 4) = [0] ∧ diskS.portsOf (found 5) = [] ∧ diskS.portsOf (found 0) = [] ∧
    { diskS with mpt := { narrow := 1 } }.portsOf (found 0) = [18] := by decide +kernel
theorem test_discovery_witness : (let s := (frond.set .MPT_DISC_CTL_BUSY 1).setB .MPT_LANE_STATUS_UP 2 1
    let t := foundDevice (found 1) ((s.set .MPT_DISC_CTL_BUSY 0).set .MPT_DISC_CTL_OVERFLOW 0)
    s.on .MPT_DISC_CTL_BUSY = true ∧ (s.portsOf (found 1)).isEmpty = false ∧ t.devState 0 = devPresent ∧ t.getB .MPT_DEV_NAME_NAME 0 = 77 ∧
    (List.range' 1 1023).all (fun x => t.devState x != devPresent && t.devState x != devFailed) = true) := by
  decide +kernel

def frame (src dst seq : Nat) : Frame :=
  { dst := dst, src := src, cls := clsControl, seq := seq, claim := 2, pairId := 9, session := 4, kind := 1, payload := [] }
/-- The module inserted in the ring as node 2, every port on. -/
def ringS (r : RingState) : State := { (frond.set .RNG_STATUS_NODE 2).set .RNG_STATUS_STATE 3 with ring := { r with bypass := false } }
theorem test_receive_witness :
    (let s := ringS { sessions := [(3, 4)], rx := [(flowKey clsControl 3, { cum := 6 })] }
     s.ring.bypass = false ∧ s.pdOn 34 = true ∧ s.pdOn 35 = true ∧ frameBad (frame 3 2 7) = false ∧ (frame 3 2 7).src ≠ s.node ∧
     (frame 3 2 7).dst = s.node ∧ (frame 3 5 7).dst ≠ s.node ∧ s.wrapped 0 = false ∧ (frame 3 2 7).session = kvGet s.ring.sessions 3 0 ∧
     claimLow (frame 3 2 7) s = false ∧ claimLow (frame 3 2 7) ((s.setB .RNG_CLAIM_VALID 9 1).setB .RNG_CLAIM_CLAIM 9 3) = true ∧
     (frame 3 2 7).seq = ((kvGet s.ring.rx (flowKey clsControl 3) {}).cum + 1) % 2 ^ 32 ∧ kvGet s.ring.sessions 8 5 = 5 ∧
     (frame 3 2 7).broadcast = false ∧ (frame 3 2 7).cls ≠ clsLink ∧ (kvGet s.ring.rx (flowKey clsControl 3) {}).held = [] ∧
     ((frame 3 2 70).seq + 2 ^ 32 - 6) % 2 ^ 32 = 64 ∧ ((frame 3 2 71).seq + 2 ^ 32 - 6) % 2 ^ 32 = 65 ∧ ((frame 3 2 6).seq + 2 ^ 32 - 6) % 2 ^ 32 = 0 ∧
     { frame 3 2 7 with session := 3 }.session < kvGet s.ring.sessions 3 0) := by decide +kernel
def txMsg : TxMsg := { frame := frame 2 3 11, gen := 0, tries := 0, token := 0 }
theorem test_flow_witness : (let s := ringS { tx := [(flowKey clsControl 3, { unacked := [txMsg] })], credit := [(1, 9), (5, 9)] }
    (s.get .RNG_STATUS_STATE = 3) ∧ kvGet s.ring.credit (s.route 3 * 4 + clsControl) 0 ≠ 0 ∧
    (kvGet s.ring.tx (flowKey clsControl 3) {}).unacked.filter (fun m => m.frame.seq == 11) = [txMsg] ∧
    (kvGet s.ring.tx (flowKey clsControl 3) {}).unacked.find? (fun m => m.frame.seq == 11) = some txMsg) ∧ txMsg.tries < 3 ∧
    3 ≤ { txMsg with tries := 3 }.tries := by decide +kernel
theorem test_list_witness : (let s := (ringS {}).setBitB .RNG_NODES_PRESENT 0 5 true
    s.present 5 = true ∧ 5 ≠ s.node ∧ s.get .RNG_STATUS_STATE ≠ 5 ∧ 7 ≠ s.get .CLM_PAIR_PAIR_ID ∧ s.onB .RNG_CLAIM_VALID 7 = false ∧
    s.ring.leaving = false ∧ (s.setB .RNG_CLAIM_VALID 7 1).onB .RNG_CLAIM_VALID 7 = true) := by decide +kernel
theorem test_port_witness : (let s := ringS { transit := [(1, [(frame 3 5 7, 0)])], credit := [(5, 9)], sessions := [(2, 4)] }
     s.wrapped 1 = false ∧ s.wrapped 0 = false ∧ s.nextFrame 1 (·.1) (kvGet s.ring.transit 1 []) = some ((frame 3 5 7, 0), []) ∧
     s.nextFrame 1 id (s.ownReady 1) = none ∧ kvHas s.ring.lost 1 = false ∧ kvGet s.ring.since 1 0 < 4) ∧
    (let s := ringS { own := [(1, [frame 2 5 7])], credit := [(5, 9)] }
     s.nextFrame 1 id (s.ownReady 1) = some (frame 2 5 7, []) ∧ s.nextFrame 1 (·.1) (kvGet s.ring.transit 1 []) = none) ∧
    (let s := ringS { lost := [(1, 100)] }
     kvHas s.ring.lost 1 = true ∧ ((setWrap 1 true (spanSettled 1 s)).bumpB .RNG_WRAPS_COUNT 1 1).wrapped 0 = false) ∧
    ((ringS {}).set .RNG_STATUS_WRAP_W 1).wrapped 0 = true ∧ (frond.set .RNG_STATUS_STATE 1).get .RNG_STATUS_STATE = 1 ∧
    (ringS { announced := true }).ring.announced = true ∧ (ringS { leaving := true }).ring.leaving = true ∧
    (let s := frond.set .RNG_CTL_INSERT 1
     s.lit .pf .RNG_CTL ∧ s.logTakes .pf = true ∧ s.get .RNG_CTL_INSERT = 1) ∧ (frond.setB .RNG_INJ_KIND 3 3).getB .RNG_INJ_KIND 3 = 3 := by
  decide +kernel

def hdr : RemoteHdr := { src := 3, token := 0x10000, fn := 0, sch := 5, gen := 1, addr := 0x1000, len := 64, req := 1 }
def execS (b : Sub) : State := { frond with css := { subs := [(execKey 3 5, b)] } }
/-- A program of node 3 that asks for its first order, one that asks for a block of two parts, one that waits for an answer. -/
def fetching : Prog := { prog [] with fetched := [], fetchAt := some 0x1000 }
def asking : Prog := { prog (order opGather 0 0 64 0x2000 0 0) with blockAsks := [10000] }
theorem test_remote_witness : frond.mode = Mode.frond ∧ frond.progAt (execKey 3 5) = none ∧
    (let s := execS (sub (some (prog [])) .active)
     (s.progAt (execKey 3 5)).any (fun p => p.token == hdr.token) = true ∧ (s.subAt (execKey 3 5)).st ≠ .statusPending ∧
     isExec (execKey 3 5) = true ∧ execNode (execKey 3 5) = 3 ∧ (prog []).ending = none ∧ (prog []).token ≠ { hdr with token := 9 }.token) ∧
    (execS (sub (some fetching) .active)).progAt (execKey 3 5) = some fetching ∧ fetching.fetchAt = some hdr.addr ∧ (prog []).fetchAt ≠ some hdr.addr ∧
    asking.blockGot.length + 1 < divUp 10000 9152 ∧ divUp 10000 9152 ≤ { asking with blockGot := [.ok []] }.blockGot.length + 1 ∧
    (parseOrd (order opGather 0 0 64 0x2000 0 0)).op = opGather ∧
    (let s := execS (sub (some { prog [] with askFirst := true }) .redrive)
     (s.subAt (execKey 3 5)).st = .redrive ∧ (s.progAt (execKey 3 5)).any (·.askFirst) = true) ∧
    (let p := running (.wait 2 500)
     ((execS (sub (some p) .waiting)).subAt (execKey 3 5)).st = .waiting ∧ (p.run).any (fun r => r.place == .wait 2 500) = true) ∧
    (let s := cssS { sub (some (prog [])) .active with remote := true, node := 3 }
     s.attachedOf hdr = some 5 ∧ s.inD3 0 = false ∧ (s.progAt 5).map (·.ending) = some none ∧ s.oldGen { hdr with gen := s.gen 0 } = false ∧
     s.oldGen { hdr with gen := s.gen 0 + 1 } = true ∧ (s.subAt 5).st = .active) ∧ frond.attachedOf hdr = none ∧
    (∀ st ∈ [1, 2, 0], (parseWord (leBytes 2 5 ++ leBytes 1 st ++ zeros 61)).flags = st) ∧ frond.css.subs = [] ∧
    (let s := execS (sub (some (prog [])) .active)
     s.css.subs = [(execKey 3 5, sub (some (prog [])) .active)] ∧ (prog []).token % 65536 ≠ 7) ∧
    frond.get .CLM_STATUS_ROLE ≠ 2 ∧ (frond.set .CLM_STATUS_ROLE 2).get .CLM_STATUS_ROLE = 2 := by decide +kernel

/-- A member of pair 9 in STANDBY, in step. -/
def standbyS : State :=
  ((((frond.set .CLM_PAIR_PAIRED 1).set .CLM_PAIR_PAIR_ID 9).set .MOD_STATE_MODE Mode.standby).set .CLM_STATUS_ROLE 2).set .CLM_STATUS_SYNC 2
def beat (flags : Nat) : List Byte :=
  let b := leBytes 4 5 ++ leBytes 1 4 ++ leBytes 1 flags ++ leBytes 1 9
  b ++ leBytes 1 (crc8 b)
theorem test_heartbeat_witness : standbyS.on .CLM_PAIR_PAIRED = true ∧ standbyS.mode = Mode.standby ∧ (beat 1).length = 8 ∧
    crc8 ((beat 1).take 7) = fieldAt (beat 1) 7 1 ∧ fieldAt (beat 1) 6 1 = standbyS.get .CLM_PAIR_PAIR_ID % 256 ∧ standbyS.canTake = true ∧
    (let s : State := { standbyS with pair := { hbAt := some 0 } }
     s.pair.hbAt ≠ none ∧ s.on .CLM_STATUS_HB_LOST = false) ∧
    (let s : State := { standbyS.set .CLM_STATUS_HB_LOST 1 with pair := { lostAt := some 0 } }
     s.canTake = true ∧ s.on .CLM_STATUS_HB_LOST = true ∧ s.peerMode = none ∧ s.now ≤ 5000000) := by decide +kernel
theorem test_takeover_witness : (let s : State := { standbyS with pair := { taking := true } }
     s.pair.taking = true ∧ s.mode = Mode.standby ∧ s.worldsOut = true ∧ s.mpt.cmds = [] ∧ s.mpt.waiting = [] ∧ s.journalReadable = true ∧
     max (s.get .CLM_CLAIM_CLAIM) (s.get .CLM_PEER_CLAIM_CLAIM) + 3 < 2 ^ 32) ∧
    (let s := diskS.set .CLM_STATUS_HOLD 1
     (({ s with jnl := { slots := [(0, ⟨.bad, .bad⟩)] } } : State).set .JNL_TAIL_COUNT 1).journalReadable = false ∧ s.on .CLM_STATUS_HOLD = true ∧ s.devState 3 = devPresent ∧ s.isSsp 3 = true) := by decide +kernel
theorem test_pair_command_witness : standbyS.lit .pf .CLM_CMD ∧ standbyS.on .CLM_CMD_BUSY = false ∧ frond.on .CLM_PAIR_PAIRED = false ∧
    standbyS.get .CLM_STATUS_ROLE = 2 ∧ standbyS.get .CLM_STATUS_SYNC = 2 ∧ standbyS.logTakes .pf = true ∧ standbyS.pair.taking = false ∧
    (standbyS.set .CLM_STATUS_WAIT_PEER 1).on .CLM_STATUS_WAIT_PEER = true ∧
    (let s := (standbyS.set .CLM_STATUS_ROLE 1).set .MOD_STATE_MODE Mode.frond
     s.pairedActive = true ∧ s.hbValid = false ∧ s.get .CLM_STATUS_ROLE = 1) ∧
    (standbyS.set .CLM_STATUS_SYNC 1).get .CLM_STATUS_SYNC = 1 ∧ standbyS.lit .pf .CLM_SWITCHBACK ∧ standbyS.on .CLM_SWITCHBACK_BUSY = false := by
  decide +kernel

/-! ## Tuber, the change log, modes, power and time -/

/-- Tuber runs, its mailbox window is the low 1 GiB. -/
def tubS (mode : Nat) : State :=
  (((((frond.set .MOD_STATE_MODE mode).set .TMB_STATUS_RUNNING 1).set .TMB_STATUS_DRBG_OK 1).set .TMB_DMA_LIMIT_ADDR (2 ^ 20)).setB
    .HST_STATUS_DARK 0 0)
/-- A request of the mailbox ring, and Tuber with it at the front: 64 KiB of buffer at 0x10000. -/
def request (code : Nat) (args : List Byte) : List Byte :=
  leBytes 2 code ++ zeros 2 ++ leBytes 4 77 ++ leBytes 8 0x10000 ++ leBytes 4 0x10000 ++ zeros 4 ++ padTo 32 args ++ zeros 8
def reqS (mode code : Nat) (args : List Byte) : State :=
  { (tubS mode).set .TMB_REQ_CTL_PROD 1 with mem := { dram := cellPut [] 0 (request code args) } }
theorem test_request_witness : (∀ code ∈ [0x01, 0x02, 0x03, 0x10, 0x11, 0x12, 0x13, 0x20, 0x21, 0x22, 0x23],
      (frontRequest (reqS Mode.frond code [3])).1 = some (request code [3]) ∧ (parseReq (request code [3])).code = code) ∧
    (let q := parseReq (request 0x12 [3]); q.tag = 77 ∧ fieldAt q.args 0 8 = 3 ∧ 16864 ≤ q.len ∧ (tubS Mode.frond).inTmbWindow q.buf 16864 = true) ∧
    (frontRequest (tubS Mode.frond)).1 = none ∧ (reqS Mode.frond 0x12 [3]).pdOn 1 = true := by decide +kernel
def image (svn : Nat) : RunImage := { svn := svn, version := 1, slot := 0, measurement := [] }
theorem test_service_mode_witness : (tubS Mode.frond).pdOn 1 = true ∧ (tubS Mode.frond).on .TMB_STATUS_RESTARTING = false ∧
    (tubS Mode.frond).on .TMB_STATUS_RUNNING = true ∧ (tubS Mode.frond).inTmbWindow 0 16864 = true ∧
    ((tubS Mode.frond).set .TMB_STATUS_RESTARTING 1).on .TMB_STATUS_RESTARTING = true ∧
    (frond.set .PWR_STATE_ON 0).pdOn 1 = false ∧ ((tubS Mode.frond).set .TMB_STATUS_DRBG_OK 0).on .TMB_STATUS_DRBG_OK = false ∧
    (tubS Mode.standby).mode ≠ Mode.maintenance ∧ (tubS Mode.standby).mode ≠ Mode.frond ∧ (tubS Mode.frond).logTakes .tuber = true ∧
    ((tubS Mode.frond).set .LOG_CKPT_EXPORTED_MADE 512).logTakes .tuber = false := by decide +kernel
def wrapped16 : List Byte := [117, 65, 116, 174, 59, 52, 175, 147, 134, 149, 79, 211, 81, 102, 48, 232, 2, 213, 160, 213, 204, 179, 47, 72]
theorem test_key_service_witness :
    (let s : State := { tubS Mode.frond with tub := { keks := [(0, zeros 32)], handles := [(7, { fn := 0, kek := 0, st := 1, seq := 0, blob := [] })], fw := some (image 5), main := some (image 6) } }
     s.badKeyArgs 70 0 = true ∧ s.badKeyArgs 0 0 = false ∧ s.handleCount < 65536 ∧ kvGet? s.tub.handles 8 = none ∧
     (kvGet? s.tub.handles 7).any (fun x => x.st == 1) = true ∧ s.tub.fw = some (image 5) ∧ s.tub.main = some (image 6) ∧
     (tmbRead 0 48 s).1.isSome = true ∧ s.kek? 0 ≠ none ∧ (∃ p ∈ s.tub.handles, p.2.kek = 0 ∧ (p.2.st = 1 ∨ p.2.st = 2))) ∧
    wrapped16.length = 24 := by decide +kernel
theorem test_maintenance_service_witness : (let s := tubS Mode.maintenance
    s.mode = Mode.maintenance ∧ s.kek? 1 = none ∧ (tmbRead 0 32 s).1.isSome = true ∧ (tmbRead 0 560 s).1.isSome = true ∧
    andNot 3 (setBit 0 0) ≠ 0 ∧ andNot 1 (setBit 0 0) = 0) := by decide +kernel
/-- A part whose DEBUG_KILL was blown since the start still unlocks; one started after it does not (R4, R556). -/
theorem test_debug_witness : (let s : State := { (tubS Mode.maintenance).set .DBG_CTL_LEVEL 1 with tub := { killFresh := true } }
    s.dbgKilled = false ∧ s.mode = Mode.maintenance ∧ s.on .TMB_STATUS_RUNNING = true ∧ s.on .TMB_STATUS_DRBG_OK = true ∧
    s.get .DBG_STATUS_FAILS < 3 ∧ s.get .DBG_CTL_LEVEL = 1 ∧ (s.set .DBG_STATUS_CHAL_VALID 1).on .DBG_STATUS_CHAL_VALID = true ∧
    s.logTakes .debug = true) := by decide +kernel
theorem test_killed_witness : (frond.set .FUS_STATE_DEBUG_KILL 1).dbgKilled = true := by
  have h : (frond.set .FUS_STATE_DEBUG_KILL 1).on .FUS_STATE_DEBUG_KILL = true := by
    show ((frond.set .FUS_STATE_DEBUG_KILL 1).get .FUS_STATE_DEBUG_KILL == 1) = true
    rw [get_set_same]; decide
  unfold State.dbgKilled; rw [h]; decide +kernel
/-- An image that the NAND does not read back, and one that is none, fail the check. -/
theorem test_image_verdicts : frond.bankVerdict 0 1 false = 1 ∧ frond.imageSound 1 [] = false ∧ setImages [] = ([], []) := by decide +kernel
def entry : LogEntry := { time := 0, epoch := 0, seq := 1, origin := 0, kind := 1, target := 0, old := 0, new := 0, chain := [] }
theorem test_export_witness : (let s := ((({ frond with log := { entries := [(0, entry)] } } : State).set .LOG_XQ_CTL_ENABLE 1).set .LOG_SEQ_SEQ 1)
     s.on .LOG_XQ_CTL_ENABLE = true ∧ s.log.exportNext = 1 ∧ 1 ≤ s.get .LOG_SEQ_SEQ ∧ 1 ≤ s.get .LOG_EXPORTED_SEQ + s.exportSize ∧
     kvGet? s.log.entries ((1 - 1) % logCapacity) = some entry) ∧ frond.lit .pf .LOG_XQ_CTL ∧ frond.on .LOG_XQ_CTL_ENABLE = false ∧
    frond.get .LOG_EXPORTED_SEQ < 1 ∧ frond.get .LOG_CKPT_EXPORTED_COUNT < 1 := by decide +kernel
/-- A checkpoint over one entry that the log does not hold, and over one whose chain is what its bytes give. -/
theorem test_checkpoint_witness : (let s := (tubS Mode.frond).set .LOG_SEQ_SEQ 1
     s.log.closing = none ∧ s.get .LOG_CKPT_EXPORTED_MADE - s.get .LOG_CKPT_EXPORTED_COUNT < 512 ∧ s.get .LOG_CKPT_SEQ_SEQ + 1 ≤ s.get .LOG_SEQ_SEQ ∧
     ¬ 2 ^ clamp 10 20 (s.get .LOG_CTL_CKPT_LOG2) ≤ 1) ∧
    ({ frond with log := { closing := some { first := 1, last := 1, header := [], signed := false } } } : State).log.closing.isSome = true := by
  decide +kernel
/-- The chain of an entry as written holds, from the first on; with one bit of it changed it does not (R551, R554). -/
theorem test_chain_holds : (let s := logHw 5 9 0 1 (tubS Mode.frond); s.chainLook 1 1 = none) := by decide +kernel
theorem test_chain_breaks : (let s := logHw 5 9 0 1 (tubS Mode.frond)
     let s := s.withLog (fun l => { l with entries := l.entries.map (fun q => (q.1, { q.2 with new := 2 })) })
     s.chainLook 1 1 = some 1) := by
  decide +kernel

/-- FIDDLEHEAD with the steps in `m` passed. -/
def startS (m : Nat) : State := (frond.set .MOD_STATE_MODE Mode.fiddlehead).set .MOD_STATE_STEPS m
theorem test_mode_command_witness : frond.lit .pf .MOD_CMD ∧ frond.on .MOD_CMD_BUSY = false ∧ frond.mayRestart false = true ∧
    (frond.set .MOD_STATE_MODE Mode.crust).mayRestart false = false ∧ frond.mayDormant = true ∧
    (frond.set .MOD_STATE_MODE Mode.dormant).mode = Mode.dormant ∧ (tubS Mode.crust).tuberRuns = true ∧ frond.tuberRuns = false ∧
    (frond.set .MOD_STATE_PENDING Mode.maintenance).get .MOD_STATE_PENDING = Mode.maintenance ∧ frond.logTakes .pf = true ∧
    (frond.set .CLM_PAIR_PAIRED 1).mode = Mode.frond ∧ (tubS Mode.crust).lit .pf .MOD_CMD := by decide +kernel
theorem test_start_witness : (startS 0).mode = Mode.fiddlehead ∧ (startS 0).passed 0 = false ∧ (startS 1).passed 1 = false ∧
    (startS 0).marked = [] ∧ ((startS 0).set .MEM_STRIPE_STATUS_FAILED 5).marked.length = 2 ∧ (startS 3).passed 2 = false ∧
    (startS 7).passed 3 = false ∧ (startS 3).passed 0 = true ∧ (startS 3).passed 1 = true ∧ (startS 3).passed 4 = false ∧
    clamp 1 16 ((startS 0).get .POD_CFG_MIN_PODS) ≤ (startS 0).usablePods ∧
    ((startS 0).set .POD_PHYS_STATE 0xAAAAAAAA).usablePods < clamp 1 16 ((startS 0).get .POD_CFG_MIN_PODS) ∧
    (startS 31).journalReadable = true ∧ (startS 7).testFailed = none ∧ (startS 7).get .RNG_STATUS_STATE ≠ 1 ∧ (startS 7).get .RNG_STATUS_STATE ≠ 2 ∧
    ((startS 7).set .RNG_STATUS_TEST_FAIL 1).testFailed = some 0 ∧ (startS 1).bitB .MEM_STRIPE_STATUS_FAILED 0 5 = false ∧
    ((({ startS 31 with jnl := { slots := [(0, ⟨.bad, .bad⟩)] } } : State).set .JNL_TAIL_COUNT 1).journalReadable = false) ∧ (startS 31).passed 5 = false := by decide +kernel
theorem test_spore_witness : State.reset.mode = Mode.spore ∧ State.reset.mod_.sporeReady = false ∧ State.reset.mod_.retryWait = false ∧
    ({ State.reset with mod_ := { retryWait := true, sporeReady := true } } : State).mod_.retryWait = true ∧
    State.reset.get .MOD_START_COUNT_COUNT < 3 ∧ (State.reset.set .MOD_START_COUNT_COUNT 3).get .MOD_START_COUNT_COUNT = 3 ∧
    ({ State.reset with mod_ := { off := true } } : State).mode = Mode.off := by decide +kernel
theorem test_wake_witness : (let s : State := { frond.set .MOD_STATE_MODE Mode.dormant with mod_ := { waking := true } }
    s.mode = Mode.dormant ∧ s.mod_.waking = true) := by decide +kernel
/-- The fused words are free at reset; these states have them at a value. -/
theorem test_fused_witness : (frond.set .FUS_ROLLBACK_FUSED 2).get .FUS_ROLLBACK_FUSED = 2 ∧
    ((frond.set .FUS_STATE_SLOT_PROG 1).get .FUS_STATE_SLOT_PROG).testBit 1 = false := by
  rw [get_set_same, get_set_same]; decide
theorem test_power_witness : frond.lit .pf .PWR_REQ ∧ frond.logTakes .pf = true ∧ frond.sharesDeferral 26 = false ∧ frond.powerBusy = false ∧ frond.powerRule 26 2 = 0 ∧
    frond.powerRule 1 2 = 1 ∧ frond.powerRule 20 2 = 3 ∧ (frond.set .PWR_RESULT_BUSY 1).powerBusy = true ∧
    frond.bitB .PWR_HOLD_HELD 0 26 = false ∧ (frond.set .PWR_HOLD_HELD (2 ^ 28)).bitB .PWR_HOLD_HELD 0 28 = true ∧ frond.lit .pf .PWR_FORCE ∧ frond.lit (.fw 0 0 0 2) .PWR_FORCE ∧
    (let s : State := { frond with mod_ := { pwr := some { domain := 28, op := 2 } } }; s.forcedRequest = (28, 2) ∧ s.powerRule 28 2 = 0) ∧
    frond.holdsBlock 26 = false ∧ (chunkS (.packing 2)).holdsBlock 26 = true ∧
    ({ frond with mod_ := { pwr := some { domain := 28, op := 2 } } } : State).sharesDeferral 28 = true ∧
    kvGet? ({ frond with mod_ := { pwrRun := [(26, 2)] } } : State).mod_.pwrRun 26 = some 2 := by decide +kernel
theorem test_thermal_and_time_witness : frond.lit .pf .PWR_POD_MHZ ∧ (frond.set .PWR_TEMP_THROTTLE 1).on .PWR_TEMP_THROTTLE = true ∧ frond.getB .PWR_POD_MHZ_NOW 15 = 0 ∧ signed16 801 = 801 ∧
    signed16 0xFFF8 = -8 ∧ frond.on .PWR_TEMP_THROTTLE = false ∧ (frond.set .PWR_REFRESH_RUNNING 1).on .PWR_REFRESH_RUNNING = true ∧
    ({ State.reset with mod_ := { off := true } } : State).mod_.supplyLost = false ∧ frond.on .MOD_MCTP_DISABLE = false := by decide +kernel
theorem test_utc_only_from_the_pf : (after (exec (.timEpochWrite .smbus 5) frond)).get .TIM_EPOCH_VALID = 0 ∧
    (after (exec (.timEpochWrite .pf 5) frond)).get .TIM_EPOCH_VALID = 1 := by decide +kernel

/-! ## The block -/

theorem test_step_takes_the_front : step { frond with pending := [.contextAgeTick] } = exec .contextAgeTick { frond with pending := [] } := rfl
theorem test_idle_ticks : (after (step frond)).get .TIM_NOW_NS = frond.get .TIM_NOW_NS + 1 := by decide +kernel
theorem test_safe_witness : State.reset.safe = true ∧ inDram (.memRead .core (2 ^ 31) []) = false ∧ inDram (.memWrite .core 0 [1]) = true := by decide +kernel
theorem test_invariant_witness : State.reset.holdsAgree := by unfold State.holdsAgree; decide +kernel
theorem test_quiet_witness : frond.flt.todo = [] ∧ frond.mode = Mode.frond ∧ frond.get .MOD_STATE_PENDING = 0 ∧
    frond.get .CLM_STATUS_ROLE ≠ 3 ∧ frond.ring.dormantHeld = [] ∧ frond.pair.yielding = false ∧ frond.mirroring = false ∧
    frond.mpt.waiting = [] ∧ frond.mpt.cmds = [] ∧ frond.mpt.lanes = [] ∧ frond.eng.cusClosed = none ∧ frond.css.subs = [] ∧ frond.css.stripes = [] ∧
    frond.mem.reqs = [] ∧ frond.mem.postponed = [] ∧ frond.on .ENG_EPB_CTL_OPEN = false := by decide +kernel
theorem test_no_word_spells_a_command : decodeTableWord 16 0 = none ∧ frond.withFetchWord 16 0 = frond := ⟨rfl, rfl⟩

end Sys2Proof.Tests
end

section
/-!
An Octip instruction whose guard is false (R320): its issue comes to a plain retirement before the fixed fields or its own work
are looked at, and on either kind of core that is the state `retired` or `tuberRetired` with the registers unchanged.
-/

namespace Sys2Proof.Machine

/-- Once its prefix sequence is allowed, an instruction whose guard is false does neither its field checks nor its work. -/
theorem issue_of_guard_false (c : OctCtx) (k : OctCore) (body : OctCore → State → Eff) (s : State)
    (hprefix : c.prefixOk = true) (hguard : guardOf c k = false) : issue c k body s = .ok id s := by
  simp [issue, hprefix, hguard]

/-- A main core that runs, waits for nothing and fetches every parcel carries out what the instruction issues. -/
theorem octipOn_main_of_fetched (c : OctCtx) (k : OctCore) (s : State) (body tuber : OctCore → State → Eff)
    (hpod : c.pod ≠ 16) (hcore : kvGet? s.cores (coreKey c) = some k) (hrun : k.run = .running) (hwait : k.wait = none)
    (hfetch : fetchFault s k c.parcels = none) :
    octipOn c body tuber s = finish (coreKey c) k.pc (BitVec.ofNat 64 (2 * c.parcels)) (issue c k body s) := by
  rw [octipOn, if_neg hpod]
  simp [octipMain, hcore, hrun, hwait, hfetch]

/-- Tuber's core, when it fetches every parcel, carries out what the instruction issues. -/
theorem octipOn_tuber_of_fetched (c : OctCtx) (k : OctCore) (s : State) (body tuber : OctCore → State → Eff)
    (hpod : c.pod = 16) (hzero : c.core = 0) (hcore : s.tub.core = some k) (hfetch : tuberFetchFault k c.parcels = none) :
    octipOn c body tuber s = finishTuber k.pc (BitVec.ofNat 64 (2 * c.parcels)) (issue c k tuber s) := by
  rw [octipOn, if_pos hpod]
  simp [octipTuber, hcore, hzero, hfetch]

/-- Retiring a main core's instruction without a change of registers. -/
theorem finish_ok_id (c : OctCtx) (k : OctCore) (s : State) (hcore : kvGet? s.cores (coreKey c) = some k) :
    finish (coreKey c) k.pc (BitVec.ofNat 64 (2 * c.parcels)) (.ok id s) = retired c k k s := by
  simp [finish, State.modCore, kvMod, hcore, retireTo, retired, retiredAt, nextPc]

/-- Retiring an instruction of Tuber's core without a change of registers. -/
theorem finishTuber_ok_id (c : OctCtx) (k : OctCore) (s : State) (hcore : s.tub.core = some k) :
    finishTuber k.pc (BitVec.ofNat 64 (2 * c.parcels)) (.ok id s) = tuberRetired c k k s := by
  simp [finishTuber, State.modTuber, hcore, retireTo, tuberRetired, nextPc]

/-- Whatever `octipOn` answers for every instruction's work on one core, each Octip instruction completes with it. -/
theorem exec_of_octipOn_eq (i : Instr) (c : OctCtx) (s t : State) (hctx : octipCtx i = some c)
    (h : ∀ body tuber, octipOn c body tuber s = t) : exec i s = .next t ∨ exec i s = .next (settle t) := by
  obtain ⟨body, tuber, hexec⟩ := octip_exec i c hctx s
  rwa [h body tuber] at hexec

/-- A guard reads its predicate, complemented when the instruction asks for it. -/
theorem guardOf_eq_ite (c : OctCtx) (k : OctCore) : guardOf c k = if c.gN then !(k.pr c.gP) else k.pr c.gP := by
  cases hN : c.gN <;> simp [guardOf, hN]

end Sys2Proof.Machine

open Sys2Proof.Machine

/-- Settles O21: the guard is judged before the fields and the work, so whichever Octip instruction it is, `issue` comes to a
plain retirement on both kinds of core. -/
theorem falseGuardIsANoOp : Obligations.FalseGuardIsANoOp := by
  refine ⟨?main, ?tuber, guardOf_eq_ite⟩
  case main =>
    intro i c k s hctx hpod hcore hrun hwait hfetch hprefix hguard
    refine exec_of_octipOn_eq i c s _ hctx fun body tuber => ?_
    rw [octipOn_main_of_fetched c k s body tuber hpod hcore hrun hwait hfetch, issue_of_guard_false c k body s hprefix hguard,
      finish_ok_id c k s hcore]
  case tuber =>
    intro i c k s hctx hpod hzero hcore hfetch hprefix hguard
    refine exec_of_octipOn_eq i c s _ hctx fun body tuber => ?_
    rw [octipOn_tuber_of_fetched c k s body tuber hpod hzero hcore hfetch, issue_of_guard_false c k tuber s hprefix hguard,
      finishTuber_ok_id c k s hcore]

end

section
/-!
The integer instructions whose result needs an argument (R347 to R351): the count of a shift or a rotate, and the quotient and
remainder of a division with the edges of *Integer results at the edges*.
-/

namespace Sys2Proof.Machine

/-! ## An integer instruction as its result alone -/

/-- The outcome of an integer instruction on the core of `c`: the value in g[D] and the flags ORed into cr.astat (R344). -/
def intEnds (c : OctCtx) (k : OctCore) (s : State) (d : Nat) (r : IntRes) : Host.Outcome State Fault Refusal :=
  .next (retiredOn c k ((k.setG d r.val).flag r.flags) s)

theorem next_intOp_eq_intEnds (c : OctCtx) (k : OctCore) (s : State) (h : OnCore c k s) (d : Nat) (r : OctCore → IntRes) :
    Host.Outcome.next (intOp c d r s) = intEnds c k s d (r k) := by
  rw [intOp_onCore c k s h, intEnds]

/-- A result without flags only writes g[D]. -/
theorem intEnds_plain (c : OctCtx) (k : OctCore) (s : State) (d : Nat) (v : Word) :
    intEnds c k s d (plain v) = .next (retiredOn c k (k.setG d v) s) := by
  rw [intEnds, plain, flag_zero]

/-- An integer instruction without flags completes with its value, however that is written. -/
theorem next_intOp_plain (c : OctCtx) (k : OctCore) (s : State) (h : OnCore c k s) (d : Nat) (v : OctCore → Word)
    (w : Word) (hv : v k = w) :
    Host.Outcome.next (φ := Fault) (ρ := Refusal) (intOp c d (fun k => plain (v k)) s) =
      .next (retiredOn c k (k.setG d w) s) := by
  rw [next_intOp_eq_intEnds c k s h, hv, intEnds_plain]

/-! ## Shifts and rotates (R351) -/

/-- An arithmetic shift right is the floor of the signed value over the power of two. -/
theorem sshiftRight_eq_ofInt_div (a : Word) (n : Nat) : a.sshiftRight n = BitVec.ofInt 64 (a.toInt / (2 : Int) ^ n) := by
  rw [← BitVec.ofInt_toInt (x := a.sshiftRight n), BitVec.toInt_sshiftRight, Int.shiftRight_eq_div_pow]
  norm_cast

/-- SRA by a register: a count of 64 or more leaves the sign alone. -/
theorem shiftRightArith_eq (a b : Word) :
    shiftRightArith a b = if 64 ≤ b.toNat then (if a.toInt < 0 then 0xFFFFFFFFFFFFFFFF else 0)
      else BitVec.ofInt 64 (a.toInt / (2 : Int) ^ b.toNat) := by
  have hmsb : a.msb = true ↔ a.toInt < 0 := by simp [BitVec.msb_eq_toInt]
  rw [shiftRightArith, sshiftRight_eq_ofInt_div]
  simp only [hmsb]
  rfl

/-- For a count of zero the library's `64 - n` shifts every bit out, where `(64 - n) % 64` brings the word itself round once
more; both unions are the word. -/
theorem rotateLeft_eq_shifts (a : Word) (n : Nat) (hn : n < 64) :
    a.rotateLeft n = a <<< n ||| a >>> ((64 - n) % 64) := by
  rw [BitVec.rotateLeft_def, Nat.mod_eq_of_lt hn]
  rcases Nat.eq_zero_or_pos n with rfl | hpos
  · simp [BitVec.ushiftRight_eq_zero]
  · rw [Nat.mod_eq_of_lt (by omega)]

/-- The same to the right. -/
theorem rotateRight_eq_shifts (a : Word) (n : Nat) (hn : n < 64) :
    a.rotateRight n = a >>> n ||| a <<< ((64 - n) % 64) := by
  rw [BitVec.rotateRight_def, Nat.mod_eq_of_lt hn]
  rcases Nat.eq_zero_or_pos n with rfl | hpos
  · simp
  · rw [Nat.mod_eq_of_lt (by omega)]

/-! ## Divisions (R347 to R350) -/

/-- What a signed division works on: the word, or its low half sign-extended (R348). -/
def signedOperand (w32 : Bool) (a : Word) : Word := if w32 then low32s a else a

/-- What an unsigned division works on: the word, or its low half zero-extended (R348). -/
def unsignedOperand (w32 : Bool) (a : Word) : Word := if w32 then low32u a else a

/-- The most negative value of the width. -/
def leastSigned (w32 : Bool) : Int := if w32 then -(2 : Int) ^ 31 else -(2 : Int) ^ 63

/-- The one quotient that does not fit its width: the most negative value by −1. -/
abbrev divOverflows (w32 : Bool) (a b : Word) : Prop :=
  (signedOperand w32 a).toInt = leastSigned w32 ∧ (signedOperand w32 b).toInt = -1

/-- The quotient truncated toward zero (R349), as the library's division of words. -/
theorem ofInt_tdiv_eq_sdiv (a b : Word) : BitVec.ofInt 64 (a.toInt.tdiv b.toInt) = a.sdiv b :=
  BitVec.eq_of_toInt_eq (by rw [BitVec.toInt_ofInt, BitVec.toInt_sdiv])

/-- The remainder with the sign of the dividend (R349), as the library's remainder of words. -/
theorem ofInt_tmod_eq_srem (a b : Word) : BitVec.ofInt 64 (a.toInt.tmod b.toInt) = a.srem b := by
  rw [← BitVec.toInt_srem, BitVec.ofInt_toInt]

theorem ofNat_div_eq_udiv (a b : Word) : BitVec.ofNat 64 (a.toNat / b.toNat) = a.udiv b := by
  rw [BitVec.udiv_eq, ← BitVec.toNat_udiv, BitVec.ofNat_toNat, BitVec.setWidth_eq]

theorem ofNat_mod_eq_umod (a b : Word) : BitVec.ofNat 64 (a.toNat % b.toNat) = a.umod b := by
  rw [BitVec.umod_eq, ← BitVec.toNat_umod, BitVec.ofNat_toNat, BitVec.setWidth_eq]

/-- DIV and DIV.W, with the rows of the quotient in *Integer results at the edges*. -/
theorem divSigned_quotient (w32 : Bool) (a b : Word) :
    divSigned false w32 a b =
      if (signedOperand w32 b).toInt = 0 then ⟨0xFFFFFFFFFFFFFFFF, 0x200⟩
      else if divOverflows w32 a b then ⟨BitVec.ofInt 64 (leastSigned w32), 0x100⟩
      else ⟨(signedOperand w32 a).sdiv (signedOperand w32 b), 0⟩ := by
  rw [← ofInt_tdiv_eq_sdiv]
  cases w32 <;> rfl

/-- REM and REM.W, with the rows of the remainder. -/
theorem divSigned_remainder (w32 : Bool) (a b : Word) :
    divSigned true w32 a b =
      if (signedOperand w32 b).toInt = 0 then ⟨signedOperand w32 a, 0x200⟩
      else if divOverflows w32 a b then ⟨0, 0x100⟩
      else ⟨(signedOperand w32 a).srem (signedOperand w32 b), 0⟩ := by
  rw [← ofInt_tmod_eq_srem]
  cases w32 <;> rfl

/-- DIVU and DIVU.W: only a divisor of zero is an edge. -/
theorem divUnsigned_quotient (w32 : Bool) (a b : Word) :
    divUnsigned false w32 a b =
      if unsignedOperand w32 b = 0 then ⟨if w32 then 0xFFFFFFFF else 0xFFFFFFFFFFFFFFFF, 0x200⟩
      else ⟨(unsignedOperand w32 a).udiv (unsignedOperand w32 b), 0⟩ := by
  rw [← ofNat_div_eq_udiv]
  simp only [BitVec.toNat_eq (y := (0 : Word))]
  cases w32 <;> rfl

/-- REMU and REMU.W. -/
theorem divUnsigned_remainder (w32 : Bool) (a b : Word) :
    divUnsigned true w32 a b =
      if unsignedOperand w32 b = 0 then ⟨unsignedOperand w32 a, 0x200⟩
      else ⟨(unsignedOperand w32 a).umod (unsignedOperand w32 b), 0⟩ := by
  rw [← ofNat_mod_eq_umod]
  simp only [BitVec.toNat_eq (y := (0 : Word))]
  cases w32 <;> rfl

end Sys2Proof.Machine

open Sys2Proof.Machine

/-- Settles O3: every shift or rotate is an integer instruction without flags, so what is left is its value; only the
arithmetic shift and the rotates are not the statement's expression already. -/
theorem shiftsFollowTheirCount : Obligations.ShiftsFollowTheirCount := by
  intro c k s h d a b n hn
  have hmod : (k.gr b).toNat % 64 < 64 := Nat.mod_lt _ (by decide)
  refine ⟨?sll, ?srl, ?sra, ?rol, ?ror, ?slli, ?srli, ?srai, ?rori⟩
  case sll => exact next_intOp_plain c k s h d _ _ rfl
  case srl => exact next_intOp_plain c k s h d _ _ rfl
  case sra => exact next_intOp_plain c k s h d _ _ (shiftRightArith_eq _ _)
  case rol => exact next_intOp_plain c k s h d _ _ (rotateLeft_eq_shifts _ _ hmod)
  case ror => exact next_intOp_plain c k s h d _ _ (rotateRight_eq_shifts _ _ hmod)
  case slli => exact next_intOp_plain c k s h d _ _ rfl
  case srli => exact next_intOp_plain c k s h d _ _ rfl
  case srai => exact next_intOp_plain c k s h d _ _ (sshiftRight_eq_ofInt_div _ _)
  case rori => exact next_intOp_plain c k s h d _ _ (rotateRight_eq_shifts _ _ hn)

/-- Settles O4: each division is an integer instruction, so `intEnds` of its result; the result splits into the rows of the
table, and `intEnds` passes into each of them. -/
theorem divisionFollowsTables : Obligations.DivisionFollowsTables := by
  intro c k s h w32 d a b
  refine ⟨?div, ?rem, ?divu, ?remu⟩ <;> refine (next_intOp_eq_intEnds c k s h d _).trans ?_
  case div => simp only [divSigned_quotient, apply_ite (intEnds c k s d)]; rfl
  case rem => simp only [divSigned_remainder, apply_ite (intEnds c k s d)]; rfl
  case divu => simp only [divUnsigned_quotient, apply_ite (intEnds c k s d)]; rfl
  case remu => simp only [divUnsigned_remainder, apply_ite (intEnds c k s d)]; rfl

end

section
/-!
Binary64 at its edges: the rows of *Edge results, binary64* (R366) and of *Conversion edges, RNE* (R365) name every operand.
-/

open Sys2Proof.Machine

/-- Settles O9: a row gives its operands as bits, so unpacking, the exact result and its rounding are a computation on closed
values; the cases are the statement's groups of rows. -/
theorem binary64EdgesFollowTable : Obligations.Binary64EdgesFollowTable := by
  refine ⟨?aroundMax, ?aroundMinsub, ?rootsZerosAndNans, ?conversions⟩
  case aroundMax => decide +kernel
  case aroundMinsub => decide +kernel
  case rootsZerosAndNans => decide +kernel
  case conversions => decide +kernel

end

section
/-!
What computing instructions leave alone, the invariant of every step, and the block's safety: an instruction that only computes
changes its own core (and counts a poisoned fetch), every other command ends in `settle`.
-/

namespace Sys2Proof.Machine

/-! ## An instruction that only computes stays on its own core -/

/-- `t` differs from `s` in the core of `c` and in MEM_POISON_READS alone. -/
structure OwnCoreOnly (c : OctCtx) (s t : State) : Prop where
  blocks : t = { s with regs := t.regs, cores := t.cores, tub := { s.tub with core := t.tub.core } }
  keys : ∀ j ∈ kvKeys t.cores, j ∈ kvKeys s.cores
  cores : ∀ key, key ≠ coreKey c ∨ c.pod = 16 → kvGet? t.cores key = kvGet? s.cores key
  regs : ∀ f n, f ≠ .MEM_POISON_READS_COUNT → t.getB f n = s.getB f n

namespace OwnCoreOnly

theorem refl (c : OctCtx) (s : State) : OwnCoreOnly c s s :=
  ⟨rfl, fun _ h => h, fun _ _ => rfl, fun _ _ _ => rfl⟩

/-- A main core is changed. -/
theorem modCore (c : OctCtx) (s : State) (hpod : c.pod ≠ 16) (f : OctCore → OctCore) :
    OwnCoreOnly c s (s.modCore (coreKey c) f) :=
  ⟨rfl, keys_kvMod _ _ _, fun _ hkey => kvGet?_kvMod_ne _ _ _ _ (Ne.symm (hkey.resolve_right hpod)), fun _ _ _ => rfl⟩

/-- A main core is changed after a poisoned fetch is counted. -/
theorem bump_modCore (c : OctCtx) (s : State) (hpod : c.pod ≠ 16) (f : OctCore → OctCore) :
    OwnCoreOnly c s ((s.bump .MEM_POISON_READS_COUNT).modCore (coreKey c) f) :=
  ⟨rfl, keys_kvMod _ _ _, fun _ hkey => kvGet?_kvMod_ne _ _ _ _ (Ne.symm (hkey.resolve_right hpod)),
    fun _ _ hf => getB_bumpB_ne _ _ _ _ _ _ fun h => hf h.1.symm⟩

/-- Tuber's core is changed. -/
theorem modTuber (c : OctCtx) (s : State) (f : OctCore → OctCore) : OwnCoreOnly c s (s.modTuber f) :=
  ⟨rfl, fun _ h => h, fun _ _ => rfl, fun _ _ _ => rfl⟩

variable {c : OctCtx} {s t : State} (h : OwnCoreOnly c s t)
include h

theorem eng : t.eng = s.eng := by rw [h.blocks]
theorem mod_ : t.mod_ = s.mod_ := by rw [h.blocks]
theorem mem : t.mem = s.mem := by rw [h.blocks]
theorem coh : t.coh = s.coh := by rw [h.blocks]
theorem out : t.out = s.out := by rw [h.blocks]
theorem pending : t.pending = s.pending := by rw [h.blocks]
theorem jnl : t.jnl = s.jnl := by rw [h.blocks]
theorem css : t.css = s.css := by rw [h.blocks]
theorem log : t.log = s.log := by rw [h.blocks]

end OwnCoreOnly

/-- Work that only computes is, after prefixes, guard and fields, still a change of the core or an exception. -/
theorem issue_computes {body : OctCore → State → Eff} (h : computes body) (c : OctCtx) : computes (issue c · body) := by
  intro k u
  show (∃ f, issue c k body u = .ok f u) ∨ ∃ n a b, issue c k body u = .exc n a b u
  unfold issue
  split_ifs
  · exact .inr ⟨_, _, _, rfl⟩
  · exact .inl ⟨_, rfl⟩
  · exact .inr ⟨_, _, _, rfl⟩
  · exact h k u

/-- A result or an exception of a main core only changes that core. -/
theorem finish_eq_modCore {body : OctCore → State → Eff} (h : computes body) (n : Nat) (pc len : Word) (k : OctCore) (s : State) :
    ∃ f, finish n pc len (body k s) = s.modCore n f := by
  rcases h k s with ⟨f, hf⟩ | ⟨code, a, bad, he⟩
  · exact ⟨_, by rw [hf]; rfl⟩
  · exact ⟨_, by rw [he]; rfl⟩

theorem finishTuber_eq_modTuber {body : OctCore → State → Eff} (h : computes body) (pc len : Word) (k : OctCore) (s : State) :
    ∃ f, finishTuber pc len (body k s) = s.modTuber f := by
  rcases h k s with ⟨f, hf⟩ | ⟨code, a, bad, he⟩
  · exact ⟨_, by rw [hf]; rfl⟩
  · exact ⟨_, by rw [he]; rfl⟩

/-- On a main core: nothing, a fetch fault, or the instruction's own work. -/
theorem octipMain_ownCoreOnly (c : OctCtx) (hpod : c.pod ≠ 16) {body : OctCore → State → Eff} (h : computes body) (s : State) :
    OwnCoreOnly c s (octipMain c body s) := by
  unfold octipMain
  split
  · exact .refl c s
  · rename_i k _
    dsimp only
    split_ifs
    · exact .refl c s
    · split
      · split_ifs
        · exact .bump_modCore c s hpod _
        · exact .bump_modCore c s hpod _
        · exact .modCore c s hpod _
        · exact .modCore c s hpod _
      · obtain ⟨f, hf⟩ := finish_eq_modCore (issue_computes h c) (coreKey c) k.pc (BitVec.ofNat 64 (2 * c.parcels)) k s
        rw [hf]
        exact .modCore c s hpod f

/-- On Tuber's core: nothing, a fetch fault, or the instruction's own work. -/
theorem octipTuber_ownCoreOnly (c : OctCtx) {body : OctCore → State → Eff} (h : computes body) (s : State) :
    OwnCoreOnly c s (octipTuber c body s) := by
  unfold octipTuber
  split
  · exact .refl c s
  · rename_i k _
    split_ifs
    · exact .refl c s
    · split
      · exact .modTuber c s _
      · obtain ⟨f, hf⟩ := finishTuber_eq_modTuber (issue_computes h c) k.pc (BitVec.ofNat 64 (2 * c.parcels)) k s
        rw [hf]
        exact .modTuber c s f

theorem octipOn_ownCoreOnly (c : OctCtx) {body tuber : OctCore → State → Eff} (hb : computes body) (ht : computes tuber)
    (s : State) : OwnCoreOnly c s (octipOn c body tuber s) := by
  unfold octipOn
  split_ifs with hpod
  · exact octipTuber_ownCoreOnly c ht s
  · exact octipMain_ownCoreOnly c hpod hb s

/-- Whether its work is the same on Tuber's core or illegal there, a computing instruction's is a result or an exception. -/
theorem exec_of_onlyComputes (i : Instr) (h : onlyComputes i = true) (s : State) :
    ∃ c body tuber, octipCtx i = some c ∧ computes body ∧ computes tuber ∧ exec i s = .next (octipOn c body tuber s) := by
  cases i with
  | opAdd | opSub | opAnd | opOr | opXor | opAndn | opSll | opSrl | opSra | opRol | opRor | opMin | opMax | opMinu
  | opMaxu | opNeg | opMul | opMulh | opMulhu | opDiv | opDivu | opRem | opRemu | opPand | opPor | opPxor | opPandn
  | opMovgp | opMovpg | opAddi | opAndi | opOri | opXori | opSlli | opSrli | opSrai | opRori | opMov | opLi | opLih
  | opLa =>
    exact ⟨_, _, _, rfl, pureOp_computes _, pureOp_computes _, rfl⟩
  | opCmpEq | opCmpNe | opCmpLt | opCmpGe | opCmpLtu | opCmpGeu =>
    exact ⟨_, _, _, rfl, cmpBody_computes _ _ _ _, cmpBody_computes _ _ _ _, rfl⟩
  | opFadd | opFsub | opFmul | opFdiv | opFsqrt | opFmin | opFmax | opFsgnj | opFcvtI | opFcvtU | opIcvtF | opUcvtF
  | opFcvtP | opFmovg | opFmovf | opFmadd | opFmsub | opFnmadd | opFnmsub =>
    exact ⟨_, _, _, rfl, pureOp_computes _, illegal_computes, rfl⟩
  | opFeq | opFlt | opFle | opFun =>
    exact ⟨_, _, _, rfl, cmpBody_computes _ _ _ _, illegal_computes, rfl⟩
  | _ => exact absurd h Bool.false_ne_true

/-! ## The invariant -/

/-- The invariant speaks of registers, the keys of the cores, the engines and the power sequences only. -/
theorem OwnCoreOnly.inv {c : OctCtx} {s t : State} (h : OwnCoreOnly c s t) (hs : s.Inv) : t.Inv := by
  obtain ⟨hlevels, hheld, hseal, hprobe⟩ := hs
  have hget (f : Fld) (hf : f ≠ .MEM_POISON_READS_COUNT) : t.get f = s.get f := h.regs f 0 hf
  have hbit (f : Fld) (i k : Nat) (hf : f ≠ .MEM_POISON_READS_COUNT) : t.bitB f i k = s.bitB f i k := by
    rw [State.bitB, h.regs f i hf, State.bitB]
  have hirq (src : Nat) : t.irqLevel src = s.irqLevel src := by
    unfold State.irqLevel
    split <;> rw [hget _ (by decide), hget _ (by decide)]
  have hon (n : Nat) : t.pdOn n = s.pdOn n := by rw [State.pdOn, hget _ (by decide), State.pdOn]
  have heng : t.eng = s.eng := h.eng
  have hgoing (n : Nat) : t.going n = s.going n := by
    rw [State.going, h.mod_, State.going]
  refine ⟨fun k hk src hsrc => ?_, ?_, ?_, ?_⟩
  · rw [hbit _ _ _ (by decide), hirq, hlevels k (h.keys k hk) src hsrc]
  · rw [hbit _ _ _ (by decide), hheld]
  · rw [hbit _ _ _ (by decide), heng, hseal]
  · rw [hbit _ _ _ (by decide), hon, hgoing, heng, hprobe]

/-- A command that completes keeps the invariant: it ends in `settle`, which restores it, or only computes. -/
theorem exec_inv {i : Instr} {s t : State} (hs : s.Inv) (h : exec i s = .next t) : t.Inv := by
  rcases exec_shape i s with ⟨u, hu⟩ | ⟨c, body, tuber, -, -, hb, ht, hu⟩ | ⟨a, ha⟩
  · obtain rfl : settle u = t := Host.Outcome.next.inj (hu.symm.trans h)
    exact settle_Inv u
  · obtain rfl : octipOn c body tuber s = t := Host.Outcome.next.inj (hu.symm.trans h)
    exact (octipOn_ownCoreOnly c hb ht s).inv hs
  · exact absurd (ha.symm.trans h) (by simp)

/-- A tick settles, or leaves a module without power as it is. -/
theorem tick_inv {s : State} (hs : s.Inv) : (tick s).Inv := by
  unfold tick
  split_ifs
  · exact hs
  · exact settle_Inv _

theorem step_of_front (s : State) (c : Instr) (rest : List Instr) (h : s.pending = c :: rest) :
    step s = exec c { s with pending := rest } := by
  unfold step
  rw [h]

theorem step_of_empty (s : State) (h : s.pending = []) : step s = .next (tick s) := by
  unfold step
  rw [h]

/-! ## What stops the block -/

/-- Every command but an access to a line completes. -/
theorem exec_completes_of_inDram (i : Instr) (s : State) (h : inDram i = true) : ∃ t, exec i s = .next t := by
  cases i with
  | memRead q line errs => exact ⟨_, if_neg (Nat.not_le.2 (of_decide_eq_true h))⟩
  | memWrite q addr data => exact ⟨_, if_neg (Nat.not_lt.2 (of_decide_eq_true h))⟩
  | _ => exact ⟨_, rfl⟩

/-- An access to a line past the DRAM stops at it. -/
theorem exec_stops_of_not_inDram (i : Instr) (s : State) (h : inDram i = false) : ∃ a, exec i s = .fault (.noSuchLine a) := by
  cases i with
  | memRead q line errs => exact ⟨line * 128, if_pos (Nat.not_lt.1 (of_decide_eq_false h))⟩
  | memWrite q addr data => exact ⟨addr, if_pos (Nat.not_le.1 (of_decide_eq_false h))⟩
  | _ => exact absurd h Bool.true_eq_false.mp

/-- A run whose waiting commands touch memory that exists goes on. -/
theorem step_completes_of_safe (s : State) (h : s.safe = true) : ∃ t, step s = .next t := by
  cases hp : s.pending with
  | nil => exact ⟨_, step_of_empty s hp⟩
  | cons c rest =>
    rw [step_of_front s c rest hp]
    refine exec_completes_of_inDram c _ ?_
    rw [State.safe, hp, List.all_cons, Bool.and_eq_true] at h
    exact h.1

end Sys2Proof.Machine

open Sys2Proof.Machine

/-- Settles O58: a command keeps the invariant by `exec_inv`, and on an empty queue the clock ticks. -/
theorem everyStepKeepsLevelsAndHolds : Obligations.EveryStepKeepsLevelsAndHolds := by
  intro s t hs h
  cases hp : s.pending with
  | nil =>
    obtain rfl : tick s = t := Host.Outcome.next.inj ((step_of_empty s hp).symm.trans h)
    exact tick_inv hs
  | cons c rest => exact exec_inv (s := { s with pending := rest }) hs ((step_of_front s c rest hp).symm.trans h)

/-- Settles O59: no core exists at reset, Tuber's domain is the only one held, and nothing is loaded. -/
theorem resetHasLevelsAndHolds : Obligations.ResetHasLevelsAndHolds := by
  refine ⟨fun k hk => absurd hk List.not_mem_nil, ?_⟩
  unfold State.holdsAgree
  decide +kernel

/-- Settles O23: a computing instruction runs `octipOn` on work that only computes, which `OwnCoreOnly` frames. -/
theorem computingLeavesTheRestAlone : Obligations.ComputingLeavesTheRestAlone := by
  intro i c s t hctx hcomp h
  obtain ⟨c', body, tuber, hctx', hb, ht, hexec⟩ := exec_of_onlyComputes i hcomp s
  obtain rfl : c' = c := Option.some.inj (hctx'.symm.trans hctx)
  obtain rfl : octipOn c' body tuber s = t := Host.Outcome.next.inj (hexec.symm.trans h)
  have hown := octipOn_ownCoreOnly c' hb ht s
  exact ⟨hown.mem, hown.coh, hown.out, hown.pending, hown.jnl, hown.css, hown.log, hown.cores, hown.regs⟩

end

section
/-!
What the order of checks decides (bad prefixes or a bad field), one step of the block, the commands row by row, and a `settle`
that finds nothing to do.
-/

namespace Sys2Proof.Machine

/-! ## A field or prefixes the form does not allow (R315, R317, R319) -/

/-- A bad sequence of prefixes, or with the guard true a bad field, is an illegal instruction before any work is done. -/
theorem issue_of_bad (c : OctCtx) (k : OctCore) (body : OctCore → State → Eff) (s : State)
    (hbad : c.prefixOk = false ∨ (guardOf c k = true ∧ c.fieldsOk = false)) : issue c k body s = .exc 1 .none 0 s := by
  unfold issue
  rcases hbad with hprefix | ⟨hguard, hfields⟩
  · rw [if_pos (by simp [hprefix])]
  · split_ifs
    · rfl
    · simp_all
    · rfl
    · simp_all

/-! ## What follows a command when nothing waits -/

theorem reactAll_of_none (n : Nat) (s : State) (h : s.flt.todo = []) : reactAll n s = s := by
  cases n with
  | zero => rfl
  | succ n => simp only [reactAll, h]

theorem outclaimEnd_of_role (s : State) (h : s.get .CLM_STATUS_ROLE ≠ 3) : outclaimEnd s = s :=
  if_neg fun hrole => h hrole.1

theorem ringWake_of_nothing_held (s : State) (h : s.ring.dormantHeld = []) : ringWake s = s :=
  if_pos (by rw [h]; rfl)

theorem startEnd_of_frond (s : State) (h : s.mode = Mode.frond) : startEnd s = s :=
  if_pos (.inl (by rw [h]; decide))

theorem dormantEnd_of_not_pending (s : State) (h : s.get .MOD_STATE_PENDING = 0) : dormantEnd s = s :=
  if_pos (.inr (.inl (by rw [h]; decide)))

theorem drainEnd_of_not_pending (s : State) (h : s.get .MOD_STATE_PENDING = 0) : drainEnd s = s :=
  if_pos (.inl (by rw [h]; decide))

theorem yieldLook_of_not_yielding (s : State) (h : s.pair.yielding = false) : yieldLook s = s :=
  if_neg (by simp [h])

theorem mirrorContexts_of_not_mirroring (s : State) (h : s.mirroring = false) : mirrorContexts s = s :=
  if_neg (by simp [h])

theorem epbWatch_of_closed (s : State) (h : s.on .ENG_EPB_CTL_OPEN = false) : epbWatch s = s :=
  if_neg (by simp [h])

theorem pumpMemory_of_idle (s : State) (hreqs : s.mem.reqs = [])
    (hrefresh : (kvVals s.mem.postponed).all (· == 0) = true) : pumpMemory s = s := by
  have hissue : issueRefreshes s = s := if_pos (by simp only [hrefresh, Bool.or_true])
  unfold pumpMemory
  rw [hissue]
  exact if_pos (by rw [hreqs]; rfl)

theorem pumpWaiting_of_none (s : State) (h : s.mpt.waiting = []) : pumpWaiting s = s := by
  unfold pumpWaiting State.withMpt
  rw [h, List.foldl_nil, ← h]

theorem pumpSync_of_none_due (s : State) (h : s.css.stripes.all (fun q => !s.syncDue q.2) = true) : pumpSync s = s := by
  have hnone : s.css.stripes.filter (fun q => s.syncDue q.2) = [] := by
    simpa [List.filter_eq_nil_iff] using h
  simp only [pumpSync, hnone]
  rfl

theorem pumpReads_of_no_restore (s : State)
    (h : ∀ q ∈ s.css.subs, ∀ p, q.2.prog = some p → p.readsShards = false) : pumpReads s = s := by
  unfold pumpReads
  rw [List.filter_eq_nil_iff.2]
  · rfl
  · intro q hq
    cases hprog : q.2.prog with
    | none => simp
    | some p => simp [h q hq p hprog]

theorem manifestLook_of_no_epoch (s : State) (h : s.eng.cusClosed = none) : manifestLook s = s := by
  simp only [manifestLook, h]

theorem lookLanes_of_idle (s : State) (hlanes : s.mpt.lanes = []) (hcmds : s.mpt.cmds = []) : lookLanes s = s := by
  simp only [lookLanes, hlanes, kvKeys, List.map_nil, List.foldl_nil, hcmds]

/-! ## PWR_HOLD and the interrupt levels -/

/-- `t` differs from `s` in the registers and the cores alone. -/
def SameBlocks (s t : State) : Prop := t = { s with regs := t.regs, cores := t.cores }

theorem SameBlocks.trans {s t u : State} (h : SameBlocks s t) (h' : SameBlocks t u) : SameBlocks s u := by
  unfold SameBlocks at *
  rw [h', h]

theorem pendInt_sameBlocks (k src : Nat) (s : State) : SameBlocks s (pendInt k src s) := by
  unfold pendInt
  dsimp only
  split <;> split_ifs <;> rfl

theorem unpendInt_sameBlocks (k src : Nat) (s : State) : SameBlocks s (unpendInt k src s) := by
  unfold unpendInt
  dsimp only
  split_ifs <;> rfl

theorem sync1_sameBlocks (k : Nat) (s : State) (src : Nat) : SameBlocks s (sync1 k s src) := by
  unfold sync1
  dsimp only
  split_ifs
  · rfl
  · exact pendInt_sameBlocks k src s
  · exact unpendInt_sameBlocks k src s

theorem syncCore_sameBlocks (s : State) (k : Nat) : SameBlocks s (syncCore s k) :=
  (((sync1_sameBlocks k s 3).trans (sync1_sameBlocks k _ 4)).trans (sync1_sameBlocks k _ 5)).trans (sync1_sameBlocks k _ 6)

theorem foldl_syncCore_sameBlocks (l : List Nat) (s : State) : SameBlocks s (l.foldl syncCore s) := by
  induction l generalizing s with
  | nil => rfl
  | cons k l ih => exact (syncCore_sameBlocks s k).trans (ih (syncCore s k))

theorem syncHold_sameBlocks (s : State) : SameBlocks s (syncHold s) := rfl

/-- `syncHold` writes PWR_HOLD alone. -/
theorem getB_syncHold (s : State) (f : Fld) (n : Nat) (h : f ≠ .PWR_HOLD_HELD) : (syncHold s).getB f n = s.getB f n := by
  have hne (u : State) (k : Nat) (b : Bool) : (u.setBitB .PWR_HOLD_HELD 0 k b).getB f n = u.getB f n :=
    getB_setB_ne _ _ _ _ _ _ fun he => h he.1.symm
  unfold syncHold
  rw [hne, hne, hne]

end Sys2Proof.Machine

open Sys2Proof.Machine

/-- Settles O22: prefixes and fields are judged before the work, so whichever Octip instruction it is, `issue` comes to an illegal
instruction. -/
theorem badFieldsAreIllegal : Obligations.BadFieldsAreIllegal := by
  refine ⟨?main, ?tuber⟩
  case main =>
    intro i c k s hctx hpod hcore hrun hwait hfetch hbad
    refine exec_of_octipOn_eq i c s _ hctx fun body tuber => ?_
    rw [octipOn_main_of_fetched c k s body tuber hpod hcore hrun hwait hfetch, issue_of_bad c k body s hbad]
    rfl
  case tuber =>
    intro i c k s hctx hpod hzero hcore hfetch hbad
    refine exec_of_octipOn_eq i c s _ hctx fun body tuber => ?_
    rw [octipOn_tuber_of_fetched c k s body tuber hpod hzero hcore hfetch, issue_of_bad c k tuber s hbad]
    rfl

/-- Settles O55: by what a step does with a command at the front. -/
theorem stepRunsTheFrontCommand : Obligations.StepRunsTheFrontCommand :=
  fun c s => step_of_front _ c s.pending rfl

/-- Settles O56: TIM_NOW saturates at its 64 bits. -/
theorem idleStepTicksTheClock : Obligations.IdleStepTicksTheClock := by
  intro s hempty
  rw [step_of_empty s hempty]
  refine ⟨fun hoff => ?_, fun hon => ?_⟩
  · rw [tick, if_pos hoff]
  · have hwidth : Fld.width .TIM_NOW_NS = 64 := by decide
    rw [tick, if_neg hon, State.bump, State.bumpB, hwidth]
    rfl

/-- Settles O60: every part of `settle` finds nothing to do but `syncHold`, which writes PWR_HOLD, and the sources' levels on the
cores. -/
theorem settleIsQuietWhenNothingWaits : Obligations.SettleIsQuietWhenNothingWaits := by
  intro s htodo hmode hpending hrole hheld hyield hmirror hwaiting hcmds hlanes hepoch hstripes hsubs hreqs hrefresh hepb
  have hrestores (q) (hq : q ∈ s.css.subs) (p) (hp : q.2.prog = some p) : p.readsShards = false := by
    simpa [hp] using List.all_eq_true.1 hsubs q hq
  have hmedia : pumpMedia s = s := by
    rw [pumpMedia, pumpWaiting_of_none s hwaiting, pumpSync_of_none_due s hstripes, pumpReads_of_no_restore s hrestores,
      manifestLook_of_no_epoch s hepoch, lookLanes_of_idle s hlanes hcmds]
  have hsettle : settle s = (kvKeys s.cores).foldl syncCore (syncHold s) := by
    unfold settle
    dsimp only
    rw [reactAll_of_none 64 s htodo, outclaimEnd_of_role s hrole, ringWake_of_nothing_held s hheld,
      startEnd_of_frond s hmode, dormantEnd_of_not_pending s hpending, drainEnd_of_not_pending s hpending,
      yieldLook_of_not_yielding s hyield, hmedia, mirrorContexts_of_not_mirroring s hmirror, reactAll_of_none 64 s htodo,
      pumpMemory_of_idle s hreqs hrefresh, epbWatch_of_closed s hepb]
    rfl
  obtain ⟨hkeys, hregs, -⟩ := fold_sync (kvKeys s.cores) (syncHold s)
  have hblocks : SameBlocks s (settle s) := by
    rw [hsettle]
    exact (syncHold_sameBlocks s).trans (foldl_syncCore_sameBlocks _ _)
  refine ⟨?blocks, ?cores, ?registers⟩
  case blocks => rw [hblocks]; exact ⟨rfl, rfl, rfl, rfl, rfl, rfl, rfl, rfl, rfl, rfl, rfl, rfl, rfl, rfl, rfl, rfl, rfl⟩
  case cores =>
    rw [hsettle]
    exact hkeys
  case registers =>
    intro f n hhold hlevel
    rw [hsettle, hregs f n hlevel, getB_syncHold s f n hhold]

/-- Settles O57: only an access to a line looks at what it names, and every other row is its meaning, settled. -/
theorem onlyMissingMemoryStopsTheBlock : Obligations.OnlyMissingMemoryStopsTheBlock := by
  refine ⟨exec_completes_of_inDram, exec_stops_of_not_inDram, step_completes_of_safe, ?rows⟩
  case rows =>
    repeat' apply And.intro
    all_goals intros; rfl

end

section
/-!
Rounding to a multiple of a unit (*Rounding modes*): the truncation `k` of the magnitude or `k + 1`, as the mode judges what is cut
off against half a unit.
-/

namespace Sys2Proof.Machine

/-- RNE goes up above half a unit, and at half from an odd truncation. -/
theorem roundsUp_rne_iff (neg : Bool) (k rem half : Nat) :
    roundsUp .rne neg false k rem half = true ↔ half < rem ∨ rem = half ∧ k % 2 = 1 := by
  simp [roundsUp]

theorem roundsUp_rtz (neg : Bool) (k rem half : Nat) : roundsUp .rtz neg false k rem half = false := rfl

theorem roundsUp_rup_iff (neg : Bool) (k rem half : Nat) :
    roundsUp .rup neg false k rem half = true ↔ rem ≠ 0 ∧ neg = false := by
  simp [roundsUp]

theorem roundsUp_rdn_iff (neg : Bool) (k rem half : Nat) :
    roundsUp .rdn neg false k rem half = true ↔ rem ≠ 0 ∧ neg = true := by
  simp [roundsUp]

theorem roundsUp_rmm_iff (neg : Bool) (k rem half : Nat) :
    roundsUp .rmm neg false k rem half = true ↔ half ≤ rem := by
  simp [roundsUp]

/-- Nothing cut off is never rounded up. -/
theorem roundsUp_of_exact (rm : Rm) (neg : Bool) (k half : Nat) (hpos : 0 < half) :
    roundsUp rm neg false k 0 half = false := by
  cases rm <;> simp [roundsUp, hpos.ne, hpos.ne']

/-- A magnitude `m = k · unit + rem` is rounded to `k` or `k + 1` units. -/
theorem roundAt_eq (rm : Rm) (neg : Bool) (m : Nat) (e q : Int) (h : e < q) :
    ∃ k rem half, 0 < half ∧ 2 ^ (q - e).toNat = 2 * half ∧ m = k * (2 * half) + rem ∧ rem < 2 * half ∧
      roundAt rm neg m e false q = (if roundsUp rm neg false k rem half then k + 1 else k, decide (rem ≠ 0)) := by
  obtain ⟨n, hn⟩ : ∃ n, (q - e).toNat = n + 1 := ⟨(q - e).toNat - 1, by omega⟩
  have hunit : 2 ^ (n + 1) = 2 * 2 ^ n := by rw [pow_succ, Nat.mul_comm]
  have hpos : 0 < 2 ^ n := Nat.two_pow_pos n
  refine ⟨m / (2 * 2 ^ n), m % (2 * 2 ^ n), 2 ^ n, hpos, by rw [hn, hunit], (Nat.div_add_mod' m _).symm,
    Nat.mod_lt _ (by omega), ?_⟩
  rw [roundAt, if_neg (by omega)]
  simp [hunit, hn]

end Sys2Proof.Machine

open Sys2Proof.Machine

/-- Settles O10: with the unit twice `half`, whether the result is `k` or `k + 1` units is a comparison of the rest with `half`
in each mode, and every clause is linear in the multiple `k · unit`. -/
theorem roundingObeysItsMode : Obligations.RoundingObeysItsMode := by
  intro rm neg m e q hlt
  obtain ⟨k, rem, half, hpos, hunit, rfl, hrem, hround⟩ := roundAt_eq rm neg m e q hlt
  have hexact : roundsUp rm neg false k rem half = true → rem ≠ 0 := by
    rintro hup rfl
    simp [roundsUp_of_exact rm neg k half hpos] at hup
  have hresult (up : Bool) : (if up then k + 1 else k) * (2 * half) = k * (2 * half) + if up then 2 * half else 0 := by
    cases up <;> simp [Nat.succ_mul]
  rw [hunit, hround]
  dsimp only
  rw [hresult]
  generalize k * (2 * half) = units
  refine ⟨?around, ?exactly, ?rtz, ?rup, ?rdn, ?nearest, ?even, ?away⟩
  case around =>
    split_ifs with hup
    · have := hexact hup
      omega
    · omega
  case exactly =>
    rw [decide_eq_false_iff_not]
    split_ifs with hup
    · have := hexact hup
      omega
    · omega
  case rtz => rintro rfl; simp [roundsUp_rtz]
  case rup =>
    rintro rfl
    simp only [roundsUp_rup_iff]
    split_ifs <;> simp_all
    omega
  case rdn =>
    rintro rfl
    simp only [roundsUp_rdn_iff]
    split_ifs <;> simp_all
    omega
  case nearest =>
    rintro (rfl | rfl)
    · simp only [roundsUp_rne_iff]
      split_ifs <;> omega
    · simp only [roundsUp_rmm_iff]
      split_ifs <;> omega
  case even =>
    rintro rfl
    simp only [roundsUp_rne_iff]
    split_ifs <;> omega
  case away =>
    rintro rfl
    simp only [roundsUp_rmm_iff]
    split_ifs <;> omega

end

section
/-!
The computing instructions as their results: integer arithmetic and logic, moves, predicates, compares and floating point, with what
an instruction's work comes to on a core that is ready.
-/

namespace Sys2Proof.Machine

/-! ## The registers of a core (R310, R311) -/

theorem getD_set_eq_ite {α : Type} (l : List α) (n m : Nat) (v d : α) (hn : n < l.length) :
    (l.set n v).getD m d = if m = n then v else l.getD m d := by
  rw [List.getD_eq_getElem?_getD, List.getElem?_set, List.getD_eq_getElem?_getD]
  by_cases h : n = m
  · subst h
    simp [hn]
  · simp [h, Ne.symm h]

theorem gr_setG (k : OctCore) (v : Word) (hlen : k.g.length = 32) (n m : Nat) (hpos : 0 < n) (hn : n < 32) :
    (k.setG n v).gr m = if m = n then v else k.gr m := by
  rw [OctCore.setG, if_neg hpos.ne', OctCore.gr, OctCore.gr]
  dsimp only
  rw [getD_set_eq_ite _ _ _ _ _ (hlen ▸ hn)]
  by_cases hm : m = 0
  · simp [hm, hpos.ne]
  · simp [hm]

theorem pr_setP (k : OctCore) (b : Bool) (hlen : k.p.length = 8) (n m : Nat) (hpos : 0 < n) (hn : n < 8) :
    (k.setP n b).pr m = if m = n then b else k.pr m := by
  rw [OctCore.setP, if_neg hpos.ne', OctCore.pr, OctCore.pr]
  dsimp only
  rw [getD_set_eq_ite _ _ _ _ _ (hlen ▸ hn)]
  by_cases hm : m = 0
  · simp [hm, hpos.ne]
  · have : (m == 0) = false := by simpa using hm
    simp [this]

theorem fr_setF (k : OctCore) (v : Word) (hlen : k.f.length = 32) (n m : Nat) (hn : n < 32) :
    (k.setF n v).fr m = if m = n then v else k.fr m :=
  getD_set_eq_ite _ _ _ _ _ (hlen ▸ hn)

/-! ## What an instruction's work comes to on a core that is ready -/

section OnReady
variable {c : OctCtx} {k : OctCore} {s t : State} {body tuber : OctCore → State → Eff} {f : OctCore → OctCore}

/-- The work ends: the core is changed and goes on. -/
theorem octipOn_main_ok (h : OctReady c k s) (hb : body k s = .ok f t) : octipOn c body tuber s = goesOn c k f t := by
  rw [octipOn_main c k s h, hb]
  rfl

/-- The work ends in a transfer. -/
theorem octipOn_main_jump {target : Word} (h : OctReady c k s) (hb : body k s = .jump f target t) :
    octipOn c body tuber s = goesTo c target f t := by
  rw [octipOn_main c k s h, hb]
  rfl

/-- The work raises an exception. -/
theorem octipOn_main_exc {code : Nat} {acc : Access} {bad : Word} (h : OctReady c k s)
    (hb : body k s = .exc code acc bad t) :
    octipOn c body tuber s = t.modCore (coreKey c) (takeException t.mBase code acc bad) := by
  rw [octipOn_main c k s h, hb]
  rfl

theorem octipOn_tuber_ok (h : TuberReady c k s) (hb : tuber k s = .ok f t) :
    octipOn c body tuber s = tuberGoesTo (nextPc c k) f t := by
  rw [octipOn_tuber c k s h, hb]
  rfl

theorem octipOn_tuber_jump {target : Word} (h : TuberReady c k s) (hb : tuber k s = .jump f target t) :
    octipOn c body tuber s = tuberGoesTo target f t := by
  rw [octipOn_tuber c k s h, hb]
  rfl

end OnReady

/-- Going on from the state the core stood in is retiring with the core changed. -/
theorem goesTo_eq_retiredAt (c : OctCtx) (k : OctCore) (s : State) (hcore : kvGet? s.cores (coreKey c) = some k) (pc : Word)
    (f : OctCore → OctCore) (hretire : (f k).retire = k.retire) : goesTo c pc f s = retiredAt c k (f k) pc s := by
  simp [goesTo, State.modCore, kvMod, hcore, retireTo, retiredAt, hretire]

theorem goesOn_eq_retired (c : OctCtx) (k : OctCore) (s : State) (hcore : kvGet? s.cores (coreKey c) = some k)
    (f : OctCore → OctCore) (hretire : (f k).retire = k.retire) : goesOn c k f s = retired c k (f k) s :=
  goesTo_eq_retiredAt c k s hcore _ f hretire

theorem tuberGoesTo_nextPc_eq_tuberRetired (c : OctCtx) (k : OctCore) (s : State) (hcore : s.tub.core = some k)
    (f : OctCore → OctCore) (hretire : (f k).retire = k.retire) :
    tuberGoesTo (nextPc c k) f s = tuberRetired c k (f k) s := by
  simp [tuberGoesTo, State.modTuber, hcore, retireTo, tuberRetired, hretire]

/-! ## Integer results (R346, R350) -/

/-- A `.v` form sets IOV exactly when the exact result does not fit in 64 bits. -/
theorem intEnds_ovFlag (c : OctCtx) (k : OctCore) (s : State) (d : Nat) (v : Word) (ov : Bool) (x : Int) :
    intEnds c k s d ⟨v, ovFlag ov x⟩ =
      .next (retiredOn c k (if ov = true ∧ ¬(-(2 : Int) ^ 63 ≤ x ∧ x < (2 : Int) ^ 63) then (k.setG d v).flag 0x100
        else k.setG d v) s) := by
  have hflag : ovFlag ov x = if ov = true ∧ ¬(-(2 : Int) ^ 63 ≤ x ∧ x < (2 : Int) ^ 63) then 0x100 else 0 := by
    simp only [ovFlag, Bool.and_eq_true, decide_eq_true_eq, not_and_or, not_le, not_lt]
    rfl
  rw [hflag]
  split_ifs
  · rfl
  · exact intEnds_plain c k s d v

/-- The high half of the exact signed product. -/
theorem ofInt_high_eq_signExtend_mul (a b : Word) :
    BitVec.ofInt 64 (a.toInt * b.toInt / 2 ^ 64) = ((a.signExtend 128 * b.signExtend 128) >>> 64).setWidth 64 := by
  have hproduct : a.signExtend 128 * b.signExtend 128 = BitVec.ofInt 128 (a.toInt * b.toInt) := by
    rw [BitVec.ofInt_mul, BitVec.signExtend, BitVec.signExtend]
  apply BitVec.eq_of_toNat_eq
  rw [hproduct, BitVec.toNat_setWidth, BitVec.toNat_ushiftRight, BitVec.toNat_ofInt, BitVec.toNat_ofInt, Nat.shiftRight_eq_div_pow]
  generalize a.toInt * b.toInt = x
  norm_num
  omega

/-- The high half of the exact unsigned product. -/
theorem ofNat_high_eq_setWidth_mul (a b : Word) :
    BitVec.ofNat 64 (a.toNat * b.toNat / 2 ^ 64) = ((a.setWidth 128 * b.setWidth 128) >>> 64).setWidth 64 := by
  have hlt : a.toNat * b.toNat < 2 ^ 128 := by
    calc a.toNat * b.toNat < 2 ^ 64 * 2 ^ 64 := Nat.mul_lt_mul'' a.isLt b.isLt
      _ = 2 ^ 128 := by norm_num
  apply BitVec.eq_of_toNat_eq
  simp only [BitVec.toNat_ofNat, BitVec.toNat_setWidth, BitVec.toNat_ushiftRight, BitVec.toNat_mul, Nat.shiftRight_eq_div_pow]
  rw [Nat.mod_eq_of_lt (a := a.toNat) (by omega), Nat.mod_eq_of_lt (a := b.toNat) (by omega), Nat.mod_eq_of_lt hlt]

/-- LIH joins the immediate's low half to the register's. -/
theorem shiftLeft_or_low32u (imm w : Word) : imm <<< 32 ||| low32u w = imm.setWidth 32 ++ w.setWidth 32 := by
  apply BitVec.eq_of_getLsbD_eq
  intro i hi
  have hupper : i - 32 < 32 := by omega
  simp only [low32u, BitVec.getLsbD_or, BitVec.getLsbD_shiftLeft, BitVec.getLsbD_append, BitVec.getLsbD_setWidth]
  by_cases h : i < 32 <;> simp [h, hi, hupper]

/-- Of equal words the signed minimum may be either. -/
theorem ite_toInt_le_eq_ite_slt (a b x y : Word) (h : a = b → x = y) :
    (if a.toInt ≤ b.toInt then x else y) = if a.slt b then x else y := by
  rcases lt_trichotomy a.toInt b.toInt with hlt | heq | hgt
  · simp [BitVec.slt, hlt, hlt.le]
  · simp [BitVec.slt, heq, h (BitVec.eq_of_toInt_eq heq)]
  · simp [BitVec.slt, hgt.not_ge, hgt.not_gt]

theorem ite_le_eq_ite_ult (a b x y : Word) (h : a = b → x = y) :
    (if a ≤ b then x else y) = if a.ult b then x else y := by
  rcases lt_trichotomy a.toNat b.toNat with hlt | heq | hgt
  · simp [BitVec.ult, BitVec.le_def, hlt, hlt.le]
  · simp [BitVec.ult, BitVec.le_def, heq, h (BitVec.eq_of_toNat_eq heq)]
  · simp [BitVec.ult, BitVec.le_def, hgt.not_ge, hgt.not_gt]

/-! ## Compares and predicates (R321) -/

/-- A compare with two registers, or p0 twice, writes the result and its complement. -/
theorem cmpBody_of_distinct (pt pf : Nat) (r : OctCore → Bool) (flags : OctCore → Word) (k : OctCore) (s : State)
    (h : pt ≠ pf ∨ pt = 0) :
    cmpBody pt pf r flags k s = .ok (fun x => ((x.setP pt (r k)).setP pf (!r k)).flag (flags k)) s :=
  if_neg fun hsame => h.elim (· hsame.1) hsame.2

/-- A compare that names one register twice is illegal. -/
theorem cmpBody_of_same (pt pf : Nat) (r : OctCore → Bool) (flags : OctCore → Word) (k : OctCore) (s : State)
    (h : pt = pf) (h0 : pt ≠ 0) : cmpBody pt pf r flags k s = .exc 1 .none 0 s :=
  if_pos ⟨h, h0⟩

/-- The outcome of a compare: the result, its complement and the flags. -/
def cmpEnds (c : OctCtx) (k : OctCore) (s : State) (pt pf : Nat) (r : Bool) (flags : Word) : Host.Outcome State Fault Refusal :=
  .next (retiredOn c k (((k.setP pt r).setP pf (!r)).flag flags) s)

theorem next_intCmp_eq_cmpEnds (c : OctCtx) (k : OctCore) (s : State) (h : OnCore c k s) (pt pf a : Nat) (b : Src)
    (hdistinct : pt ≠ pf ∨ pt = 0) (r : Word → Word → Bool) (res : Bool) (hres : r (k.gr a) (k.src b) = res) :
    Host.Outcome.next (intCmp c pt pf a b r s) = cmpEnds c k s pt pf res 0 := by
  rw [intCmp, cmpOp, cmpEnds, octip_onCore c k s h _ _ (cmpBody_of_distinct pt pf _ _ k s hdistinct) (by simp), hres]

theorem next_fpCmp_eq_cmpEnds (c : OctCtx) (k : OctCore) (s : State) (h : OctReady c k s) (f32 strict : Bool)
    (pt pf a b : Nat) (hdistinct : pt ≠ pf ∨ pt = 0) (r : FpVal → FpVal → Bool) (res : Bool)
    (hres : r (k.fv f32 a) (k.fv f32 b) = res) :
    Host.Outcome.next (fpCmp c f32 strict pt pf a b r s) = cmpEnds c k s pt pf res
      (if strict && ((k.fv f32 a).isNan || (k.fv f32 b).isNan) then flagNV else snanFlag [k.fv f32 a, k.fv f32 b]) := by
  rw [fpCmp, octipNotS, octipOn_main_ok h (cmpBody_of_distinct pt pf _ _ k s hdistinct),
    goesOn_eq_retired c k s h.2.1 _ (by simp), cmpEnds, retiredOn, if_neg h.1, hres]

/-- A signalling NaN is a NaN. -/
theorem snanFlag_of_not_nan (x y : FpVal) (hx : x.isNan = false) (hy : y.isNan = false) : snanFlag [x, y] = 0 := by
  cases x <;> cases y <;> simp_all [snanFlag, FpVal.isNan]

/-- NV of the ordered compares: any NaN. -/
theorem strict_flags_eq (x y : FpVal) :
    (if true && (x.isNan || y.isNan) then flagNV else snanFlag [x, y]) = if x.isNan || y.isNan then 0x10 else 0 := by
  cases hx : x.isNan
  · cases hy : y.isNan
    · simp [snanFlag_of_not_nan x y hx hy]
    · rfl
  · rfl

/-! ## Floating point (R344, R353) -/

/-- A binary32 result stands under all ones. -/
theorem fpBox_eq (f32 : Bool) (v : Nat) :
    fpBox f32 v = if f32 then (0xFFFFFFFF : BitVec 32) ++ BitVec.ofNat 32 v else BitVec.ofNat 64 v := by
  cases f32
  · rfl
  · have hlow : v % 2 ^ 32 < 2 ^ 32 := Nat.mod_lt _ (by decide)
    apply BitVec.eq_of_toNat_eq
    rw [fpBox, if_pos rfl, if_pos rfl, BitVec.toNat_append, BitVec.toNat_ofNat, BitVec.toNat_ofNat,
      ← Nat.shiftLeft_add_eq_or_of_lt hlow, Nat.shiftLeft_eq, show (0xFFFFFFFF : BitVec 32).toNat = 0xFFFFFFFF from rfl]
    omega

/-- The outcome of an instruction that writes f[D], and of one that writes g[D] from f registers. -/
def fpEnds (c : OctCtx) (k : OctCore) (s : State) (d : Nat) (single : Bool) (r : FpRes) : Host.Outcome State Fault Refusal :=
  .next (retired c k ((k.setF d (if single then (0xFFFFFFFF : BitVec 32) ++ BitVec.ofNat 32 r.val
    else BitVec.ofNat 64 r.val)).flag r.flags) s)

theorem next_fpOp_eq_fpEnds (c : OctCtx) (k : OctCore) (s : State) (h : OctReady c k s) (f32 : Bool) (d : Nat)
    (r : OctCore → FpRes) : Host.Outcome.next (fpOp c f32 d r s) = fpEnds c k s d f32 (r k) := by
  rw [fpOp, octipNotS, octipOn_main_ok h rfl, goesOn_eq_retired c k s h.2.1 _ (by simp), fpBox_eq, fpEnds]

theorem next_fpToG_eq_retired (c : OctCtx) (k : OctCore) (s : State) (h : OctReady c k s) (d : Nat) (r : OctCore → IntRes) :
    Host.Outcome.next (φ := Fault) (ρ := Refusal) (fpToG c d r s) =
      .next (retired c k ((k.setG d (r k).val).flag (r k).flags) s) := by
  rw [fpToG, octipNotS, octipOn_main_ok h rfl, goesOn_eq_retired c k s h.2.1 _ (by simp)]

theorem fpEnds_bits (c : OctCtx) (k : OctCore) (s : State) (d : Nat) (v : Word) :
    fpEnds c k s d false ⟨v.toNat, 0⟩ = .next (retired c k (k.setF d v) s) := by
  rw [fpEnds, flag_zero, if_neg Bool.false_ne_true, BitVec.ofNat_toNat, BitVec.setWidth_eq]

theorem next_fpToG_plain (c : OctCtx) (k : OctCore) (s : State) (h : OctReady c k s) (d : Nat) (v : OctCore → Word) :
    Host.Outcome.next (φ := Fault) (ρ := Refusal) (fpToG c d (fun k => plain (v k)) s) =
      .next (retired c k (k.setG d (v k)) s) := by
  rw [next_fpToG_eq_retired c k s h, plain, flag_zero]

theorem next_octipNotS_tuber (c : OctCtx) (k : OctCore) (s : State) (h : TuberReady c k s) (body : OctCore → State → Eff) :
    Host.Outcome.next (φ := Fault) (ρ := Refusal) (octipNotS c body s) = .next (s.modTuber (enterTuber 0x100 k.pc 0x01 0)) := by
  rw [octipNotS_tuber c k s h]

end Sys2Proof.Machine

open Sys2Proof Sys2Proof.Machine

/-- Settles O1: the `.v` forms are their exact results through `ovFlag`; the others are plain values. -/
theorem intArithmeticWritesLowBits : Obligations.IntArithmeticWritesLowBits := by
  intro c k s h ov d a b imm
  refine ⟨?add, ?sub, ?neg, ?mul, ?mulh, ?mulhu, ?addi⟩
  case add => exact (next_intOp_eq_intEnds c k s h d _).trans (intEnds_ovFlag ..)
  case sub => exact (next_intOp_eq_intEnds c k s h d _).trans (intEnds_ovFlag ..)
  case neg =>
    rw [show 0 - k.gr a = -k.gr a from BitVec.zero_sub _]
    exact (next_intOp_eq_intEnds c k s h d _).trans (intEnds_ovFlag ..)
  case mul => exact (next_intOp_eq_intEnds c k s h d _).trans (intEnds_ovFlag ..)
  case mulh => exact next_intOp_plain c k s h d _ _ (ofInt_high_eq_signExtend_mul _ _)
  case mulhu => exact next_intOp_plain c k s h d _ _ (ofNat_high_eq_setWidth_mul _ _)
  case addi => exact next_intOp_plain c k s h d _ _ rfl

/-- Settles O2: only the minima, the maxima and LIH are written otherwise in the model. -/
theorem intLogicAndMovesWriteResult : Obligations.IntLogicAndMovesWriteResult := by
  intro c k s h d a b imm
  have plainly (v : OctCore → Word) (w : Word) (hv : v k = w) := next_intOp_plain c k s h d v w hv
  refine ⟨plainly _ _ rfl, plainly _ _ rfl, plainly _ _ rfl, plainly _ _ rfl, ?min, ?max, ?minu, ?maxu, plainly _ _ rfl,
    plainly _ _ rfl, plainly _ _ rfl, plainly _ _ rfl, plainly _ _ rfl, ?lih, plainly _ _ rfl, plainly _ _ rfl⟩
  case min => exact plainly _ _ (ite_toInt_le_eq_ite_slt _ _ _ _ id)
  case max => exact plainly _ _ (ite_toInt_le_eq_ite_slt _ _ _ _ Eq.symm)
  case minu => exact plainly _ _ (ite_le_eq_ite_ult _ _ _ _ id)
  case maxu => exact plainly _ _ (ite_le_eq_ite_ult _ _ _ _ Eq.symm)
  case lih => exact plainly _ _ (shiftLeft_or_low32u _ _)

/-- Settles O5: two distinct registers (or p0 twice) are written, one register twice is illegal, and Octip-S has no
floating-point compare. -/
theorem comparesWriteResultAndComplement : Obligations.ComparesWriteResultAndComplement := by
  intro c k s pt pf a
  refine ⟨?integer, ?floating, ?same, ?tuber⟩
  case integer =>
    intro h hdistinct b
    have ends (r : Word → Word → Bool) (res : Bool) (hres : r (k.gr a) (k.src b) = res) :=
      next_intCmp_eq_cmpEnds c k s h pt pf a b hdistinct r res hres
    exact ⟨ends _ _ rfl, ends _ _ (by simp [bne, BEq.beq]), ends _ _ rfl, ends _ _ rfl, ends _ _ rfl, ends _ _ rfl⟩
  case floating =>
    intro h hdistinct f32 b
    have ends (strict : Bool) (r : FpVal → FpVal → Bool) (res : Bool) (hres : r (k.fv f32 a) (k.fv f32 b) = res) :=
      next_fpCmp_eq_cmpEnds c k s h f32 strict pt pf a b hdistinct r res hres
    have hordered : ordered (k.fv f32 a) (k.fv f32 b) = !((k.fv f32 a).isNan || (k.fv f32 b).isNan) := by
      rw [ordered, Bool.not_or]
    have hflags (res : Bool) := congrArg (cmpEnds c k s pt pf res) (strict_flags_eq (k.fv f32 a) (k.fv f32 b))
    exact ⟨ends false _ _ (by rw [hordered]), (ends true _ _ (by rw [hordered])).trans (hflags _),
      (ends true _ _ (by rw [hordered])).trans (hflags _), ends false _ _ (by rw [hordered, Bool.not_not])⟩
  case same =>
    rintro h hsame h0 f32 b b' i hi
    have illegal_ (r : OctCore → Bool) (flags : OctCore → Word) (tuber : OctCore → State → Eff) :
        Host.Outcome.next (φ := Fault) (ρ := Refusal) (octipOn c (cmpBody pt pf r flags) tuber s) = .next (s.modCore (coreKey c) (takeException s.mBase 0x01 .none 0)) := by
      rw [octipOn_main_exc h (cmpBody_of_same pt pf r flags k s hsame h0)]
    simp only [List.mem_cons, List.not_mem_nil, or_false] at hi
    rcases hi with rfl | rfl | rfl | rfl | rfl | rfl | rfl | rfl | rfl | rfl <;> exact illegal_ _ _ _
  case tuber =>
    intro h f32 b i hi
    fin_cases hi <;> exact next_octipNotS_tuber c k s h _

/-- Settles O6: each operation is one `predOp`, which writes p[D] or, for p0, nothing. -/
theorem predicateOperationsWriteP : Obligations.PredicateOperationsWriteP := by
  intro c k s h d a b
  have ends (r : OctCore → Bool) (res : Bool) (hres : r k = res) :
      Host.Outcome.next (φ := Fault) (ρ := Refusal) (predOp c d r s) =
        .next (retiredOn c k (if d = 0 then k else { k with p := k.p.set d res }) s) := by
    rw [predOp_onCore c k s h, hres, OctCore.setP]
  refine ⟨ends _ _ rfl, ends _ _ rfl, ends _ _ (by simp), ends _ _ rfl, ends _ _ ?_⟩
  rw [Nat.testBit_zero, beq_eq_decide]

/-- Settles O7: reads after writes of the three register files, one lemma each. -/
theorem hardWiredRegistersDiscardWrites : Obligations.HardWiredRegistersDiscardWrites := by
  intro k v b
  exact ⟨⟨rfl, rfl, rfl, rfl⟩, fun hlen n m => gr_setG k v hlen n m, fun hlen n m => pr_setP k b hlen n m,
    fun hlen n m => fr_setF k v hlen n m⟩

/-- Settles O8: each instruction is one `fpOp` or `fpToG`, whose end is said once. -/
theorem floatingPointWritesRoundedResult : Obligations.FloatingPointWritesRoundedResult := by
  intro c k s f32 d a b e
  refine ⟨fun h => ?main, fun h i hi => ?tuber⟩
  case main =>
    have ends (single : Bool) (r : OctCore → FpRes) := next_fpOp_eq_fpEnds c k s h single d r
    have endsG (r : OctCore → IntRes) := next_fpToG_eq_retired c k s h d r
    exact ⟨ends _ _, ends _ _, ends _ _, ends _ _, ends _ _, ends _ _, ends _ _, ends _ _, ends _ _, ends _ _, ends _ _,
      ends _ _, ends _ _, ends _ _, ends _ _, (ends false _).trans (fpEnds_bits ..), next_fpToG_plain c k s h d _,
      endsG _, endsG _⟩
  case tuber => fin_cases hi <;> exact next_octipNotS_tuber c k s h _

end

section
/-!
The instructions of the core that reach beyond its registers: stores, atomic operations, transfers, fences, exceptions and returns,
the TLBs, IN and OUT, and how a core starts and is interrupted.
-/

namespace Sys2Proof.Machine

/-! ## How a command that ends in `settle` comes out -/

section Ends
variable {c : OctCtx} {k k' : OctCore} {s t : State} {body tuber : OctCore → State → Eff} {f : OctCore → OctCore} {target : Word}

/-- The outcome of a command that ends in `settle`. -/
abbrev settlesTo (t : State) : Host.Outcome State Fault Refusal := .next (settle t)

theorem settlesTo_congr {t u : State} (h : t = u) : settlesTo t = settlesTo u := congrArg settlesTo h

theorem settlesTo_ok (h : OctReady c k s) (hb : body k s = .ok f t) :
    settlesTo (octipOn c body tuber s) = settlesTo (goesOn c k f t) :=
  settlesTo_congr (octipOn_main_ok h hb)

theorem settlesTo_retired (h : OctReady c k s) (hb : body k s = .ok f s) (hk : f k = k') (hretire : k'.retire = k.retire) :
    settlesTo (octipOn c body tuber s) = settlesTo (retired c k k' s) := by
  subst hk
  exact (settlesTo_ok h hb).trans (settlesTo_congr (goesOn_eq_retired c k s h.2.1 f hretire))

theorem settlesTo_jump (h : OctReady c k s) (hb : body k s = .jump f target t) :
    settlesTo (octipOn c body tuber s) = settlesTo (goesTo c target f t) :=
  settlesTo_congr (octipOn_main_jump h hb)

theorem settlesTo_exc {code : Nat} {acc : Access} {bad : Word} (h : OctReady c k s) (hb : body k s = .exc code acc bad t) :
    settlesTo (octipOn c body tuber s) = settlesTo (t.modCore (coreKey c) (takeException t.mBase code acc bad)) :=
  settlesTo_congr (octipOn_main_exc h hb)

theorem settlesTo_tuber_ok (h : TuberReady c k s) (hb : tuber k s = .ok f t) :
    settlesTo (octipOn c body tuber s) = settlesTo (tuberGoesTo (nextPc c k) f t) :=
  settlesTo_congr (octipOn_tuber_ok h hb)

theorem settlesTo_tuber_jump (h : TuberReady c k s) (hb : tuber k s = .jump f target t) :
    settlesTo (octipOn c body tuber s) = settlesTo (tuberGoesTo target f t) :=
  settlesTo_congr (octipOn_tuber_jump h hb)

theorem settlesTo_octipNotS_tuber (h : TuberReady c k s) :
    settlesTo (octipNotS c body s) = settlesTo (s.modTuber (enterTuber 0x100 k.pc 0x01 0)) :=
  settlesTo_congr (octipNotS_tuber c k s h body)

end Ends

/-! ## Stores (R371, R372) -/

theorem length_leBytes (n v : Nat) : (leBytes n v).length = n := by
  induction n generalizing v with
  | zero => rfl
  | succ n ih => simp [leBytes, ih]

theorem take_leBytes (n v : Nat) : (leBytes n v).take n = leBytes n v :=
  List.take_of_length_le (length_leBytes n v).le

/-- One piece that is no half of a 16-byte block stays a piece. -/
theorem bufferPieces_single (rel : Bool) (pa n : Nat) (d : List Byte) (c : OctCore) :
    bufferPieces rel [(pa, n)] d c = { c with buf := c.buf ++ [{ addr := pa, data := d.take n, rel := rel }] } := rfl

/-- An ST that does not follow the ST of its low half is an entry of its own. -/
theorem bufferStore_of_not_joins (rel : Bool) (pa n v : Nat) (c : OctCore)
    (h : ∀ e, ¬(n = 8 ∧ c.buf.getLast? = some e ∧ pa % 16 = 8 ∧ e.addr + 8 = pa ∧ e.rel = rel ∧ e.half = some c.retire)) :
    bufferStore rel [(pa, n)] (leBytes n v) c =
      { c with buf := c.buf ++ [{ addr := pa, data := leBytes n v, rel := rel
                                  half := if n = 8 ∧ pa % 16 = 0 ∧ pa < dramSize then some (c.retire + 1) else none }] } := by
  by_cases h8 : n = 8
  · subst h8
    cases hlast : c.buf.getLast? with
    | none =>
      have hempty : c.buf = [] := List.getLast?_eq_none_iff.1 hlast
      simp [bufferStore, hempty]
    | some e =>
      have hne := h e
      simp only [true_and, hlast] at hne
      simp [bufferStore, hlast, hne]
  · have hpieces : bufferStore rel [(pa, n)] (leBytes n v) c = bufferPieces rel [(pa, n)] (leBytes n v) c := by
      unfold bufferStore
      split
      · simp_all
      · simp_all
      · rfl
    rw [hpieces, bufferPieces_single, take_leBytes, if_neg (by simp [h8])]

/-- An ST that follows the ST of its low half joins it. -/
theorem bufferStore_of_joins (rel : Bool) (pa : Nat) (d : List Byte) (c : OctCore) (e : BufStore)
    (hlast : c.buf.getLast? = some e) (h : pa % 16 = 8 ∧ e.addr + 8 = pa ∧ e.rel = rel ∧ e.half = some c.retire) :
    bufferStore rel [(pa, 8)] d c = { c with buf := c.buf.dropLast ++ [{ e with data := e.data ++ d, half := none }] } := by
  simp [bufferStore, hlast, h]

/-- An ST cut in two is two entries. -/
theorem bufferStore_pair (rel : Bool) (p q m n : Nat) (d : List Byte) (c : OctCore) :
    bufferStore rel [(p, m), (q, n)] d c =
      { c with buf := c.buf ++ [{ addr := p, data := d.take m, rel := rel }, { addr := q, data := (d.drop m).take n, rel := rel }] } := by
  have hpieces : bufferStore rel [(p, m), (q, n)] d c = bufferPieces rel [(p, m), (q, n)] d c := by
    unfold bufferStore
    split <;> simp_all
  rw [hpieces, bufferPieces, bufferPieces, bufferPieces, List.append_assoc]
  rfl

/-- A store whose access passes its checks. -/
theorem storeOp_of_reaches {s : State} {k : OctCore} {acc : Access} {va : Word} {n : Nat} {l : List (Nat × Nat)}
    (h : Reaches s k .write acc true false va n l) (put : List (Nat × Nat) → OctCore → OctCore) :
    storeOp acc va n put k s = .ok (put l) s := by
  rw [storeOp, h]

theorem opSt_of_reaches {c : OctCtx} {k : OctCore} {s : State} (h : OctReady c k s) {size a d : Nat} {rl : Bool} {off : Word}
    {l : List (Nat × Nat)} (hl : Reaches s k .write .store true false (k.gr a + off) (2 ^ size) l) (k' : OctCore)
    (hput : bufferStore rl l (leBytes (2 ^ size) (k.gr d).toNat) k = k') (hretire : k'.retire = k.retire) :
    exec (.opSt c size rl d a off) s = .next (settle (retired c k k' s)) := by
  exact settlesTo_retired h (storeOp_of_reaches hl _) hput hretire

/-! ## Atomic operations (R405, R406) -/

/-- An atomic operation whose checks pass and whose core has drained is `amoAt`. -/
theorem amoOp_of_ok {c : OctCtx} {k : OctCore} {s t u : State} {m : AmoOp} {pa : Nat} {l : List (Nat × Nat)} {g : OctCore → OctCore}
    {f : OctCore → AmoFun} (h : OctReady c k s)
    (hl : Reaches s k .both .amo true true (k.gr m.a) (if m.eight then 8 else 4) ((pa, if m.eight then 8 else 4) :: l))
    (hdrain : drainCore (coreKey c) s = (true, t)) (hat : amoAt c m (f k) (k.gr m.a) pa k t = some (.ok g u)) (i : Instr) :
    amoOp i c m f s = goesOn c k g u := by
  refine octipOn_main_ok h ?_
  simp only [hl, hdrain, hat]
  rfl

/-- An 8-byte operation near its line reads and writes the line's eight bytes. -/
theorem amoAt_near {c : OctCtx} {k : OctCore} {s u : State} {m : AmoOp} (f : AmoFun) {pa : Nat} {e : L2Line}
    (height : m.eight = true) (hhint : m.hint = 1) (hline : acquire c.pod (lineOf pa) true s = some u)
    (hcopy : u.coh.l2At c.pod (lineOf pa) = some e) (hclean : e.poison = false) :
    amoAt c m f (k.gr m.a) pa k s =
      (let old := BitVec.ofNat 64 (fieldAt e.data (pa % 128) 8)
       let counted := trainPred c.pod (coreKey c) (k.gr m.a) (lineOf pa) (u.bump .COH_AMO_NEAR_COUNT)
       let drawn := { counted with free := counted.free + 1 }
       some (.ok (fun x => x.setG m.d old)
        (match f old (k.gr m.b) with
          | none => drawn
          | some v => modifyLine c.pod (lineOf pa) (pa % 128) (leBytes 8 v.toNat) drawn))) := by
  have hnear : runsFar m (coreKey c) (k.gr m.a) s = false := if_pos hhint
  have hbytes (v : Word) : v.toNat % 18446744073709551616 = v.toNat := Nat.mod_eq_of_lt v.isLt
  simp [amoAt, hnear, hline, hcopy, hclean, height, amoVal, State.draw, hbytes] <;> rfl

/-! ## Transfers (R329, R330) -/

theorem transfer_of_even {f : OctCore → OctCore} {t : Word} {s : State} (h : t.toNat % 2 = 0) : transfer f t s = .jump f t s :=
  if_neg (by omega)

theorem transfer_of_odd {f : OctCore → OctCore} {t : Word} {s : State} (h : t.toNat % 2 = 1) :
    transfer f t s = .exc 0x0C .none t s :=
  if_pos h

theorem callTo_of_odd {c : OctCtx} {k : OctCore} {t : Word} {s : State} (h : t.toNat % 2 = 1) :
    callTo c t k s = .exc 0x0C .none t s :=
  if_pos h

theorem callTo_of_even {c : OctCtx} {k : OctCore} {t : Word} {s : State} {l : List (Nat × Nat)} (h : t.toNat % 2 = 0)
    (hl : Reaches s k .write .push true false (k.gr 31 - 8) 8 l) (hclean : piecesPoisoned l s = false) :
    callTo c t k s =
      .jump (fun x => bufferPieces false l (leBytes 8 (nextPc c k).toNat) (x.setG 31 (k.gr 31 - 8))) t s := by
  rw [callTo]
  rw [if_neg (by omega), hl]
  simp [hclean]

theorem tuberCall_of_even {c : OctCtx} {k : OctCore} {t : Word} {s : State} (h : t.toNat % 2 = 0)
    (hok : tuberFault true (k.gr 31 - 8) 8 = none) :
    tuberCall c t k s =
      .jump (fun x => x.setG 31 (k.gr 31 - 8)) t (tuberWrite (k.gr 31 - 8) (leBytes 8 (nextPc c k).toNat) s) := by
  rw [tuberCall]
  rw [if_neg (by omega), hok]

end Sys2Proof.Machine

open Sys2Proof Sys2Proof.Machine

/-- Settles O12: the access reaches its address, and the store buffer takes it whole, joined or in two pieces. -/
theorem storesEnterTheStoreBuffer : Obligations.StoresEnterTheStoreBuffer := by
  intro c k s size d a rl off
  refine ⟨?whole, ?cut, ?sti, ?tuber, ?illegal⟩
  case whole =>
    intro h pa hl
    refine ⟨fun hjoins => opSt_of_reaches h hl _ (bufferStore_of_not_joins rl pa _ _ k hjoins) rfl, fun e hjoins => ?joins,
      fun hsize => ?fst⟩
    case joins =>
      obtain ⟨h8, hlast, hjoins⟩ := hjoins
      rw [h8] at hl
      refine opSt_of_reaches h (by rw [h8]; exact hl) _ ?_ rfl
      rw [h8]
      exact bufferStore_of_joins rl pa _ k e hlast hjoins
    case fst =>
      refine settlesTo_retired h ((if_neg (by omega)).trans (storeOp_of_reaches hl _)) ?_ rfl
      rw [bufferPieces_single, sizeBytes, take_leBytes]
  case cut =>
    intro h p q m _ _ hl
    exact opSt_of_reaches h hl _ (bufferStore_pair rl p q m _ _ k) rfl
  case sti =>
    intro h hlevel hsize l t hl ht
    refine settlesTo_ok h ?_
    simp [hsize, hlevel, sizeBytes, hl, ht]
  case tuber =>
    intro h hok
    refine settlesTo_tuber_ok h ?_
    simp [tuberStore, sizeBytes, hok]
  case illegal =>
    intro h i hi
    fin_cases hi <;> exact settlesTo_octipNotS_tuber h

/-- Settles O13: what `amoAt` answers is what the instruction ends with, and a near line is read and written in place. -/
theorem atomicsApplyTheirOperation : Obligations.AtomicsApplyTheirOperation := by
  refine ⟨?runs, fun c k s u m f pa e height hhint hline hcopy hclean => amoAt_near f height hhint hline hcopy hclean⟩
  case runs =>
    intro c k s t m e pa l h hl hdrain
    have runs {i : Instr} {f : OctCore → AmoFun} (g : OctCore → OctCore) (u : State)
        (hat : amoAt c m (f k) (k.gr m.a) pa k t = some (.ok g u)) :
        settlesTo (amoOp i c m f s) = settlesTo (goesOn c k g u) :=
      settlesTo_congr (amoOp_of_ok h hl hdrain hat i)
    refine ⟨?_, ?_, ?_, ?_, ?_, ?_, ?_, ?_⟩ <;> exact fun g u hat => runs g u hat

/-- Settles O14: a jump or a call to an even target goes there, to an odd one it faults before it pushes. -/
theorem transfersAndCalls : Obligations.TransfersAndCalls := by
  intro c k s a off sp next target jump call r
  refine ⟨fun h heven => ⟨?jump, fun l hl hclean => ?call⟩, fun h hodd i hi => ?odd, fun h heven => ⟨?tuberJump, fun hok => ?tuberCall⟩⟩
  case jump => cases r <;> exact settlesTo_jump h (transfer_of_even heven)
  case call => cases r <;> exact settlesTo_jump h (callTo_of_even heven hl hclean)
  case odd =>
    rcases List.mem_pair.1 hi with rfl | rfl
    · cases r <;> exact settlesTo_exc h (transfer_of_odd hodd)
    · cases r <;> exact settlesTo_exc h (callTo_of_odd hodd)
  case tuberJump => cases r <;> exact settlesTo_tuber_jump h (transfer_of_even heven)
  case tuberCall => cases r <;> exact settlesTo_tuber_jump h (tuberCall_of_even heven hok)

/-- Settles O15: the drain decides the fences, and the others retire. -/
theorem fencesAndWaitsComplete : Obligations.FencesAndWaitsComplete := by
  intro c k s
  refine ⟨fun h t hdrain => ⟨?fence, fun hmram => ?fenceC⟩, fun h => ⟨?isync, ?wfi⟩, fun h i hi => ?tuber⟩
  case fence => exact settlesTo_ok h (by rw [hdrain])
  case fenceC => exact settlesTo_ok h (by rw [hdrain]; exact if_pos hmram)
  case isync => exact settlesTo_retired h rfl rfl rfl
  case wfi => exact settlesTo_retired h rfl rfl (by split_ifs <;> rfl)
  case tuber =>
    have retires {body : OctCore → State → Eff} :
        settlesTo (octipOn c body (pureOp id) s) = settlesTo (tuberRetired c k k s) :=
      (settlesTo_tuber_ok h rfl).trans (settlesTo_congr (tuberGoesTo_nextPc_eq_tuberRetired c k s h.2.2.1 id rfl))
    fin_cases hi <;> exact retires

end

section
/-!
Exceptions by instruction (MCALL, BRK), ERET, the TLB instructions, IN and OUT, and how a core starts and is interrupted.
-/

namespace Sys2Proof.Machine

/-! ## Entering a vector and returning (R331, R333, R335, R336) -/

/-- A change of a core that exists writes it back. -/
theorem modCore_eq (n : Nat) (f : OctCore → OctCore) (k : OctCore) (s : State) (hcore : kvGet? s.cores n = some k) :
    s.modCore n f = { s with cores := kvSet s.cores n (f k) } := by
  simp [State.modCore, kvMod, hcore]

theorem entryStatus_of_not_miss (w : Word) (pl : Nat) (h : stTlbm w = false) : entryStatus w pl false = BitVec.ofNat 64 pl := by
  simp [entryStatus, h]

theorem entryStatus_of_miss (w : Word) (pl : Nat) (h : stTlbm w = true) :
    entryStatus w pl false = BitVec.ofNat 64 (pl + 32) := by
  simp [entryStatus, h]

/-- MCALL's entry while TLBM is 0. -/
theorem takeMcall_eq (base next service : Word) (k : OctCore) (h : stTlbm k.status = false) :
    takeMcall base next service k =
      { k with estatusM := k.status, epcM := next, causeM := 0x0D, badM := service, status := 2, pc := base + 0x80 } := by
  rw [takeMcall, if_neg (by simp [h]), enterM, entryStatus_of_not_miss _ _ h]
  rfl

/-- A breakpoint: a double fault while TLBM is 1, at M or in an enclave to M, else to S. -/
theorem takeException_breakpoint (base bad : Word) (k : OctCore) :
    takeException base 0x0F .none bad k =
      if stTlbm k.status then
        { k with estatusM := k.status, epcM := k.pc, causeM := 0x0F0010, badM := bad, status := 0x22, pc := base + 0x100 }
      else if stPl k.status = 2 ∨ stWorld k.status ≠ 0 then
        { k with estatusM := k.status, epcM := k.pc, causeM := 0x0F, badM := bad, status := 2, pc := base + 0x180 }
      else
        { k with estatusS := k.status, epcS := k.pc, causeS := 0x0F, badS := bad, status := 1, pc := k.vbase + 0x100 } := by
  show (if stTlbm k.status then enterM (base + 0x100) k.pc (causeWord 0x10 0 0x0F false) bad k
    else if stPl k.status = 2 ∨ stWorld k.status ≠ 0 ∨ 0x0F = 0x0E then enterM (base + 0x180) k.pc (causeWord 0x0F 0 0 false) bad k
    else enterS (k.vbase + 0x100) k.pc (causeWord 0x0F 0 0 false) bad false k) = _
  simp only [show ¬(0x0F = 0x0E) by decide, or_false]
  split_ifs with hmiss h
  · rw [enterM, entryStatus_of_miss _ _ hmiss]
    rfl
  · rw [enterM, entryStatus_of_not_miss _ _ (Bool.eq_false_iff.2 hmiss)]
    rfl
  · rw [enterS, entryStatus_of_not_miss _ _ (Bool.eq_false_iff.2 hmiss)]
    rfl

section OnReady
variable {c : OctCtx} {k : OctCore} {s t : State} {body tuber : OctCore → State → Eff} {f : OctCore → OctCore}

/-- The work ends in a return: the restored status and pc stand in `f`. -/
theorem settlesTo_eret (h : OctReady c k s) (hb : body k s = .eret f s) (status pc : Word)
    (hf : f k = { k with status := status, pc := pc }) :
    settlesTo (octipOn c body tuber s) = settlesTo (retiredAt c k { k with status := status } pc s) := by
  refine settlesTo_congr ?_
  rw [octipOn_main c k s h, hb, finish, modCore_eq _ _ k s h.2.1, hf]
  rfl

end OnReady

theorem worldMode_iff (s : State) :
    s.worldMode = true ↔ s.mode = Mode.fiddlehead ∨ s.mode = Mode.maintenance ∨ s.mode = Mode.crust := by
  simp [State.worldMode, or_assoc]

/-! ## TLBs (R382 to R384) -/

theorem wbits_low16 (w : Word) : wbits w 15 0 = w.toNat % 2 ^ 16 := by
  simp [wbits, bits]

/-! ## IN and OUT (R327, R328) -/

section IoCheck
variable (s : State) (k : OctCore) (out : Bool) (a n : Nat)

theorem ioCheck_misaligned (h : a % n ≠ 0) : ioCheck s k out a n = some 0x0C := if_pos h

theorem ioCheck_not_granted (h : a % n = 0) (hgrant : s.granted (stPl k.status) (a / 0x10000) = false) :
    ioCheck s k out a n = some 9 := by
  simp [ioCheck, h, hgrant]

theorem ioCheck_coherence (h : a % n = 0) (hgrant : s.granted (stPl k.status) (a / 0x10000) = true)
    (hcoh : 0x100800 ≤ a ∧ a < 0x100C00) (hlevel : stPl k.status ≠ 2) : ioCheck s k true a n = some 9 := by
  simp [ioCheck, h, hgrant, hcoh, hlevel]

/-- No rule of the coherence registers stands in the way of the access. -/
abbrev PassesCoherence : Prop := out = false ∨ ¬(0x100800 ≤ a ∧ a < 0x100C00) ∨ stPl k.status = 2

theorem coherence_test_of_passes (h : PassesCoherence k out a) :
    (out && decide (0x100800 ≤ a ∧ a < 0x100C00) && stPl k.status != 2) = false := by
  rcases h with h | h | h <;> simp [h]

theorem ioCheck_outside (h : a % n = 0) (hgrant : s.granted (stPl k.status) (a / 0x10000) = true)
    (hcoh : PassesCoherence k out a) (hoff : 0x800000 ≤ a) : ioCheck s k out a n = some 7 := by
  rw [ioCheck, if_neg (not_not.2 h), if_neg (by simp [hgrant]),
    if_neg (Bool.eq_false_iff.1 (coherence_test_of_passes k out a hcoh)), if_pos hoff]

theorem ioCheck_dark (h : a % n = 0) (hgrant : s.granted (stPl k.status) (a / 0x10000) = true)
    (hcoh : PassesCoherence k out a) (hon : a < 0x800000) (hdark : s.blockDark a = true) : ioCheck s k out a n = some 0x0A := by
  rw [ioCheck, if_neg (not_not.2 h), if_neg (by simp [hgrant]),
    if_neg (Bool.eq_false_iff.1 (coherence_test_of_passes k out a hcoh)), if_neg (Nat.not_le.2 hon), if_pos hdark]

theorem ioCheck_passes (h : a % n = 0) (hgrant : s.granted (stPl k.status) (a / 0x10000) = true)
    (hcoh : PassesCoherence k out a) (hon : a < 0x800000) (hlit : s.blockDark a = false) : ioCheck s k out a n = none := by
  rw [ioCheck, if_neg (not_not.2 h), if_neg (by simp [hgrant]),
    if_neg (Bool.eq_false_iff.1 (coherence_test_of_passes k out a hcoh)), if_neg (Nat.not_le.2 hon), if_neg (by simp [hlit])]

end IoCheck

/-- The address that an exception of IN or OUT reports. -/
theorem ofNat_toNat_word (w : Word) : BitVec.ofNat 64 w.toNat = w := by simp

/-! ## Interrupts (R336, R339) -/

theorem takeable_lt_seven {s : State} {key n : Nat} {k : OctCore} (h : s.takeable key k = some n) : n < 7 :=
  List.mem_range.1 (List.mem_of_find?_eq_some h)

theorem causeWord_interrupt (n : Nat) (h : n < 7) : causeWord n 0 0 true = BitVec.ofNat 64 (n + 2 ^ 63) := by
  rw [causeWord, Nat.mod_eq_of_lt (by omega)]
  rfl

/-- A core that takes interrupts has TLBM 0. -/
theorem not_stTlbm_of_intOpen {k : OctCore} (h : intOpen k = true) : stTlbm k.status = false := by
  simp only [intOpen, Bool.and_eq_true, Bool.not_eq_true'] at h
  exact h.2

/-- The entry into an interrupt: at S in the normal world, at M inside an enclave. -/
theorem takeInterrupt_eq (base : Word) (n : Nat) (k : OctCore) (hopen : intOpen k = true) (hn : n < 7) :
    takeInterrupt base n k =
      if stWorld k.status = 0 then
        { k with estatusS := k.status, epcS := k.pc, causeS := BitVec.ofNat 64 (n + 2 ^ 63), badS := 0, status := 1,
                 pc := k.vbase + 0x180 }
      else
        { k with estatusM := k.status, epcM := k.pc, causeM := BitVec.ofNat 64 (n + 2 ^ 63), badM := 0, status := 2,
                 pc := base + 0x200 } := by
  have hmiss := not_stTlbm_of_intOpen hopen
  rw [takeInterrupt, causeWord_interrupt n hn]
  by_cases hworld : stWorld k.status = 0
  · rw [if_neg (not_not.2 hworld), if_pos hworld, enterS, entryStatus_of_not_miss _ _ hmiss]
    rfl
  · rw [if_pos hworld, if_neg hworld, enterM, entryStatus_of_not_miss _ _ hmiss]
    rfl

end Sys2Proof.Machine

open Sys2Proof Sys2Proof.Machine

/-- Settles O16: the service call and the breakpoint enter by `takeMcall` and `takeException`. -/
theorem mcallAndBreakpointEnterTheirVectors : Obligations.McallAndBreakpointEnterTheirVectors := by
  intro c k s service h
  refine ⟨fun hmiss => ⟨fun hlevel => ?mcall, fun hlevel => ?illegal⟩, ?breakpoint⟩
  case mcall =>
    refine settlesTo_congr ?_
    rw [doOpMcall, octip, octipOn_main c k s h, if_neg hlevel, finish, modCore_eq _ _ k s h.2.1, takeMcall_eq _ _ _ k hmiss]
    simp [hmiss, retiredAt, nextPc]
  case illegal => exact settlesTo_exc h (if_pos hlevel)
  case breakpoint =>
    refine (settlesTo_exc h rfl).trans ?_
    rw [modCore_eq _ _ k s h.2.1, takeException_breakpoint]
    dsimp only
    split_ifs <;> rfl

/-- Settles O17: the level chooses the copies, and at M the world and the mode decide. -/
theorem eretRestoresStatus : Obligations.EretRestoresStatus := by
  intro c k s h
  refine ⟨fun hu => ?user, fun hs hlevel => ?supervisor, fun hm hlevel hworld => ?machine, fun hm hlevel hworld hmode => ?enclave⟩
  case user => exact settlesTo_exc h (if_pos hu)
  case supervisor =>
    refine settlesTo_eret h ((if_neg (by omega)).trans ((if_pos hs).trans (if_neg (by omega)))) _ _ ?_
    rfl
  case machine =>
    have hallowed : ¬(stWorld k.estatusM ≠ 0 ∧ (!s.worldMode) = true) := by
      rintro ⟨hne, hoff⟩
      rw [← worldMode_iff] at hworld
      rcases hworld with hworld | hworld <;> simp_all
    refine settlesTo_eret h ((if_neg (by omega)).trans ((if_neg (by omega)).trans ((if_neg hlevel).trans (if_neg hallowed)))) _ _ ?_
    rfl
  case enclave =>
    refine settlesTo_exc h ?_
    rw [← worldMode_iff] at hmode
    rw [if_neg (by omega), if_neg (by omega), if_neg hlevel, if_pos ⟨hworld, by simpa using hmode⟩]

/-- Settles O19: the slot a write takes and the entries an invalidation keeps, instruction by instruction. -/
theorem tlbInstructionsChangeTheirTlb : Obligations.TlbInstructionsChangeTheirTlb := by
  intro c k s itlb a b
  refine ⟨fun h hlevel => ⟨fun i hslot hroom => ?write, ?read, ?addr, ?tag, ?all, ?locked⟩, fun h hlevel i hi => ?user,
    fun h i hi => ?tuber⟩
  case write =>
    have hfound : tlbSlot (tlbOf k itlb) (tlbSize itlb) (tlbMake k.tlbhi k.tlblo k.stamp) = some i := hslot
    refine settlesTo_retired (f := fun x =>
      { setTlb x itlb (kvSet (tlbOf x itlb) i (tlbMake k.tlbhi k.tlblo k.stamp)) with stamp := x.stamp + 1 })
      h ((if_neg hlevel).trans ?_) rfl (by cases itlb <;> rfl)
    simp only [hfound]
    refine if_neg fun hfull => ?_
    rcases hroom with hroom | hroom
    · exact Bool.false_ne_true (hroom.symm.trans hfull.1)
    · exact absurd hfull.2 (Nat.not_le.2 hroom)
  case read => exact settlesTo_retired h (if_neg hlevel) rfl rfl
  case addr =>
    rw [← wbits_low16]
    exact settlesTo_retired h (if_neg hlevel) rfl (by cases itlb <;> rfl)
  case tag =>
    rw [← wbits_low16]
    exact settlesTo_retired h (if_neg hlevel) rfl (by cases itlb <;> rfl)
  case all => exact settlesTo_retired h (if_neg hlevel) (by simp only [tlbDrop, Bool.not_not]; rfl) (by cases itlb <;> rfl)
  case locked => exact settlesTo_retired h (if_neg hlevel) rfl (by cases itlb <;> rfl)
  case user => fin_cases hi <;> exact settlesTo_exc h (if_pos hlevel)
  case tuber => fin_cases hi <;> exact settlesTo_octipNotS_tuber h

/-- Settles O20: `ioCheck` answers the first check that fails, or lets the access pass. -/
theorem ioAccessesFollowTheChecks : Obligations.IoAccessesFollowTheChecks := by
  intro c k s d a size off h hsize at_ n v pl cohM raises passes
  have htwo : ¬ size < 2 := by omega
  have inRaises (code : Nat) (hcheck : ioCheck s k false at_ n = some code) : exec (.opIn c size d a off) s = raises code .input := by
    refine settlesTo_exc h ((if_neg htwo).trans ?_)
    rw [inOp, sizeBytes, hcheck, ofNat_toNat_word]
  have outRaises (code : Nat) (hcheck : ioCheck s k true at_ n = some code) :
      exec (.opOut c size d a off) s = raises code .output := by
    refine settlesTo_exc h ((if_neg htwo).trans ?_)
    rw [outOp, sizeBytes, hcheck, ofNat_toNat_word]
  refine ⟨?inPasses, ?outPasses,
    fun hodd => ⟨inRaises _ (ioCheck_misaligned _ _ _ _ _ hodd), outRaises _ (ioCheck_misaligned _ _ _ _ _ hodd)⟩,
    fun heven hgrant => ⟨inRaises _ (ioCheck_not_granted _ _ _ _ _ heven hgrant),
      outRaises _ (ioCheck_not_granted _ _ _ _ _ heven hgrant)⟩,
    fun heven hgrant hcoh hlevel => outRaises _ (ioCheck_coherence _ _ _ _ heven hgrant hcoh hlevel),
    fun heven hgrant hoff => ⟨inRaises _ (ioCheck_outside _ _ _ _ _ heven hgrant (.inl rfl) hoff),
      outRaises _ (ioCheck_outside _ _ _ _ _ heven hgrant (.inr (.inl (by omega))) hoff)⟩,
    fun heven hgrant hon hcoh hdark => ⟨inRaises _ (ioCheck_dark _ _ _ _ _ heven hgrant (.inl rfl) hon hdark),
      outRaises _ (ioCheck_dark _ _ _ _ _ heven hgrant (.inr hcoh) hon hdark)⟩⟩
  case inPasses =>
    rintro ⟨heven, hgrant, hon, hlit⟩
    refine settlesTo_ok h ((if_neg htwo).trans ?_)
    rw [inOp, sizeBytes, ioCheck_passes _ _ _ _ _ heven hgrant (.inl rfl) hon hlit]
  case outPasses =>
    rintro ⟨heven, hgrant, hon, hlit⟩ hcoh hmaint
    refine settlesTo_ok h ((if_neg htwo).trans ?_)
    rw [outOp, sizeBytes, ioCheck_passes _ _ _ _ _ heven hgrant (.inr hcoh) hon hlit]
    exact if_neg hmaint

/-- Settles O24: the guards of each start and interrupt hold, so its effect follows. -/
theorem coresStartAndTakeInterrupts : Obligations.CoresStartAndTakeInterrupts := by
  intro pod core by_ s
  refine ⟨fun hup hpod hmode hcore => ?start, fun k n hk hrun hwait hopen htake => ?take, fun hfw hhas => ?ipi, fun k hk htimed => ?timecmp⟩
  case start =>
    refine settlesTo_congr (if_pos ?_)
    rcases hcore with hcore | hcore <;> simp_all
  case take =>
    refine settlesTo_congr ?_
    have hready : (k.run != .running || k.wait.isSome || !intOpen k) = false := by simp [hrun, hwait, hopen]
    rw [doInterruptTake, hk]
    simp only [hready, Bool.false_eq_true, if_false, htake]
    rw [modCore_eq _ _ k s hk, takeInterrupt_eq _ n k hopen (takeable_lt_seven htake)]
    by_cases hworld : stWorld k.status = 0
    · simp only [if_pos hworld]
    · simp only [if_neg hworld]
  case ipi =>
    refine settlesTo_congr ?_
    rw [doIpiRaise, if_pos hfw, raiseIpi, if_pos hhas]
  case timecmp =>
    refine settlesTo_congr ?_
    rw [doTimecmpMatch, hk]
    exact if_neg (by simp [htimed])

end

section
/-!
The coherent domain: maintenance line by line, the home and its messages, faults of the domain, and the checked pods (R391, R397 to
R436).
-/

namespace Sys2Proof.Machine

/-! ## Maintenance (R402 to R404) -/

/-- An access of a core to the COH registers a core may write at its level passes the checks of an OUT. -/
theorem ioCheck_maintenance (s : State) (k : OctCore) (a n : Nat) (haddr : a = 0x100400 ∧ n = 8 ∨ a = 0x100410 ∧ n = 4)
    (hgrant : s.granted (stPl k.status) 0x10 = true) (hpower : s.pdOn 18 = true) : ioCheck s k true a n = none := by
  rcases haddr with ⟨rfl, rfl⟩ | ⟨rfl, rfl⟩ <;>
    exact ioCheck_passes s k true _ _ (by decide) hgrant (.inr (.inl (by decide))) (by decide) (by simp [State.blockDark, hpower])

theorem mtCheck_of_badLen {op a len : Nat} {s : State} (h : len = 0 ∨ len % 128 ≠ 0 ∨ 2 ^ 30 < len) :
    mtCheck op a len s = some 1 := if_pos h

theorem mtCheck_of_badEnd {op a len : Nat} {s : State} (h : ¬(len = 0 ∨ len % 128 ≠ 0 ∨ 2 ^ 30 < len))
    (hend : dramSize < a + len) : mtCheck op a len s = some 2 := by
  rw [mtCheck, if_neg h, if_pos hend]

/-- The model's test of a ZERO over code regions. -/
theorem codeRegions_any_iff (a len : Nat) (s : State) :
    s.codeRegions.any (fun r => decide (a < r.limit) && decide (r.base < a + len)) = true ↔
      ∃ r ∈ s.codeRegions, a < r.limit ∧ r.base < a + len := by
  simp

theorem mtCheck_of_inCode {op a len : Nat} {s : State} (h : ¬(len = 0 ∨ len % 128 ≠ 0 ∨ 2 ^ 30 < len))
    (hend : ¬ dramSize < a + len) (hop : op = 4) (hcode : ∃ r ∈ s.codeRegions, a < r.limit ∧ r.base < a + len) :
    mtCheck op a len s = some 3 := by
  rw [mtCheck, if_neg h, if_neg hend, if_pos ⟨hop, (codeRegions_any_iff a len s).2 hcode⟩]

theorem mtCheck_passes {op a len : Nat} {s : State} (h : ¬(len = 0 ∨ len % 128 ≠ 0 ∨ 2 ^ 30 < len))
    (hend : ¬ dramSize < a + len) (hok : op ≠ 4 ∨ ¬∃ r ∈ s.codeRegions, a < r.limit ∧ r.base < a + len) :
    mtCheck op a len s = none := by
  rw [mtCheck, if_neg h, if_neg hend, if_neg]
  rintro ⟨hop, hcode⟩
  exact hok.elim (· hop) (· ((codeRegions_any_iff a len s).1 hcode))

/-- A maintenance command whose range is refused. -/
theorem mtRun_of_refused (i : Instr) (op : Nat) (c : OctCtx) (k : OctCore) (s : State) (r : Nat)
    (h : mtCheck op (s.getB .COH_MAINT_ADDR_ADDR (coreKey c) * 128) (s.getB .COH_MAINT_LEN_LEN (coreKey c))
      (s.setB .COH_MAINT_CMD_DONE (coreKey c) 0) = some r) :
    mtRun i op c k s = .ok id ((s.setB .COH_MAINT_CMD_DONE (coreKey c) 0).setB .COH_MAINT_CMD_RESULT (coreKey c) r) := by
  simp only [mtRun, h]

/-! ## The home of a line (R397, R398) -/

section Request
variable {pod line : Nat} {excl : Bool} {s : State} (hlive : s.cohLive pod line = true) (hcopy : s.coh.l2At pod line = none)
include hlive hcopy

/-- A request of another pod is under way: NACK. -/
theorem request_of_busy {x : DirTrans} (hbusy : (s.coh.dirAt line).trans = some x) (hother : x.pod ≠ pod) :
    request pod line excl s = nack pod line excl s := by
  simp [request, hlive, hcopy, hbusy, hother]

/-- The line waits for the token of another pod: NACK. -/
theorem request_of_token {r : CohReq} (htoken : s.coh.tokenOf line = some r) (hline : r.line = line) (hother : r.pod ≠ pod)
    (hquiet : (s.coh.dirAt line).trans = none) : request pod line excl s = nack pod line excl s := by
  simp [request, hlive, hcopy, htoken, hline, hother, hquiet]

/-- Nothing is in the way and the directory has room: the request is served. -/
theorem request_of_quiet {t : State} (htoken : s.coh.tokenOf line = none) (hquiet : (s.coh.dirAt line).trans = none)
    (hroom : dirRoom line s = some t) : request pod line excl s = serve pod line excl false t := by
  simp [request, hlive, hcopy, htoken, hquiet, hroom]

end Request

/-! ## Checked pods (R408, R418 to R430) -/

theorem cohAgentTimeout_of_up {agent : Nat} {s : State} (hup : s.coreUp = true) (hagent : agent ≤ 24) :
    doCohAgentTimeout agent s = raiseUe 24 2 0 0 0 0
      (if s.on .COH_DEAD_VALID then s else (s.set .COH_DEAD_AGENT agent).set .COH_DEAD_VALID 1) :=
  if_pos (by simp [hup, hagent])

/-- A failed physical pod does not stop the core domain. -/
theorem coreUp_failPhys (n : Nat) (s : State) : (failPhys n s).coreUp = s.coreUp := by
  rw [State.coreUp, failPhys, setPhys, State.setBitB, State.get, getB_setB_ne _ _ _ _ _ _ (by decide),
    getB_set_ne _ _ _ _ _ (by decide)]
  rfl

/-- A mismatch with the saved state intact, outside a sparing: a hard fault past what may be retried, else a retry. -/
theorem doLockstepMismatch_of_quiet {pod lanes retire : Nat} {s : State} (hchecked : s.checkedPod pod = true)
    (hquiet : (s.podAt pod).sparing = none) :
    doLockstepMismatch pod lanes retire false s =
      let noted := (s.setB .POD_STATUS_LANES pod lanes).setB .POD_STATUS_RETIRE pod retire
      let x := s.podAt pod
      if x.retry = 2 ∨ x.retry = 0 ∧ max 1 (noted.get .POD_RETRY_CTL_LIMIT) < x.recent.length then
        hardFault pod 1 (noted.setB .POD_STATUS_COMPFAULT pod 0)
      else noted.modPod pod (fun x => { x with retry := x.retry + 1 }) := by
  have hnoted : ((s.setB .POD_STATUS_LANES pod lanes).setB .POD_STATUS_RETIRE pod retire).podAt pod = s.podAt pod := rfl
  rw [doLockstepMismatch, hchecked]
  simp only [hnoted, hquiet, Option.isSome_none, Bool.not_true, Bool.false_eq_true, if_false]

end Sys2Proof.Machine

open Sys2Proof Sys2Proof.Machine

/-- Settles O25: the command's range is judged first; then the lines are worked from COH_MAINT_PROG on. -/
theorem maintenanceWorksLineByLine : Obligations.MaintenanceWorksLineByLine := by
  intro c k s h hgrant hpower
  have hcheck (a n : Nat) (haddr : a = 0x100400 ∧ n = 8 ∨ a = 0x100410 ∧ n = 4) := ioCheck_maintenance s k a n haddr hgrant hpower
  refine ⟨fun v => ?addr, fun op i hop => ?command, fun line t hquiet => ?line⟩
  case addr => exact settlesTo_ok h (by rw [outOp, hcheck _ _ (.inl ⟨rfl, rfl⟩)]; rfl)
  case command =>
    have hexec : exec i s = settlesTo (mtOut i op c s) := by fin_cases hop <;> rfl
    rw [hexec]
    have hout : outOp 0x100410 4 (mtRun i op c) k s = mtRun i op c k s := by rw [outOp, hcheck _ _ (.inr ⟨rfl, rfl⟩)]
    refine ⟨fun hlen => ?len, fun hlen hend => ?past, fun hlen hend hzero hcode => ?code, fun hlen hend hok => ?work⟩
    case len => exact settlesTo_ok h (hout.trans (mtRun_of_refused i op c k s 1 (mtCheck_of_badLen hlen)))
    case past => exact settlesTo_ok h (hout.trans (mtRun_of_refused i op c k s 2 (mtCheck_of_badEnd hlen hend)))
    case code => exact settlesTo_ok h (hout.trans (mtRun_of_refused i op c k s 3 (mtCheck_of_inCode hlen hend hzero hcode)))
    case work =>
      intro first last s1 n next t hlines u
      refine settlesTo_ok h (hout.trans ?_)
      unfold mtRun
      dsimp only
      rw [mtCheck_passes hlen hend hok]
      dsimp only
      rw [getB_setB_ne _ _ _ _ _ _ (by simp)]
      simp only [first, last, s1, n] at hlines
      rw [hlines]
      rfl
  case line =>
    exact ⟨by simp only [mtLine, hquiet], by simp only [mtLine, hquiet], by simp only [mtLine, hquiet],
      by simp only [mtLine, hquiet], fun u hlock => by simp only [mtLine, hquiet, hlock],
      fun u hlock => by simp only [mtLine, hquiet, hlock], by simp only [mtLine, hquiet]⟩

/-- Settles O26: a request is in the way of another transaction, of a token, or of nothing. -/
theorem directoryServesOneRequestAtATime : Obligations.DirectoryServesOneRequestAtATime := by
  intro pod line excl s t hlive hcopy
  refine ⟨fun htoken hquiet hroom => ?served, fun x hbusy hother => ?busy, fun r htoken hline hother hquiet => ?token,
    fun r hreq hexcl => ?retry⟩
  case served => cases excl <;> exact settlesTo_congr (request_of_quiet hlive hcopy htoken hquiet hroom)
  case busy => cases excl <;> exact settlesTo_congr (request_of_busy hlive hcopy hbusy hother)
  case token => cases excl <;> exact settlesTo_congr (request_of_token hlive hcopy htoken hline hother hquiet)
  case retry =>
    have hagain : doCohNackRetry pod line s = request pod line excl s := by simp only [doCohNackRetry, hreq, hexcl]
    cases excl <;> exact settlesTo_congr hagain

/-- Settles O27: each message finds the copy and the transaction it is about. -/
theorem protocolMessagesMoveTheLine : Obligations.ProtocolMessagesMoveTheLine := by
  intro pod line s key
  refine ⟨fun e hcopy hlocked hack hstays => ⟨fun hsnoop => ?put, fun hsnoop => ?putSnooped⟩, fun e hcopy hgoes hack => ?putAck,
    fun sn hsn => ⟨fun t htrans hmaint hpod hfill => ?noInstall, fun t e htrans hmaint hcopy => ?snoop⟩,
    fun sn t hsn hstays htrans hmaint => ?answer, fun t htrans hpod hfill hmaint hinstall => ?fill⟩
  case put =>
    refine settlesTo_congr ?_
    simp [doPutLine, hcopy, hlocked, show l2Key pod line ∉ s.coh.acks from hack, hstays, hsnoop]
  case putSnooped =>
    refine settlesTo_congr ?_
    simp [doPutLine, hcopy, hlocked, show l2Key pod line ∉ s.coh.acks from hack, hstays, hsnoop]
  case putAck =>
    refine settlesTo_congr ?_
    rw [doPutAck, if_pos (List.contains_iff_mem.2 hack)]
    simp only [State.withCoh, hcopy, hgoes, if_true, key]
  case noInstall =>
    refine settlesTo_congr ?_
    simp [doSnoop, hsn, htrans, hmaint, hpod, hfill]
  case snoop =>
    refine settlesTo_congr ?_
    cases hgoes : e.evicting <;> simp [doSnoop, hsn, htrans, hmaint, hcopy, hgoes]
  case answer =>
    refine settlesTo_congr ?_
    have hsame : (({ s with coh := { s.coh with snoops := s.coh.snoops.erase sn } } : State).coh.dirAt line).trans = some t := htrans
    simp only [doSnoopAnswer, hsn, State.withCoh, hsame]
    simp [hmaint, hstays]
  case fill =>
    refine settlesTo_congr ?_
    simp only [doFillData, htrans]
    simp only [hpod, hfill, hmaint, hinstall, bne_self_eq_false, Bool.not_true, Bool.or_self, Bool.false_eq_true, if_false]
    exact congrArg rerunAll (congrArg (State.withCoh _) (funext fun c => by split <;> rfl))

/-- Settles O28: a scrub's outcome is a CE, a restart or a lost line by its array. -/
theorem coherentDomainFaultsAreHandled : Obligations.CoherentDomainFaultsAreHandled := by
  intro agent slice line pod a b s hup src
  have hscrub {array : CacheArray} {outcome : ScrubOutcome} {t : State} (h : doCacheScrub array outcome s = t) :
      exec (.cacheScrub array outcome) s = settlesTo t := settlesTo_congr h
  refine ⟨fun hagent => ?timeout, fun e hrestart hevent => ⟨?measured, ?different⟩, ⟨?l1d, ?l2, ?l3, ?directory, ?directoryUe⟩, fun e hline => ?l3Ue⟩
  case timeout => exact settlesTo_congr (cohAgentTimeout_of_up hup hagent)
  case measured =>
    refine settlesTo_congr ?_
    simp [doCoreDomainRestart, hrestart]
  case different =>
    refine settlesTo_congr ?_
    simp [doCoreDomainRestart, hrestart, hevent]
  case l3Ue => exact hscrub (by simp [doCacheScrub, hup, hline, src])
  all_goals exact hscrub (by simp [doCacheScrub, hup, podCe, src])

/-- Settles O29: outside a sparing a mismatch is retried until the pod's count or history forbids it. -/
theorem lockstepFaultsRetryThenSpare : Obligations.LockstepFaultsRetryThenSpare := by
  intro pod lanes retire s x noted phys
  refine ⟨fun hchecked hquiet => ⟨fun hretry => ?retry, fun hhard => ?hard, fun hretried => ?success⟩, fun hchecked => ?comparator,
    fun hquiet cause => ⟨fun n hspare => ?freeze, fun hspare => ?fail⟩, fun old cause new hsparing hspare => ?complete,
    fun old cause hsparing hup hpod => ?timeout⟩
  case retry =>
    refine settlesTo_congr ?_
    have hnot : ¬(x.retry = 2 ∨ x.retry = 0 ∧ max 1 (noted.get .POD_RETRY_CTL_LIMIT) < x.recent.length) := by omega
    exact (doLockstepMismatch_of_quiet hchecked hquiet).trans (if_neg hnot)
  case hard =>
    refine settlesTo_congr ?_
    exact (doLockstepMismatch_of_quiet hchecked hquiet).trans (if_pos hhard)
  case success =>
    refine settlesTo_congr (if_pos ?_)
    simp [hchecked]
    exact hretried
  case comparator => exact settlesTo_congr (if_pos hchecked)
  case freeze => rw [hardFault, show (s.podAt pod).sparing = none from hquiet]; simp only [hspare]; rfl
  case fail => rw [hardFault, show (s.podAt pod).sparing = none from hquiet]; simp only [hspare]; rfl
  case complete =>
    refine settlesTo_congr ?_
    simp only [doSparingComplete, show (s.podAt pod).sparing = some (old, cause) from hsparing, hspare]
  case timeout =>
    refine settlesTo_congr ?_
    simp only [doSparingTimeout, show (s.podAt pod).sparing = some (old, cause) from hsparing]
    exact cohAgentTimeout_of_up (by rw [← hup, ← coreUp_failPhys old s]; rfl) hpod

/-- Settles O30: each command passes the tests of its pod. -/
theorem podCommandsChangeTheMode : Obligations.PodCommandsChangeTheMode := by
  intro pod core world level s hidle own core1 core0 result mode at_
  refine ⟨fun hmode hservice hentry => ?split, fun hmode => ?park, fun hmode hservice hparked => ⟨?check, ?parity⟩,
    fun hmode hentry => ?warm⟩
  case split =>
    refine settlesTo_congr ?_
    simp [doPodSplit, ownCore, own, hidle, hservice, show s.getB .POD_MODE_MODE pod = 0 from hmode,
      show s.inCode (s.splitEntry pod) = true from hentry]
    rfl
  case park =>
    refine settlesTo_congr ?_
    simp [doPodPark, ownCore, core1, hidle, show s.getB .POD_MODE_MODE pod = 1 from hmode]
    rfl
  case check =>
    refine settlesTo_congr ?_
    simp [doPodCheck, ownCore, core0, hidle, hservice, hparked, show s.getB .POD_MODE_MODE pod ≠ 3 from hmode]
    rfl
  case parity =>
    refine settlesTo_congr ?_
    simp [doPodCheck, ownCore, core0, hidle, hservice, hparked, show s.getB .POD_MODE_MODE pod ≠ 3 from hmode]
    rfl
  case warm =>
    refine settlesTo_congr ?_
    simp [doWarmRestart, ownCore, own, hidle, show s.getB .POD_MODE_MODE pod ≠ 3 from hmode,
      show s.inCode (s.restartEntry pod) = true from hentry]
    rfl

end

section
/-!
Memory and the journal: failed stripes, the memory controller's own work, the two copies of the MRAM, the order of the records (R130
to R138, R272 to R308).
-/

namespace Sys2Proof.Machine

/-! ## Commands of a lit register -/

/-- A command none of whose checks fails, with room in the log: logged, RESULT 0, then its effect (R10). -/
theorem command_taken {s : State} {o : Origin} {r : Reg} (hlit : s.lit o r) (hlog : s.logTakes o = true) {checks : List (Bool × Nat)}
    (hpass : checks.find? (·.1) = none) (v : Nat) (res : Fld) (refused : Nat) (act : State → State) :
    command o r v res refused checks act s = act ((logBy o 1 (regBase r) 0 v s).set res 0) := by
  simp only [command_lit _ _ _ _ _ _ _ _ hlit, hpass, hlog, if_true]

/-- A command whose first failing check answers `code`. -/
theorem command_fails {s : State} {o : Origin} {r : Reg} (hlit : s.lit o r) {checks : List (Bool × Nat)} {code : Nat}
    (hfail : (checks.find? (·.1)).map (·.2) = some code) (v : Nat) (res : Fld) (refused : Nat) (act : State → State) :
    command o r v res refused checks act s = s.set res code := by
  obtain ⟨q, hq, rfl⟩ := Option.map_eq_some_iff.1 hfail
  simp only [command_lit _ _ _ _ _ _ _ _ hlit, hq]

/-- A retraining that failed: begun again, or after the second failure in succession the stripe is marked (R282, R293). -/
theorem doChannelRetrainComplete_of_failed {stripe channel : Nat} {s : State} (hretrain : stripe * 4 + channel ∈ s.mem.retrain)
    (hchannel : channel ≤ 3) :
    doChannelRetrainComplete stripe channel false s =
      let k := stripe * 4 + channel
      let n := kvGet s.mem.badTrain k 0 + 1
      let t := (syncRetrain (s.withMem (fun m => { m with retrain := m.retrain.filter (· != k) }))).withMem (fun m =>
        { m with badTrain := kvSet m.badTrain k n })
      if 2 ≤ n then markStripe 0 stripe (t.withMem (fun m => { m with badTrain := kvDel m.badTrain k }))
      else beginRetrain stripe channel t :=
  if_neg (by simp [hretrain, hchannel])

/-! ## The two copies of the MRAM (R306) -/

/-- A scrub read of a block whose two dies are usable and which is not lost yet. -/
theorem doJnlScrubRead_of_usable {area : MramArea} {block : Nat} (badA badB : Bool) {s : State} (hon : s.on .JNL_SCRUB_CTL_ENABLE = true)
    (hblock : block < areaBlocks area) (hokA : s.copyOk area block false = true) (hokB : s.copyOk area block true = true)
    (hkept : s.jnl.lost.contains (area, block) = false) :
    doJnlScrubRead area block badA badB s =
      let sl := if area = .journal then kvGet s.jnl.slots block ⟨.empty, .empty⟩ else ⟨.empty, .empty⟩
      let a : JCopy := if badA then .bad else sl.a
      let b : JCopy := if badB then .bad else sl.b
      if a ≠ .bad ∧ b ≠ .bad then s
      else if a ≠ .bad ∨ b ≠ .bad then
        let c := if a = .bad then b else a
        let t := if area = .journal then setSlot block c c s else s
        let u := syncSingle (t.withJnl (fun j => { j with oneCopy := j.oneCopy.filter (· != (area, block)) }))
        raiseCe 26 13 4 (mramBlock area block) 0 (u.bump .JNL_REPAIRED_COUNT)
      else
        let t := if area = .journal then setSlot block .bad .bad s
          else s.withJnl (fun j => { j with lost := j.lost ++ [(area, block)] })
        let u := t.bump .JNL_LOST_COUNT
        raiseUe 26 1 13 4 (mramBlock area block) 0
          (if area = .journal ∧ u.slotLive block then u.bump .JNL_LOST_LIVE_COUNT else u) := by
  refine (if_neg (by simp [hon, hblock])).trans ?_
  simp only [hokA, hokB, hkept, Bool.or_false, Bool.true_and, Bool.and_self, Bool.and_eq_true, Bool.or_eq_true, bne_iff_ne, ite_not,
    if_true, Bool.false_eq_true, if_false, decide_eq_true_eq]

/-! ## The order of the records (R130) -/

theorem takeFirst_of_none {α : Type} (f : α → Bool) (l : List α) (h : ∀ x ∈ l, f x = false) : takeFirst f l = none := by
  induction l with
  | nil => rfl
  | cons x t ih => simp [takeFirst, h x (by simp), ih fun y hy => h y (by simp [hy])]

/-- With no free slot no record may be written. -/
theorem not_jnlTakes_of_full {s : State} (h : s.jnlFree = 0) (r : JRec) : s.jnlTakes r = false := by
  simp [State.jnlTakes, h]

end Sys2Proof.Machine

open Sys2Proof Sys2Proof.Machine

/-- Settles O33: the two commands pass or fail the checks of STRIPE_MARK and STRIPE_CLEAR, the rest is what the hardware does. -/
theorem stripesAreMarkedAndSwitched : Obligations.StripesAreMarkedAndSwitched := by
  intro o stripe channel s
  refine ⟨fun hstripe hchannel => ?timeout, fun hfailed n => if_pos hfailed, fun hlit hlog hstripe => ?commands,
    fun hswitching k hnext => ?switched⟩
  case timeout => exact settlesTo_congr (if_neg (by omega))
  case switched =>
    refine settlesTo_congr ((if_pos hswitching).trans ?_)
    simp only [show (s.withMem fun m => { m with switching := false }).nextFrontEnd = some k from hnext]
  case commands =>
    have hnum : stripe % 8 = stripe := Nat.mod_eq_of_lt (by omega)
    have hword (op : Nat) : stripeCmdWord op stripe = op + stripe * 4 := by rw [stripeCmdWord, hnum]
    have hreal : ¬ 5 < stripe := by omega
    have hmark : exec (.stripeMark o stripe) s = settlesTo (doStripeMark o (1 + stripe * 4) stripe s) := by rw [← hword]; rfl
    have hclear : exec (.stripeClear o stripe) s = settlesTo (doStripeClear o (2 + stripe * 4) stripe s) := by rw [← hword]; rfl
    rw [hmark, hclear, doStripeMark, doStripeClear, hnum]
    refine ⟨fun hothers => ?mark, fun hothers hsound => ?second, fun hmode => ?clear, fun hmode => ?early⟩
    case mark => exact settlesTo_congr (command_taken hlit hlog (by simp [hreal, hothers]) ..)
    case second => exact settlesTo_congr (command_fails hlit (by simp [hreal, hothers, hsound]) ..)
    case clear => exact settlesTo_congr (command_taken hlit hlog (by simp [hreal, hmode]) ..)
    case early => exact settlesTo_congr (command_fails hlit (by simp [hreal, hmode]) ..)

/-- Settles O34: each event passes the tests of its own and does its work. -/
theorem memoryControllerTakesCareOfItself : Obligations.MemoryControllerTakesCareOfItself := by
  intro group stripe channel drift rates errs s k
  refine ⟨fun hgroup => ⟨fun haged => ?none, fun q hq => ?promote⟩, fun hgroup => ?refresh, rfl,
    fun hstripe hchannel hsound hmode hidle hdrift => ?drifted, fun hretrain hchannel => ⟨?trained, fun hfirst => ?again,
      fun hsecond => ?mark⟩, fun hon hmode => ?scrub⟩
  case none =>
    have hfind : (s.waitsAt group).find? (fun q => !q.aged) = none := by simpa using haged
    exact settlesTo_congr ((if_pos hgroup).trans (by simp only [hfind]))
  case promote => exact settlesTo_congr ((if_pos hgroup).trans (by simp only [hq]))
  case refresh =>
    refine settlesTo_congr ((if_neg (by omega)).trans ?_)
    by_cases hpanic : s.get .MPT_PANIC_LANES = 0 <;> simp [State.panics, hpanic]
  case drifted =>
    refine settlesTo_congr ((if_neg ?_).trans ((if_pos hdrift).trans ?_))
    · simp [hsound, hmode, hidle]; omega
    · simp [beginRetrain, State.withMem, hidle, k]
  case trained =>
    refine settlesTo_congr (if_neg ?_)
    simp [hretrain, hchannel, k]
  case again =>
    refine settlesTo_congr ((doChannelRetrainComplete_of_failed hretrain hchannel).trans ?_)
    simp only [k] at hfirst
    simp only [hfirst, k, Nat.reduceAdd, Nat.reduceLeDiff, if_false]
  case mark =>
    refine settlesTo_congr ((doChannelRetrainComplete_of_failed hretrain hchannel).trans ?_)
    simp only [k] at hsecond
    simp only [hsecond, k, Nat.reduceAdd, le_refl, if_true]
  case scrub =>
    intro pos hholds t
    refine settlesTo_congr ((if_neg ?_).trans ?_)
    · simp [hon, hmode, show s.memHolds (s.get .MEM_SCRUB_STATUS_POS) false = false from hholds]
    · have hpasses : (t.set .MEM_SCRUB_STATUS_POS 0).get .MEM_SCRUB_STATUS_PASSES = t.get .MEM_SCRUB_STATUS_PASSES :=
        get_set_ne _ _ _ _ (by decide)
      simp only [hpasses]
      rfl

/-- Settles O35: a scrub read finds both copies good, one, or none. -/
theorem mramKeepsTwoCopies : Obligations.MramKeepsTwoCopies := by
  intro area block die badA badB s
  refine ⟨rfl, fun hon hblock hokA hokB hkept => ?scrub, fun hdie hok => ?die, fun hmode => settlesTo_congr (if_neg hmode)⟩
  case die =>
    refine settlesTo_congr (if_neg ?_)
    simp [hok]; omega
  case scrub =>
    intro sl a b
    have hscrub := doJnlScrubRead_of_usable badA badB hon hblock hokA hokB hkept
    refine ⟨fun ha hb => ?both, fun hone => ?one, fun ha hb => ?neither⟩
    case both => exact settlesTo_congr (hscrub.trans (if_pos ⟨ha, hb⟩))
    case one =>
      refine settlesTo_congr (hscrub.trans ((if_neg ?_).trans ((if_pos ?_).trans rfl)))
      · show ¬(a ≠ .bad ∧ b ≠ .bad)
        tauto
      · show a ≠ .bad ∨ b ≠ .bad
        tauto
    case neither => exact settlesTo_congr (hscrub.trans ((if_neg fun h => h.1 ha).trans (if_neg fun h => h.elim (· ha) (· hb))))

/-- Settles O36: with no free slot no record may be written, so only the alarm is left. -/
theorem journalOrdersItsRecords : Obligations.JournalOrdersItsRecords := by
  intro fn cq sch s
  refine ⟨fun p rest htake => ?durable, fun hwaiting hfull hquiet => ?full, fun l hretire => ?retire, ?carry,
    fun hmode hmram hstep => ⟨fun hbad => ?unreadable, fun hgood => ?replay⟩, fun p hprog hst hgoes hmode => ?redrive⟩
  case durable => exact settlesTo_congr (by simp only [doJournalRecordDurable, htake])
  case full =>
    have hnone := takeFirst_of_none (fun p : JPend => s.jnlTakes p.record) s.jnl.pending fun p _ => not_jnlTakes_of_full hfull p.record
    exact settlesTo_congr (by simp [doJournalRecordDurable, hnone, hwaiting, hfull, hquiet])
  case retire => exact settlesTo_congr (by simp only [doRetireRecordWrite, hretire]; rfl)
  case carry =>
    intro t h r hr hh hmode hopen l hroom u
    refine settlesTo_congr ?_
    unfold doJournalCarry
    have hgoes : ¬(h = t.get .JNL_TAIL_COUNT ∨ t.mode = Mode.spore ∨ t.on .JNL_STATUS_REFUSING = true) := by simp [hh, hmode, hopen]
    simp only [t, h] at hr
    simp only [hr]
    exact (if_neg hgoes).trans (if_neg (Nat.not_lt.2 hroom))
  case unreadable => exact settlesTo_congr ((if_neg (by simp [hmode, hmram, hstep])).trans (if_pos (by simp [hbad])))
  case replay => exact settlesTo_congr ((if_neg (by simp [hmode, hmram, hstep])).trans (if_neg (by simp [hgood])))
  case redrive =>
    refine settlesTo_congr ?_
    simp only [doRedriveStart, hprog]
    exact if_neg (by simp [hst, hgoes, hmode])

end

section
/-!
The orders of a channel program that move it, call firmware and reach a device (R47 to R57, R68, R87 to R100, R115, R242, R253).
-/

namespace Sys2Proof.Machine

/-- An order whose opcode is the one its command runs. -/
theorem settlesTo_order {k op : Nat} {p : Prog} {f : Fetched} {t : List Fetched} {s u v : State} {place : RunAt}
    {act : Prog → Run → Ord → State → State} (h : OrderReady k op p f t s u)
    (hact : act (beginProg p f t place) (beginRun p f place) (parseOrd f.raw) (beginState k p f t place u) = v) :
    settlesTo (takeOrder k op place act s) = settlesTo v :=
  settlesTo_congr ((takeOrder_ready h place act).trans hact)

/-- An access to a lit register does what the register is for. -/
theorem settlesTo_reach {s t : State} {o : Origin} {r : Reg} {act : State → State} (h : s.lit o r) (hact : act s = t) :
    settlesTo (reach o r act s) = settlesTo t :=
  settlesTo_congr ((reach_lit s o r h act).trans hact)

/-- A program without a join or a halt ends at its END order (R49). -/
theorem nextOrder_of_end {k : Nat} {q : Prog} {x : Run} {v : State} (hprog : v.progAt k = some q) (hrun : q.run = some x)
    (hjoin : q.join = none) (hhalt : q.halt = none) (hst : (v.subAt k).st ≠ .resetting) (hend : (parseOrd x.raw).op = opEnd) :
    nextOrder k v = endProg k stDone 0 x.x.residual x.addr v := by
  simp only [nextOrder, hprog, hrun, hjoin, hhalt, if_neg hst]
  simp [hend]

/-- When a WAIT of kind `kind` with argument `a`, begun at `now`, ends (R92). -/
theorem waitDeadline_eq (kind now a : Nat) :
    (if kind = 0 then now + a else if kind = 1 then a else if a = 0 then 0 else now + a) =
      if kind = 1 ∨ (kind ≠ 0 ∧ a = 0) then a else now + a := by
  split_ifs <;> omega

theorem beginProg_join (p : Prog) (f : Fetched) (t : List Fetched) (place : RunAt) : (beginProg p f t place).join = p.join := rfl

end Sys2Proof.Machine

open Sys2Proof Sys2Proof.Machine

/-- Settles O38: every order is taken where it is ready, and what it does is the body its opcode runs. -/
theorem controlOrdersMoveTheProgram : Obligations.ControlOrdersMoveTheProgram := by
  intro k p f t s u
  dsimp only
  refine ⟨fun h => settlesTo_order h rfl, fun h hprog hidle => ?branch, fun v a q hq => ⟨?jumps, fun hmark => ?plain, fun hmark => ?marked⟩,
    fun h => ?wait, fun w kind dl hst hrun hplace hends => ?expire, fun h => settlesTo_order h rfl, fun h => settlesTo_order h rfl,
    fun v q x hprog hrun hjoin hhalt hst hend => nextOrder_of_end hprog hrun hjoin hhalt hst hend⟩
  case branch =>
    have hfetched : p.fetched = f :: t := h.2.2.2.1
    have hwaits : ((parseOrd f.raw).pb % 256 == 1 &&
        (!p.fifo.isEmpty || !p.todo.isEmpty || p.chunks.any (fun c => c.place == .cut))) = false := by
      rcases hidle with hcond | ⟨hfifo, htodo, hcut⟩
      · simp [hcond]
      · simpa [hfifo, htodo] using fun _ => hcut
    have hruns : doOrdBranch k s = takeOrder k opBranch .stage (fun p r o s =>
        if p.cond (o.pb % 256) = o.pb.testBit 8 then finishOrder k s else thenTransfer k o.addr r o s) s := by
      simp only [doOrdBranch, hprog, hfetched, hwaits, Bool.false_eq_true, if_false, bne_iff_ne, ne_eq, ite_not]
    exact (settlesTo_congr hruns).trans (settlesTo_order h rfl)
  case jumps => simp only [jumpTo, hq]; rfl
  case plain => simp only [thenTransfer, hq, hmark]; rfl
  case marked => simp only [thenTransfer, hq, hmark]; rfl
  case wait =>
    refine settlesTo_order h ?_
    dsimp only
    rw [waitDeadline_eq]
    rfl
  case expire =>
    refine settlesTo_congr ?_
    simp only [doWaitExpire, hst, hrun, hplace, if_neg hends]
    rfl

/-- Settles O39: the cases of R97 are the branches of CALL_ANSWER in order, the rest follows the life of a call. -/
theorem callsReachFirmware : Obligations.CallsReachFirmware := by
  intro k p f t s u o'
  dsimp only
  refine ⟨fun h hdev hcount => ?failed, fun h arg d v hread => ?asked, fun c i hfirst hsch hfree hon hready => ?posted,
    fun v hlit hfw hvalid => ⟨fun hnone => ?stale, fun c hfound hhost hlen => ?answered, fun c hfound hlen => ?tooLong,
      fun c hfound hdev hdata hlen => ?noHost⟩, fun c hcall hslot htime => ?timeout, fun hlit hup => ?ready⟩
  case failed => exact settlesTo_order h (by simp [hdev, hcount, readBlock, blockEnd]; rfl)
  case asked => exact settlesTo_order h (by simp only [hread]; rfl)
  case posted =>
    refine settlesTo_congr ?_
    simp only [doCallPost, hfirst, hfree, Option.filter, hsch, beq_self_eq_true, if_true]
    exact if_neg (by simp [hon, hready])
  case timeout => exact settlesTo_congr (by simp only [doCallCoreTimeout, hcall]; exact if_pos ⟨hslot, htime⟩)
  case ready => exact settlesTo_reach hlit (if_neg (by simp [hup]))
  all_goals refine settlesTo_reach hlit ((if_neg (by simp [hfw, hvalid])).trans ?_)
  case stale => simp only [hnone]
  case tooLong => simp only [hfound, if_pos hlen]
  case noHost => simp only [hfound]; exact (if_neg (Nat.not_lt.2 hlen)).trans (if_pos ⟨hdev, Nat.ne_of_gt hdata⟩)
  case answered =>
    simp only [hfound]
    refine (if_neg (Nat.not_lt.2 hlen)).trans ((if_neg ?_).trans rfl)
    rcases hhost with h | h <;> simp [h]

/-- Settles O41: the two blocks are read first, then the lowest reason decides, then what the reads came to. -/
theorem mediaOrdersReachTheirDevice : Obligations.MediaOrdersReachTheirDevice := by
  intro k p f t s u block list dataOut
  dsimp only
  refine ⟨fun h b v l w hb hl => ?media, fun type e b => ?reasons, fun h => ⟨fun hbind => ?bind, fun hcmd hfull => ?waits,
    fun hroom => ⟨fun ha => ?reset, fun ha => ?open_, fun ha => ?close, fun ha => ?finish, fun ha => ?report⟩⟩⟩
  case media =>
    refine settlesTo_order h ?_
    dsimp only
    rw [beginProg_join]
    simp only [hb, hl]
    cases b <;> cases l <;> simp only [Bool.and_eq_true, Bool.not_eq_true'] <;> split <;> rename_i hmin <;> simp only [hmin] <;> rfl
  case reasons => simp [blockReasons]
  case bind => exact settlesTo_order h (if_pos hbind)
  case waits => exact settlesTo_order h ((if_neg hcmd).trans (if_pos hfull))
  case reset =>
    refine settlesTo_order h ((if_neg (by simp [ha])).trans ((if_neg (by simp [hroom])).trans ?_))
    simp [ha]
  case open_ =>
    refine settlesTo_order h ((if_neg (by simp [ha])).trans ((if_neg (by simp [hroom])).trans ?_))
    simp [ha]
  case close =>
    refine settlesTo_order h ((if_neg (by simp [ha])).trans ((if_neg (by simp [hroom])).trans ?_))
    simp [ha]
  case finish =>
    refine settlesTo_order h ((if_neg (by simp [ha])).trans ((if_neg (by simp [hroom])).trans ?_))
    simp [ha]
  case report =>
    refine settlesTo_order h ((if_neg (by simp [ha])).trans ((if_neg (by simp [hroom])).trans ?_))
    simp [ha]

end

section
/-!
Controls of a function and the service of its programs (R17, R102 to R126, R498 to R500).
-/

namespace Sys2Proof.Machine

/-! ## Control words (R108 to R114) -/

/-- A doorbell write that reaches the doorbell of a function. -/
theorem doDoorbellWrite_of_taken {fn : Nat} {s : State} (hmode : s.mode ≠ Mode.off) (hfn : fn ≤ 64)
    (hvf : 0 < fn → s.hst.vfEnable = true ∧ s.hst.vfMse = true ∧ (s.fnOf fn).created = true) (hpower : s.pdOn 30 = true)
    (off : Nat) (data : List Byte) :
    doDoorbellWrite fn off data s =
      let q := kvGet s.css.ctl fn []
      let lost := off % 16 != 0 || data.length != 16 || decide (4096 ≤ off) || decide (64 ≤ q.length) || kvGet s.css.resets fn false
      if lost then (dropLatch s).bump .CSS_CTL_LOST_COUNT
      else (dropLatch s).withCss (fun c => { c with ctl := kvSet c.ctl fn (q ++ [data]) }) := by
  refine (if_neg ?_).trans ((if_neg ?_).trans ((if_neg ?_).trans rfl))
  · rintro (h | h | ⟨hpos, h⟩)
    · exact hmode h
    · omega
    · simp [hvf hpos] at h
  · rintro ⟨hpos, h⟩
    simp [hvf hpos] at h
  · simp [hpower]

section ControlWord
variable {fn : Nat} {w : List Byte} {t : List (List Byte)} {s : State} (hfront : kvGet s.css.ctl fn [] = w :: t)
  (hruns : s.ctlRuns fn = true)
include hfront hruns

/-- A valid control word of the control its command runs, for a subchannel of the function, is taken off the FIFO. -/
theorem withCtl_of_front {n k : Nat} {b : Sub} (act : Ctl → Nat → Sub → State → State) (hvalid : (parseCtl w).valid = true)
    (hctl : (parseCtl w).ctl = n) (hsub : s.findSub fn (parseCtl w).sch = some (k, b)) :
    withCtl fn n act s = act (parseCtl w) k b (popCtl fn s) := by
  simp only [withCtl, hfront, hsub]
  exact if_neg (by simp [hvalid, hctl, hruns])

/-- A word for no subchannel of the function, outside a reset. -/
theorem doControlWordInvalid_of_unowned (hreset : s.fnResetting fn = false) (hsub : s.findSub fn (parseCtl w).sch = none) :
    doControlWordInvalid fn s = reply fn 0 0
      (replyWord (popCtl fn s).node (parseCtl w) 3 (if (parseCtl w).valid then 0x0508 else 0x050A) (tokenOf 0 ((popCtl fn s).gen fn))
        (if (parseCtl w).ctl = 1 then (parseCtl w).addr else 0)) (popCtl fn s) := by
  simp [doControlWordInvalid, hfront, hsub, hruns, hreset]

/-- An invalid word for a subchannel of the function, outside a reset. -/
theorem doControlWordInvalid_of_invalid {k : Nat} {b : Sub} (hreset : s.fnResetting fn = false) (hvalid : (parseCtl w).valid = false)
    (hsub : s.findSub fn (parseCtl w).sch = some (k, b)) :
    doControlWordInvalid fn s =
      let r := (popCtl fn s).invalidReply fn (parseCtl w) b
      reply fn b.cq k (replyWord r.1 (parseCtl w) 3 0x050A r.2.1 r.2.2) (popCtl fn s) := by
  simp only [doControlWordInvalid, hfront, hsub, hruns, hreset, hvalid]
  rfl

end ControlWord

/-! ## Engines (R120) -/

/-- The engine a program is given is the first of the least loaded ones. -/
theorem freeEngine_eq {e : Nat} {s : State} (he : e < 8) (hfree : s.engineLoad e < 64) (hleast : ∀ f, f < 8 → s.engineLoad e ≤ s.engineLoad f)
    (hfirst : ∀ f, f < e → s.engineLoad e < s.engineLoad f) : s.freeEngine = some e := by
  have hmin : ((List.range 8).map s.engineLoad).min? = some (s.engineLoad e) :=
    List.min?_eq_some_iff.2 ⟨List.mem_map_of_mem (List.mem_range.2 he), by simpa using hleast⟩
  have hload : ((List.range 8).map s.engineLoad).foldl min 64 = s.engineLoad e := by
    rw [List.foldl_min, hmin, Option.getD_some, min_eq_right hfree.le]
  simp only [State.freeEngine, hload, if_pos hfree]
  refine List.idxOf?_eq_some_iff.2 ⟨by simpa using he, by simp, fun f hf => ?_⟩
  simpa using (hfirst f hf).ne'

end Sys2Proof.Machine

open Sys2Proof Sys2Proof.Machine

/-- Settles O42: a control word is taken off its FIFO, and then the subchannel's state alone decides. -/
theorem controlsActOnTheirSubchannel : Obligations.ControlsActOnTheirSubchannel := by
  intro fn off data s
  dsimp only
  refine ⟨fun hmode hfn hvf hpower => ⟨fun hlost => ?lost, fun hkept => ?queued⟩,
    fun w t hfront hruns => ⟨fun k b hvalid hsub => ⟨fun hctl => ?start, fun kind i hi hctl => ?stop, fun hctl => ?resume, fun hctl => ?test⟩,
      fun hreset hsub => settlesTo_congr (doControlWordInvalid_of_unowned hfront hruns hreset hsub), fun k b hreset hvalid hctl hsub => ?invalid⟩,
    fun c k b v cond reason p hprog => ?answer, fun c k b v => ?accept⟩
  case lost =>
    refine settlesTo_congr ((doDoorbellWrite_of_taken hmode hfn hvf hpower off data).trans (if_pos ?_))
    simpa [or_assoc] using hlost
  case queued =>
    refine settlesTo_congr ((doDoorbellWrite_of_taken hmode hfn hvf hpower off data).trans (if_neg ?_))
    simpa [or_assoc] using hkept
  case start =>
    have hact (act : Ctl → Nat → Sub → State → State) := withCtl_of_front hfront hruns act hvalid hctl hsub
    refine ⟨fun hst hodd => ?odd, fun hst heven hremote habsent => ?absent, fun hst heven hthere => ⟨fun hmode => ?mode,
      fun hmode hpend => ⟨fun hfull => ?full, fun hroom => ?accepted⟩⟩, fun hst => ?pending, fun hst => ?busy, fun hst => ?resetting⟩
    all_goals refine settlesTo_congr ((hact _).trans ?_)
    case odd => simp only [hst, if_pos hodd]
    case absent => simp [hst, heven, hremote, habsent]
    case mode => rcases hthere with h | h <;> simp only [hst, heven, h, if_pos hmode] <;> simp
    case full => rcases hthere with h | h <;> simp [hst, heven, h, hmode, hpend, hfull]
    case accepted => rcases hthere with h | h <;> simp [hst, heven, h, hmode, hpend, Nat.not_lt.2 hroom]
    case pending => simp only [hst]
    case busy => rcases hst with hst | hst | hst <;> simp only [hst]
    case resetting => simp only [hst]
  case stop =>
    rcases List.mem_pair.1 hi with h | h <;> obtain ⟨rfl, rfl⟩ := Prod.mk.inj h
    all_goals
      have hact (act : Ctl → Nat → Sub → State → State) := withCtl_of_front hfront hruns act hvalid hctl hsub
      refine ⟨fun hst => ?_, fun hst => ?_, fun hst => ?_, fun hst => ?_, fun hst => ?works⟩
      case works => rcases hst with hst | hst | hst | hst | hst <;> exact settlesTo_congr ((hact _).trans (by simp only [hst]))
      all_goals exact settlesTo_congr ((hact _).trans (by simp only [hst]))
  case resume =>
    have hact (act : Ctl → Nat → Sub → State → State) := withCtl_of_front hfront hruns act hvalid hctl hsub
    refine ⟨fun r dl hst hremote hwaiting hrun hplace => ?wakes, fun q hst hremote hprog => ?far, fun hst hremote => ?idle⟩
    all_goals refine settlesTo_congr ((hact _).trans ?_)
    case wakes => simp [hst, hremote, resumeProg, hwaiting, hrun, hplace]
    case far => simp [hst, hremote, hprog]
    case idle => simp [hst, hremote]
  case test =>
    have hact (act : Ctl → Nat → Sub → State → State) := withCtl_of_front hfront hruns act hvalid hctl hsub
    refine ⟨fun hst => ?_, fun hst => ?_, fun hst => ?_, fun hst => ?_, fun hst => ?_⟩ <;>
      exact settlesTo_congr ((hact _).trans (by simp only [hst, SubState.code]))
  case invalid =>
    refine settlesTo_congr ((doControlWordInvalid_of_invalid hfront hruns hreset hvalid hsub).trans ?_)
    by_cases hnone : (parseCtl w).ctl = 0 ∨ 5 < (parseCtl w).ctl <;> simp [State.invalidReply, hctl, hnone]
  case answer => simp only [answer, State.replyOf, hprog]; rfl
  case accept => rfl

/-- Settles O43: each grant, fetch, post and tick finds its guard met and does its row. -/
theorem programsAreServed : Obligations.ProgramsAreServed := by
  intro k fn cq s
  dsimp only
  refine ⟨fun p hprog => ⟨fun hst hdurable hroom hgoes e he hfree hleast hfirst => ?seat, fun a hat hlive hspace => ⟨fun d => ?fetched, ?failed⟩,
      fun hst hgoes hremote hwritten hdrained => ?drained⟩, fun t l hwait hlane => ?lane, fun n first p hwait hfit hprog => ?buffer,
    fun p t hposts hroom hawake => ⟨fun hkind => ?reply, fun hkind hlocal => ?note, fun hkind hown => ?final⟩,
    fun p r hprog hrun hgoes => ⟨fun hplace => ?word, fun a hplace => ?wordTo⟩, fun n t hcoal => ?coalesced, rfl, fun p hprog => ?fill⟩
  case seat =>
    refine settlesTo_congr ?_
    simp only [doEngineSlotGrant, hprog, freeEngine_eq he hfree hleast hfirst]
    refine (if_pos ⟨hst, hdurable, by simp [hgoes], by simpa [State.fnHasSlot, or_assoc] using hroom⟩).trans ?_
    simp only [seat, hprog]
  case fetched =>
    refine settlesTo_congr ?_
    simp [doOrderFetch, hprog, hat, hlive, Nat.not_le.2 hspace]
  case failed =>
    refine settlesTo_congr ?_
    simp [doOrderFetch, hprog, hat, hlive, Nat.not_le.2 hspace]
  case drained =>
    refine settlesTo_congr ?_
    simp [doClearDrained, hprog, hst, hgoes, hremote, hwritten, hdrained]
  case lane => exact settlesTo_congr (by simp only [doStreamPlaceGrant, hwait, hlane])
  case buffer => exact settlesTo_congr (by simp [doStripeBufferGrant, hwait, hfit, hprog])
  case reply => exact settlesTo_congr (by simp [doStatusWordPost, hposts, hroom, hawake, hkind])
  case note => exact settlesTo_congr (by simp only [doStatusWordPost, hposts, hroom, hawake, hkind, Bool.not_false, Bool.and_true, if_true, hlocal,
    Bool.false_and, Bool.false_eq_true, if_false])
  case final => exact settlesTo_congr (by simp only [doStatusWordPost, hposts, hroom, hawake, hkind, Bool.not_false, Bool.and_true, if_true, hown])
  case word => simp [noteposted, hprog, hrun, hgoes, hplace]
  case wordTo => simp [noteposted, hprog, hrun, hgoes, hplace]
  case coalesced => exact settlesTo_congr (by simp only [doCqCoalesceTimeout, hcoal])
  case fill => exact settlesTo_congr (by simp only [doContextFill, hprog])

end

section
/-!
What the change log and the fault collector write (R10, R441 to R444, R551): the registers of their own, and the pending bits of a
core's interrupts.
-/

namespace Sys2Proof.Machine

/-- The fields a log entry or an event of the collector may write. -/
def eventFields : List Fld :=
  [.LOG_SEQ_SEQ, .LOG_DROPPED_COUNT, .FLT_SEEN_SRC, .FLT_CNT_UE_COUNT, .FLT_CNT_CE_COUNT, .FLT_CNT_ESC_COUNT, .FLT_STATUS_SRC,
   .FLT_PLEVEL_LEVEL, .FLT_FIRST_ADDR_ADDR, .FLT_FIRST_MASTER_ORIGIN, .FLT_FIRST_TYPE_SOURCE, .FLT_FIRST_TYPE_LEVEL, .FLT_FIRST_TYPE_UE,
   .FLT_FIRST_TYPE_ESCALATED, .FLT_FIRST_TYPE_INJECTED, .FLT_FIRST_TYPE_ACCESS, .FLT_FIRST_TYPE_KIND, .FLT_FIRST_TYPE_DETAIL,
   .FLT_FIRST_TYPE_VALID, .FLT_FIRST_TIME_NS, .POD_INT_PEND_LATCHED, .POD_INT_PEND_LEVEL]

/-- Every field but those of `eventFields` is as before. -/
structure KeepsFields (s t : State) : Prop where
  getB : ∀ f i, f ∉ eventFields → t.getB f i = s.getB f i

namespace KeepsFields

theorem refl (s : State) : KeepsFields s s := ⟨fun _ _ _ => rfl⟩

theorem trans {s t u : State} (h : KeepsFields s t) (h' : KeepsFields t u) : KeepsFields s u :=
  ⟨fun f i hf => (h'.getB f i hf).trans (h.getB f i hf)⟩

/-- States with the same registers. -/
theorem of_regs {s t : State} (h : t.regs = s.regs) : KeepsFields s t := ⟨fun f i _ => by rw [State.getB, State.getB, h]⟩

theorem setB (s : State) {g : Fld} (hg : g ∈ eventFields) (j v : Nat) : KeepsFields s (s.setB g j v) :=
  ⟨fun _ _ hf => getB_setB_ne _ _ _ _ _ _ fun e => hf (e.1 ▸ hg)⟩

theorem bumpB (s : State) {g : Fld} (hg : g ∈ eventFields) (j n : Nat) : KeepsFields s (s.bumpB g j n) := setB s hg j _

theorem thenSet {s t : State} (h : KeepsFields s t) {g : Fld} (hg : g ∈ eventFields) (v : Nat) : KeepsFields s (t.set g v) :=
  h.trans (setB t hg 0 v)

end KeepsFields

theorem raiseVec_keepsFields (fn v : Nat) (s : State) : KeepsFields s (raiseVec fn v s) := by
  rw [raiseVec]
  dsimp only
  split_ifs <;> exact .of_regs rfl

theorem logPut_keepsFields (o k t a b : Nat) (s : State) : KeepsFields s (logPut o k t a b s) :=
  (KeepsFields.setB s (by decide) 0 _).trans (.of_regs rfl)

theorem logDrop_keepsFields (s : State) : KeepsFields s (logDrop s) := (KeepsFields.setB s (by decide) 0 _).trans (.of_regs rfl)

theorem logGap_keepsFields (s : State) : KeepsFields s (logGap s) := by
  rw [logGap]
  dsimp only
  split_ifs
  · exact .refl s
  · refine .trans ?_ (logPut_keepsFields ..)
    exact .of_regs rfl

theorem logRaw_keepsFields (o k t a b : Nat) (s : State) : KeepsFields s (logRaw o k t a b s) := by
  rw [logRaw]
  dsimp only
  split_ifs
  · exact (logGap_keepsFields s).trans (logPut_keepsFields ..)
  · exact (logGap_keepsFields s).trans (logDrop_keepsFields _)
  · exact logDrop_keepsFields s

theorem pendInt_keepsFields (k src : Nat) (s : State) : KeepsFields s (pendInt k src s) := by
  have hbit : KeepsFields s (if src < 2 then s.setBitB .POD_INT_PEND_LATCHED k src true
      else s.setBitB .POD_INT_PEND_LEVEL k (src - 2) true) := by
    split_ifs <;> exact KeepsFields.setB s (by decide) _ _
  rw [pendInt]
  dsimp only
  split
  · exact hbit
  · exact hbit.trans (.of_regs rfl)

theorem fwFaultIrq_keepsFields (s : State) : KeepsFields s (fwFaultIrq s) := by
  rw [fwFaultIrq]
  split_ifs
  · exact pendInt_keepsFields ..
  · exact .of_regs rfl

theorem capture_keepsFields (e : FaultIn) (l : Nat) (x : Bool) (s : State) : KeepsFields s (capture e l x s) := by
  rw [capture]
  repeat' refine KeepsFields.thenSet ?_ (by decide) _
  exact .refl s

theorem countFault_keepsFields (e : FaultIn) (x : Bool) (s : State) : KeepsFields s (countFault e x s) := by
  have hseen : KeepsFields s (s.setBitB .FLT_SEEN_SRC 0 e.source true) := KeepsFields.setB s (by decide) _ _
  have hcount : KeepsFields s (if e.ue then (s.setBitB .FLT_SEEN_SRC 0 e.source true).bumpB .FLT_CNT_UE_COUNT e.source 1
      else (s.setBitB .FLT_SEEN_SRC 0 e.source true).bumpB .FLT_CNT_CE_COUNT e.source 1) := by
    split <;> exact hseen.trans (KeepsFields.bumpB _ (by decide) _ _)
  rw [countFault]
  split
  · exact hcount.trans (KeepsFields.bumpB _ (by decide) _ _)
  · exact hcount

theorem latchFault_keepsFields (e : FaultIn) (l : Nat) (x : Bool) (s : State) : KeepsFields s (latchFault e l x s) := by
  have hlatched (p : Nat) : KeepsFields s ((s.setBitB .FLT_STATUS_SRC 0 e.source true).setPlevel e.source p) :=
    (KeepsFields.setB s (by decide) _ _).trans (KeepsFields.setB _ (by decide) _ _)
  rw [latchFault]
  split
  · exact .refl s
  · dsimp only
    generalize (if s.fltUnacked e.source = true then s.plevel e.source else 0) = p
    split
    · exact hlatched _
    · exact (hlatched _).trans (capture_keepsFields ..)

theorem reactFault_keepsFields (e : FaultIn) (l : Nat) (s : State) : KeepsFields s (reactFault e l s) := by
  have htold := (fwFaultIrq_keepsFields s).trans (raiseVec_keepsFields 0 (s.get .FLT_CTL_VECTOR) _)
  rw [reactFault]
  split_ifs
  · exact .refl s
  · exact htold.trans (.of_regs rfl)
  · exact htold

/-- An event at the collector. -/
theorem noteFault_keepsFields (e : FaultIn) (s : State) : KeepsFields s (noteFault e s) := by
  rw [noteFault]
  split_ifs
  · exact .refl s
  · exact (((countFault_keepsFields ..).trans (latchFault_keepsFields ..)).trans (logRaw_keepsFields ..)).trans (reactFault_keepsFields ..)

theorem checkLogFull_keepsFields (s : State) : KeepsFields s (checkLogFull s) := by
  rw [checkLogFull]
  split_ifs
  · exact .refl s
  · refine .trans (.trans ?_ (noteFault_keepsFields ..)) (raiseVec_keepsFields ..)
    exact .of_regs rfl
  · exact .of_regs rfl

/-- A log entry. -/
theorem logBy_keepsFields (o : Origin) (k t a b : Nat) (s : State) : KeepsFields s (logBy o k t a b s) :=
  (logRaw_keepsFields ..).trans (checkLogFull_keepsFields _)

/-- A command that is logged and answered keeps every field but those of the log, of the collector and its RESULT. -/
theorem getB_logBy_set {o : Origin} {k t a b : Nat} {s : State} {res f : Fld} (hf : f ∉ eventFields) (hres : res ≠ f) (i v : Nat) :
    ((logBy o k t a b s).set res v).getB f i = s.getB f i := by
  rw [getB_set_ne _ _ _ _ _ hres, (logBy_keepsFields o k t a b s).getB f i hf]

end Sys2Proof.Machine

end

section
/-!
Register accesses by access code, subchannel ranges, source bytes and the energy window (R8 to R14, R36 to R48, R104 to R106, R498,
R499).
-/

namespace Sys2Proof.Machine

/-! ## Fields and masks -/

/-- A field takes the low bits of what is written to it. -/
theorem setB_congr {f : Fld} {v v' : Nat} (h : v % 2 ^ f.width = v' % 2 ^ f.width) (s : State) (i : Nat) : s.setB f i v = s.setB f i v' := by
  simp only [State.setB, h]

theorem andNot_lowMask (v n : Nat) : andNot v (2 ^ n - 1) = 2 ^ n * (v / 2 ^ n) := by
  rw [andNot, Nat.and_two_pow_sub_one_eq_mod]
  have := Nat.mod_add_div v (2 ^ n)
  omega

/-- A program is changed under its subchannel, which stays with its function. -/
theorem fn_modProg (k : Nat) (g : Prog → Prog) (s : State) : ((modProg k g s).subAt k).fn = (s.subAt k).fn := by
  show (kvGet (kvMod s.css.subs k _) k noSub).fn = (kvGet s.css.subs k noSub).fn
  rw [kvGet, kvGet, kvGet?_kvMod_same]
  cases kvGet? s.css.subs k <;> rfl

/-! ## Commands with a BUSY bit -/

section BusyCommand
variable {s : State} {o : Origin} {r : Reg} {busy : Fld} (hlit : s.lit o r) (hbusy : s.on busy = false)
include hlit hbusy

/-- A command none of whose checks fails, with room in the log. -/
theorem busyCommand_taken (hlog : s.logTakes o = true) {checks : List (Bool × Nat)} (hpass : checks.find? (·.1) = none) (v : Nat)
    (res : Fld) (refused : Nat) (act : State → State) :
    busyCommand o r busy v res refused checks act s = act ((logBy o 1 (regBase r) 0 v s).set res 0) := by
  simp only [busyCommand_lit _ _ _ _ _ _ _ _ _ hlit hbusy, hpass, hlog, if_true]

/-- A command whose first failing check answers `code`. -/
theorem busyCommand_fails {checks : List (Bool × Nat)} {code : Nat} (hfail : (checks.find? (·.1)).map (·.2) = some code) (v : Nat)
    (res : Fld) (refused : Nat) (act : State → State) : busyCommand o r busy v res refused checks act s = s.set res code := by
  obtain ⟨q, hq, rfl⟩ := Option.map_eq_some_iff.1 hfail
  simp only [busyCommand_lit _ _ _ _ _ _ _ _ _ hlit hbusy, hq]

end BusyCommand

/-! ## Register accesses (R8 to R14) -/

/-- The PF writes 32 bits at the start of a register of a lit block. -/
theorem doRegisterWrite_pf {a : Nat} {r : Reg} (v : Nat) {s : State} (hmode : s.mode ≠ Mode.off) (halign : a % 4 = 0)
    (hmsix : msixOffset .pf a = none) (hfn : fnOffset .pf a = none) (hsees : hostSees a = true)
    (hlocate : locate a = some { reg := r, rep := 0, byte := 0 }) (hdark : s.blockDark a = false) (hsel : s.selectsNone r = false)
    (hdbg : s.dbgDead r = false) (hbank : s.bankOf { reg := r, rep := 0, byte := 0 } 0 0 = 0) (hwidth : 32 ≤ r.info.width) :
    doRegisterWrite .pf a 4 v s = writeReg .pf
      { reg := r, bank := 0, addr := RegLoc.addr { reg := r, rep := 0, byte := 0 },
        value := andNot ((dropLatch s).regRaw r 0) (2 ^ 32 - 1) + v % 2 ^ 32, act := v % 2 ^ 32, mask := 2 ^ 32 - 1 } (dropLatch s) := by
  have hbytes : min 4 (r.info.width / 8 - 0) = 4 := by omega
  have hkept : (dropLatch s).blockDark a = false := hdark
  have hsel' : (dropLatch s).selectsNone r = false := hsel
  have hdbg' : (dropLatch s).dbgDead r = false := hdbg
  have hbank' : (dropLatch s).bankOf { reg := r, rep := 0, byte := 0 } 0 0 = 0 := hbank
  rw [doRegisterWrite, if_neg (by simp [hmode, halign])]
  dsimp only
  rw [hostStore_io _ _ _ _ hmsix hfn hsees, hkept, if_neg (by simp), ioStore_one _ _ _ _ _ _ _ _ hlocate (.inl rfl),
    writeAt_eq _ _ _ _ _ _ _ hsel' hdbg']
  simp only [hbank', hbytes]
  simp

/-- A core writes the 64 bits of a register. -/
theorem doRegisterWrite_fw {a p c world level : Nat} {r : Reg} (v : Nat) {s : State} (hmode : s.mode ≠ Mode.off) (halign : a % 8 = 0)
    (hdbgBlock : (a / 0x10000 == 0x60) = false) (hlocate : locate a = some { reg := r, rep := 0, byte := 0 })
    (hdark : s.blockDark a = false) (hsel : s.selectsNone r = false) (hdbg : s.dbgDead r = false)
    (hbank : s.bankOf { reg := r, rep := 0, byte := 0 } p c = 0) (hwidth : r.info.width = 64) :
    doRegisterWrite (.fw p c world level) a 8 v s = writeReg (.fw p c world level)
      { reg := r, bank := 0, addr := RegLoc.addr { reg := r, rep := 0, byte := 0 },
        value := andNot ((dropLatch s).regRaw r 0) (2 ^ 64 - 1) + v % 2 ^ 64, act := v % 2 ^ 64, mask := 2 ^ 64 - 1 } (dropLatch s) := by
  have hkept : (dropLatch s).blockDark a = false := hdark
  have hsel' : (dropLatch s).selectsNone r = false := hsel
  have hdbg' : (dropLatch s).dbgDead r = false := hdbg
  have hbank' : (dropLatch s).bankOf { reg := r, rep := 0, byte := 0 } p c = 0 := hbank
  have hway : (dropLatch s).wayTo (.fw p c world level) a = true := by simp only [State.wayTo, hdbgBlock, Bool.not_false, Bool.true_or]
  rw [doRegisterWrite, if_neg (by simp [hmode, halign])]
  dsimp only
  rw [hway, hkept]
  simp only [Bool.not_true, Bool.false_eq_true, if_false]
  rw [ioStore_one _ _ _ _ _ _ _ _ hlocate (.inr hwidth.ge), writeAt_eq _ _ _ _ _ _ _ hsel' hdbg']
  simp only [hbank', hwidth]
  simp

theorem dbgDead_of_block {r : Reg} (h : (r.info.base / 0x10000 == 0x60) = false) (s : State) : s.dbgDead r = false := by
  rw [State.dbgDead, h, Bool.false_and, Bool.false_and]

/-- All 64 bits of a field are what is written, whatever it held. -/
theorem bits_andNot_add (x v : Nat) : bits (andNot x (2 ^ 64 - 1) + v % 2 ^ 64) 63 0 = v % 2 ^ 64 := by
  rw [andNot_lowMask, bits]
  omega

theorem regRaw_ioGrantU (s : State) (b : Nat) : s.regRaw .COH_IOGRANT_U b = s.getB .COH_IOGRANT_U_BLOCKS b := by
  have : s.regRaw .COH_IOGRANT_U b = 0 + s.getB .COH_IOGRANT_U_BLOCKS b * 2 ^ 0 := rfl
  omega

section Grant
variable (p c world level v : Nat) {s : State} (hmode : s.mode ≠ Mode.off)
include hmode

/-- A core's write of the S grant is logged with the register before and after. -/
theorem doRegisterWrite_ioGrantS (hdark : s.blockDark (regBase .COH_IOGRANT_S) = false) :
    doRegisterWrite (.fw p c world level) (regBase .COH_IOGRANT_S) 8 v s = logged (.fw p c world level) 1 (regBase .COH_IOGRANT_S)
      ((dropLatch s).get .COH_IOGRANT_S_BLOCKS) (v % 2 ^ 64) id (fun t => t.set .COH_IOGRANT_S_BLOCKS v) (dropLatch s) := by
  have hset (t : State) : t.setB .COH_IOGRANT_S_BLOCKS 0 (v % 2 ^ 64) = t.set .COH_IOGRANT_S_BLOCKS v := setB_congr (Nat.mod_mod ..) t 0
  rw [doRegisterWrite_fw (r := .COH_IOGRANT_S) v hmode (by decide) (by decide) rfl hdark rfl (dbgDead_of_block (by decide) s) rfl rfl,
    writeReg_ioGrantS, regRaw_ioGrantS, regRaw_ioGrantS, bits_andNot_add, getB_setB_same]
  simp only [hset]
  rw [show v % 2 ^ 64 % 2 ^ Fld.COH_IOGRANT_S_BLOCKS.width = v % 2 ^ 64 from Nat.mod_mod ..]
  rfl

/-- A core's write of the U grant, the same. -/
theorem doRegisterWrite_ioGrantU (hdark : s.blockDark (regBase .COH_IOGRANT_U) = false) :
    doRegisterWrite (.fw p c world level) (regBase .COH_IOGRANT_U) 8 v s = logged (.fw p c world level) 1 (regBase .COH_IOGRANT_U)
      ((dropLatch s).get .COH_IOGRANT_U_BLOCKS) (v % 2 ^ 64) id (fun t => t.set .COH_IOGRANT_U_BLOCKS v) (dropLatch s) := by
  have hset (t : State) : t.setB .COH_IOGRANT_U_BLOCKS 0 (v % 2 ^ 64) = t.set .COH_IOGRANT_U_BLOCKS v := setB_congr (Nat.mod_mod ..) t 0
  rw [doRegisterWrite_fw (r := .COH_IOGRANT_U) v hmode (by decide) (by decide) rfl hdark rfl (dbgDead_of_block (by decide) s) rfl rfl,
    writeReg_ioGrantU, regRaw_ioGrantU, regRaw_ioGrantU, bits_andNot_add, getB_setB_same]
  simp only [hset]
  rw [show v % 2 ^ 64 % 2 ^ Fld.COH_IOGRANT_U_BLOCKS.width = v % 2 ^ 64 from Nat.mod_mod ..]
  rfl

end Grant

/-- A write to the page of a created function whose subchannel block is lit. -/
theorem fnPage_of_lit {fn : Nat} {s : State} (hmode : s.mode ≠ Mode.off) (hfn : fn ≤ 64)
    (hvf : 0 < fn → s.hst.vfEnable = true ∧ s.hst.vfMse = true) (hcreated : (s.fnOf fn).created = true) (hpower : s.pdOn 30 = true)
    (act : State → State) : fnPage fn act s = act (dropLatch s) := by
  have hcreated' : ((dropLatch s).fnOf fn).created = true := hcreated
  have hpower' : (dropLatch s).pdOn 30 = true := hpower
  rw [fnPage, if_neg]
  · simp [hcreated', hpower']
  · rintro (h | h | ⟨hpos, h⟩)
    · exact hmode h
    · omega
    · simp [hvf hpos] at h

section Latch
variable {s : State} (hmode : s.mode ≠ Mode.off)
include hmode

/-- An access of the PF drops the latch before anything else (R11). -/
theorem reach_pf_dropLatch (r : Reg) (act : State → State) : reach .pf r act s = reach .pf r act (dropLatch s) := by
  have hmode' : (dropLatch s).mode ≠ Mode.off := hmode
  rw [reach, reach, if_neg hmode, if_neg hmode']
  rfl

theorem busyCommand_pf_dropLatch (r : Reg) (busy : Fld) (v : Nat) (res : Fld) (refused : Nat) (checks : List (Bool × Nat))
    (act : State → State) :
    busyCommand .pf r busy v res refused checks act s = busyCommand .pf r busy v res refused checks act (dropLatch s) :=
  congrArg (fun t => if s.on busy then dropLatch s else t) (reach_pf_dropLatch hmode r _)

end Latch

theorem regValue_vfmSel (s : State) : s.regValue .VFM_SEL 0 = s.get .VFM_SEL_FUNCTION % 128 := by
  rw [State.regValue, dbgDead_vfmSel, if_neg (by simp)]
  show 0 + s.getB .VFM_SEL_FUNCTION 0 % 2 ^ 7 * 2 ^ 0 = s.getB .VFM_SEL_FUNCTION 0 % 128
  omega

/-- TIM_NOW reads as the timebase, its low half at its address and its high half 4 above. -/
theorem hostValue_timNow (s : State) :
    hostValue .pf 0x50000 s = (s.now % 2 ^ 32, usedFree s) ∧ hostValue .pf 0x50004 s = (s.now % 2 ^ 64 / 2 ^ 32, usedFree s) := by
  obtain ⟨hlow, hhigh⟩ := locate_timNow
  constructor
  · rw [hostValue_io _ _ _ rfl (by decide) hlow rfl rfl rfl]
    show (s.regValue .TIM_NOW 0 / 2 ^ (8 * 0) % 2 ^ 32, _) = (s.getB .TIM_NOW_NS 0 % 2 ^ 32, _)
    rw [regValue_timNow]
    refine Prod.ext ?_ rfl
    simp
  · rw [hostValue_io _ _ _ rfl (by decide) hhigh rfl rfl rfl]
    show (s.regValue .TIM_NOW 0 / 2 ^ (8 * 4) % 2 ^ 32, _) = (s.getB .TIM_NOW_NS 0 % 2 ^ 64 / 2 ^ 32, _)
    rw [regValue_timNow]
    refine Prod.ext ?_ rfl
    simp only
    omega

end Sys2Proof.Machine

open Sys2Proof Sys2Proof.Machine

/-- Settles O44: each access reaches its register, whose access code then decides; the commands pass their checks. -/
theorem registerWritesFollowTheirAccess : Obligations.RegisterWritesFollowTheirAccess := by
  intro p c world level v k fn cq o s hmode
  dsimp only
  refine ⟨fun hpower a f haf => ?grant, fun hpower => ⟨?sel, ?status, ?dark, fun hlatch => ?readSel⟩, fun i hi => ?latched,
    fun hpower => ⟨?darkHost, ?darkCore⟩, ?unused, fun hlatch => ?readLow, fun hi hlatch => ?readHigh,
    fun hfn hvf hcreated hpower hcq => ⟨fun hnew x hx => ?base, ?config, fun hv hh ht => ⟨fun hbad => ?headBad, fun hsize hreach hd => ?head⟩⟩,
    fun hlit hlog hbusy => ⟨?assign, fun hrange hlives hown => ?release⟩,
    fun pr l q t n hstream htodo hlocal hn hpos hhost hgood hroom hpower hawake => ?issue,
    fun pr q t hprog hreads hgoes => ⟨fun d => ?brought, fun r hrun => ?failed⟩,
    fun hlit => ⟨fun hidle t ht => ?start, fun hopen => ?stop, ?cal⟩, fun hbusy => ⟨?calTraffic, ?calDone⟩,
    fun n uj => ⟨fun hn => ?liveSmall, fun hn hvalid => ?liveStale⟩⟩
  case grant =>
    have hdark (b : Nat) (hb : b = regBase .COH_IOGRANT_S ∨ b = regBase .COH_IOGRANT_U) : s.blockDark b = false := by
      rcases hb with rfl | rfl <;> exact (congrArg not hpower : (!s.pdOn 18) = !true)
    simp only [List.mem_cons, Prod.mk.injEq, List.not_mem_nil, or_false] at haf
    rcases haf with ⟨rfl, rfl⟩ | ⟨rfl, rfl⟩
    · have hwrite := doRegisterWrite_ioGrantS p c world level v hmode (hdark _ (.inl rfl))
      exact ⟨fun h => settlesTo_congr (hwrite.trans (if_pos h)),
        fun h => settlesTo_congr (hwrite.trans (if_neg (h ▸ Bool.false_ne_true)))⟩
    · have hwrite := doRegisterWrite_ioGrantU p c world level v hmode (hdark _ (.inr rfl))
      exact ⟨fun h => settlesTo_congr (hwrite.trans (if_pos h)),
        fun h => settlesTo_congr (hwrite.trans (if_neg (h ▸ Bool.false_ne_true)))⟩
  case sel =>
    refine settlesTo_congr ((doRegisterWrite_pf v hmode rfl rfl rfl rfl locate_vfmSel (congrArg not hpower) rfl
      (dbgDead_of_block (by decide) s) rfl (by decide)).trans ?_)
    rw [writeReg_vfmSel, andNot_lowMask]
    exact setB_congr (by rw [bits]; show _ % 2 ^ 7 = v % 2 ^ 7; omega) _ _
  case status =>
    refine settlesTo_congr ((doRegisterWrite_pf (a := regBase .HST_STATUS) (r := .HST_STATUS) v hmode rfl rfl rfl rfl rfl (congrArg not hpower) rfl
      (dbgDead_of_block (by decide) s) rfl (by decide)).trans ?_)
    rw [writeReg_hstStatus, show bits (v % 2 ^ 32) 0 0 = v % 2 by simp [bits]]
    rfl
  case dark =>
    exact settlesTo_congr ((doRegisterWrite_pf (a := regBase .HST_DARK) (r := .HST_DARK) v hmode rfl rfl rfl rfl rfl (congrArg not hpower) rfl
      (dbgDead_of_block (by decide) s) rfl (by decide)).trans (writeReg_hstDark ..))
  case readSel =>
    refine settlesTo_congr ?_
    have hvalue : hostValue .pf (regBase .VFM_SEL) s = (s.get .VFM_SEL_FUNCTION % 128, usedFree s) := by
      rw [hostValue_io (regBase .VFM_SEL) _ _ rfl (by decide) locate_vfmSel rfl (congrArg not hpower) rfl]
      show (s.regValue .VFM_SEL 0 / 2 ^ (8 * 0) % 2 ^ 32, _) = _
      rw [regValue_vfmSel]
      refine Prod.ext ?_ rfl
      simp only
      omega
    have hlatches : latchOf .pf (regBase .VFM_SEL) = false := rfl
    simp only [doLowHalfRead, hlatch, hvalue, hlatches]
    exact (if_neg (by simp [hmode]; decide)).trans rfl
  case latched =>
    simp only [List.mem_cons, List.not_mem_nil, or_false] at hi
    rcases hi with rfl | rfl | rfl | rfl | rfl
    · exact settlesTo_congr (reach_pf_dropLatch hmode ..)
    · exact settlesTo_congr (reach_pf_dropLatch hmode ..)
    · exact settlesTo_congr (busyCommand_pf_dropLatch hmode ..)
    · exact settlesTo_congr (busyCommand_pf_dropLatch hmode ..)
    · exact settlesTo_congr (reach_pf_dropLatch hmode ..)
  case darkHost =>
    refine settlesTo_congr ((if_neg (by simp [hmode]; decide)).trans ?_)
    exact (hostStore_io _ _ _ _ rfl rfl rfl).trans (if_pos (congrArg not hpower))
  case darkCore =>
    refine settlesTo_congr ((if_neg (by simp [hmode]; decide)).trans ?_)
    exact (if_neg (Bool.false_ne_true)).trans ((if_pos (congrArg not hpower)).trans rfl)
  case unused =>
    refine settlesTo_congr ((if_neg (by simp [hmode])).trans ?_)
    simp only [hostStore, show msixOffset .pf 0x60000 = none from rfl, show fnOffset .pf 0x60000 = none from rfl,
      show hostSees 0x60000 = false from rfl]
    rfl
  case readLow =>
    refine settlesTo_congr ?_
    obtain ⟨hlow, hhigh⟩ := hostValue_timNow s
    have hbase : regBase .TIM_NOW = 0x50000 := rfl
    have hlatches : latchOf .pf 0x50000 = true := rfl
    simp only [hbase, doLowHalfRead, hlatch, hlow, hhigh, hlatches]
    exact (if_neg (by simp [hmode])).trans rfl
  case readHigh => exact settlesTo_congr ((if_neg (by simp [hmode]; decide)).trans (by simp only [hlatch]; exact if_pos ⟨trivial, trivial⟩))
  case base =>
    refine settlesTo_congr ((fnPage_of_lit hmode hfn hvf hcreated hpower _).trans ((if_neg (Nat.not_le.2 hcq)).trans ?_))
    subst hx
    exact if_neg hnew
  case config => exact settlesTo_congr ((fnPage_of_lit hmode hfn hvf hcreated hpower _).trans (if_neg (Nat.not_le.2 hcq)))
  case headBad =>
    refine settlesTo_congr ((fnPage_of_lit hmode hfn hvf hcreated hpower _).trans ((if_neg (Nat.not_le.2 hcq)).trans ?_))
    have hv' : v % 65536 = v := Nat.mod_eq_of_lt hv
    have hh' : (dropLatch s).getB .FN_CQ_HEAD_HEAD (cqKey fn cq) % (dropLatch s).cqSize (cqKey fn cq) =
      s.getB .FN_CQ_HEAD_HEAD (cqKey fn cq) := Nat.mod_eq_of_lt hh
    simp only [hv', hh']
    exact if_pos hbad
  case head =>
    refine settlesTo_congr ((fnPage_of_lit hmode hfn hvf hcreated hpower _).trans ((if_neg (Nat.not_le.2 hcq)).trans ?_))
    have hv' : v % 65536 = v := Nat.mod_eq_of_lt hv
    have hh' : (dropLatch s).getB .FN_CQ_HEAD_HEAD (cqKey fn cq) % (dropLatch s).cqSize (cqKey fn cq) =
      s.getB .FN_CQ_HEAD_HEAD (cqKey fn cq) := Nat.mod_eq_of_lt hh
    simp only [hv', hh']
    exact (if_neg (not_or.2 ⟨Nat.not_le.2 hsize, Nat.not_lt.2 hreach⟩)).trans ((if_neg hd).trans rfl)
  case assign =>
    intro first n rel hfirst hcount hpos hend hlives hremote hcq hfree hrel tfirst tcount trel
    have hrange : s.schRangeBad = false := by simp [State.schRangeBad, hfirst, hcount]; omega
    have hthere : (s.on .CSS_SCH_ASSIGN_REMOTE && !s.present (s.get .CSS_SCH_ASSIGN_NODE)) = false := by simpa using hremote
    have hnone : s.schRange.any (fun k => kvHas s.css.subs k) = false := by simpa using hfree
    have hrun : (s.freeRun (s.get .CSS_SCH_ASSIGN_FUNCTION) (s.get .CSS_SCH_ASSIGN_COUNT)).isNone = false := by rw [hcount, hrel]; rfl
    refine settlesTo_congr ((busyCommand_taken hlit hbusy hlog ?_ ..).trans ?_)
    · simp only [List.find?, hrange, hlives, hthere, hnone, hrun, decide_eq_false (Nat.not_le.2 hcq), Bool.not_true]
    · have kept (f : Fld) (hf : f ∉ eventFields) (hres : Fld.CSS_SCH_CMD_RESULT ≠ f) :
          ((logBy o 1 (regBase .CSS_SCH_CMD) 0 1 s).set .CSS_SCH_CMD_RESULT 0).get f = s.get f := getB_logBy_set hf hres 0 0
      have hremotes : ((logBy o 1 (regBase .CSS_SCH_CMD) 0 1 s).set .CSS_SCH_CMD_RESULT 0).on .CSS_SCH_ASSIGN_REMOTE =
          s.on .CSS_SCH_ASSIGN_REMOTE := congrArg (· == 1) (kept _ (by decide) (by decide))
      dsimp only
      rw [hcount, trel, hremotes, kept .CSS_SCH_ASSIGN_CQ (by decide) (by decide), kept .CSS_SCH_ASSIGN_NODE (by decide) (by decide)]
      rfl
  case release =>
    refine settlesTo_congr (busyCommand_taken hlit hbusy hlog ?_ ..)
    have howned (k : Nat) (hk : k ∈ s.schRange) :
        (match kvGet? s.css.subs k with | some b => b.fn != s.get .CSS_SCH_ASSIGN_FUNCTION | none => true) = false := by
      obtain ⟨b, hb, hfn, hidle⟩ := hown k hk
      simp [hb, hfn]
    have hidle (k : Nat) (hk : k ∈ s.schRange) : ((s.subAt k).st != .idle) = false := by
      obtain ⟨b, hb, hfn, hidle⟩ := hown k hk
      simp [State.subAt, kvGet, hb, hidle]
    have hall := List.any_eq_false.2 fun k hk => Bool.eq_false_iff.1 (howned k hk)
    have hall' := List.any_eq_false.2 fun k hk => Bool.eq_false_iff.1 (hidle k hk)
    simp only [List.find?, hrange, hlives, hall', Bool.not_true]
    exact hall ▸ rfl
  case issue =>
    subst hn
    refine settlesTo_congr ?_
    simp only [doHostReadIssue, hstream, htodo, hlocal, Bool.false_eq_true, if_false, min_self]
    rw [if_neg (by simp [hhost, hgood, hpower, hawake]; omega)]
    simp only [askHost, hlocal, decide_true, Bool.true_and, if_true, Bool.false_eq_true, if_false, fn_modProg]
  case brought =>
    exact settlesTo_congr (by simp only [doHostReadCompletion, hprog, hreads, hgoes])
  case failed =>
    exact settlesTo_congr (by simp only [doHostReadCompletion, hprog, hreads, hgoes, hrun])
  case start =>
    exact settlesTo_reach hlit ((if_neg (by simp [hidle])).trans (by rw [← ht]; simp only [List.foldl_cons, List.foldl_nil]))
  case stop => exact settlesTo_reach hlit (if_pos hopen)
  case cal => exact settlesTo_reach hlit rfl
  case calTraffic => exact settlesTo_congr (if_pos hbusy)
  case calDone => exact settlesTo_congr (if_pos hbusy)
  case liveSmall => exact settlesTo_congr (if_pos hn)
  case liveStale => exact settlesTo_congr ((if_neg (Nat.not_lt.2 hn)).trans (if_pos (by simp [hvalid])))

end

section
/-!
The host port: function resets, the commands of the function manager, mailboxes and dirty logs (R145 to R147, R491 to R514).
-/

namespace Sys2Proof.Machine

/-- The page of a created VF's mailbox is reached while its subchannel block is lit. -/
theorem mailboxPage_vf {fn : Nat} {s : State} (hpos : 0 < fn) (hfn : fn ≤ 64) (hmode : s.mode ≠ Mode.off) (hvf : s.hst.vfEnable = true)
    (hmse : s.hst.vfMse = true) (hcreated : (s.fnOf fn).created = true) (hpower : s.pdOn 30 = true) (act : State → State) :
    mailboxPage false fn act s = act (dropLatch s) :=
  (if_neg (by omega)).trans (fnPage_of_lit hmode hfn (fun _ => ⟨hvf, hmse⟩) hcreated hpower act)

theorem mailboxPage_pf {fn : Nat} {s : State} (hpos : 0 < fn) (hfn : fn ≤ 64) (hlit : s.lit .pf .VFM_MBX_CTL) (act : State → State) :
    mailboxPage true fn act s = act s :=
  (if_neg (by omega)).trans (reach_lit s .pf .VFM_MBX_CTL hlit act)

/-- The function a request names is there: the PF, or a VF while VFs are enabled. -/
theorem not_absent {fn : Nat} {s : State} (hfn : fn ≤ 64) (hvf : fn = 0 ∨ s.hst.vfEnable = true) :
    ¬(64 < fn ∨ 0 < fn ∧ (!s.hst.vfEnable) = true) := by
  rcases hvf with rfl | h
  · simp
  · simpa [h] using hfn

/-- A reset begun where none runs and that empties no queues: the record is asked for, and the one subchannel of the function is
RESETTING. -/
theorem beginReset_of_single {fn : Nat} {s : State} (hquiet : kvHas s.css.resets fn = false) {k : Nat} {pr : Sub} (hprog : pr.prog = none)
    {told : State} (htold : told = dropFinals fn (tellNodes fn (nextGen (s.gen fn)) (advanceGen fn (jnlAsk
      { sch := 0, token := 0, seq := 0, fn := fn, node := s.node, body := .reset (s.gen fn) (nextGen (s.gen fn)) } [] s))))
    (hsubs : told.subsOf fn = [(k, pr)]) :
    beginReset fn false s =
      let t := (setSt k .resetting told).withCss (fun c => { c with ctl := kvDel c.ctl fn })
      let u := dropPosts fn (dropHeld fn (clearMailbox fn (t.setFn fn { t.fnOf fn with paused := false })))
      u.withCss (fun c => { c with resets := kvSet c.resets fn (kvGet c.resets fn false || false) }) := by
  subst htold
  simp only [beginReset, hquiet, hsubs, List.foldl_cons, List.foldl_nil, hprog, Bool.false_eq_true, if_false]

end Sys2Proof.Machine

open Sys2Proof Sys2Proof.Machine

/-- Settles O45: the resets follow their records, each command passes or fails the checks of the function it names. -/
theorem hostPortKeepsFunctionsApart : Obligations.HostPortKeepsFunctionsApart := by
  intro fn n b c o s
  dsimp only
  have hreal (hpos : 0 < fn) (hfn : fn ≤ 64) : (fn == 0 || decide (64 < fn)) = false := by simp; omega
  refine ⟨fun hcreated => settlesTo_congr (if_pos hcreated),
    fun hruns hdurable hdestroying hreset hflr t u ht hu hudestroying hureset huflrs => ?complete, fun hquiet k pr hprog hsubs => ?begin_,
    fun hmode => ⟨?port, fun hnone reg w => ?noFunction, fun hfn hvf reg v => ⟨?write, ?read⟩⟩, fun hfull speed width => ?link,
    fun hpos hfn hvf => ⟨fun hcreated => ?flr, fun hcreated => ?flrNone⟩, rfl, fun hfn hvf => ⟨?sleep, ?wake⟩,
    fun hlit hbusy hsel => ⟨fun hzero => ⟨?createPf, ?destroyPf⟩, fun hpos hfn hcreated => ?createAgain,
      fun hpos hfn hcreated => ⟨?destroyNone, ?resetNone, ?pauseNone, ?unpauseNone, ?setwinNone, fun hncq => ?createQueues,
        fun hlow hhigh hwin => ?createWindow⟩,
      fun hlog => ⟨fun hpos hfn hcreated hlow hhigh hwin => ?create, fun hpos hfn hcreated hdoms hfits hquiet => ?destroy,
        fun hfn hcreated => ⟨?reset, ?pause, ?unpause, fun hwin hidle => ?setwin⟩⟩⟩,
    fun hpos hfn hcreated hmode hvf hmse hpower => ⟨fun hrefused => ?sendRefused, fun hfree hlen hlen' hopen => ?send, fun hfull => ?ack⟩,
    fun hpos hfn hcreated hlit => ⟨fun hrefused => ?pfSendRefused, fun hfree hlen hlen' => ?pfSend, fun hfull => ?pfAck⟩,
    fun hlit hsel => ⟨fun hbusy => ?dirtyBusy, fun hidle hoff => ?dirtyOff, fun hidle hon => ?dirty⟩, rfl⟩
  case complete =>
    refine settlesTo_congr ((if_neg (by simp [hruns, hdurable])).trans ?_)
    simp only [ht, hu]
    simp [hudestroying, hdestroying, hureset, hreset, huflrs, hflr]
  case begin_ => exact beginReset_of_single hquiet hprog rfl hsubs
  case port => exact settlesTo_congr (if_neg hmode)
  case noFunction => exact settlesTo_congr ((if_neg hmode).trans (if_pos (by simpa using hnone)))
  case write => exact settlesTo_congr ((if_neg hmode).trans ((if_neg (not_absent hfn hvf)).trans rfl))
  case read => exact settlesTo_congr ((if_neg hmode).trans ((if_neg (not_absent hfn hvf)).trans rfl))
  case link => exact settlesTo_congr (if_neg (by simp [hfull]))
  case flr => exact settlesTo_congr ((if_neg (by simp [hvf]; omega)).trans (if_pos hcreated))
  case flrNone => exact settlesTo_congr ((if_neg (by simp [hvf]; omega)).trans (if_neg (hcreated ▸ Bool.false_ne_true)))
  case sleep => exact settlesTo_congr ((if_neg (not_absent hfn hvf)).trans (if_pos rfl))
  case wake => exact settlesTo_congr ((if_neg (not_absent hfn hvf)).trans (if_neg Bool.false_ne_true))
  case sendRefused =>
    refine settlesTo_congr ((mailboxPage_vf hpos hfn hmode hvf hmse hcreated hpower _).trans ((if_neg ?_).trans (if_pos ?_)))
    · exact (by simp [hcreated] : ¬ (!(s.fnOf fn).created) = true)
    · rcases hrefused with h | h | h | h
      exacts [.inl h, .inr (.inl h), .inr (.inr (.inl h)), .inr (.inr (.inr ⟨rfl, h⟩))]
  case send =>
    refine settlesTo_congr ((mailboxPage_vf hpos hfn hmode hvf hmse hcreated hpower _).trans ((if_neg ?_).trans ((if_neg ?_).trans rfl)))
    · exact (by simp [hcreated] : ¬ (!(s.fnOf fn).created) = true)
    · rintro (h | h | h | ⟨-, h⟩)
      exacts [Bool.false_ne_true (hfree.symm.trans h), by omega, by omega, Bool.false_ne_true (hopen.symm.trans h)]
  case ack => exact settlesTo_congr ((mailboxPage_vf hpos hfn hmode hvf hmse hcreated hpower _).trans (if_pos hfull))
  case pfSendRefused =>
    refine settlesTo_congr ((mailboxPage_pf hpos hfn hlit _).trans ((if_neg ?_).trans (if_pos ?_)))
    · simp [hcreated]
    · simpa using hrefused
  case pfSend =>
    refine settlesTo_congr ((mailboxPage_pf hpos hfn hlit _).trans ((if_neg ?_).trans ((if_neg ?_).trans rfl)))
    · simp [hcreated]
    · simp [hfree]; omega
  case pfAck => exact settlesTo_congr ((mailboxPage_pf hpos hfn hlit _).trans (if_pos hfull))
  case dirtyBusy => exact settlesTo_reach hlit (by simp only [hsel]; exact if_pos hbusy)
  case dirtyOff => exact settlesTo_reach hlit (by simp only [hsel]; exact (if_neg (by simp [hidle])).trans (if_pos (by simp [hoff])))
  case dirty => exact settlesTo_reach hlit (by simp only [hsel]; exact (if_neg (by simp [hidle])).trans (if_neg (by simp [hon])))
  case createPf => exact settlesTo_congr (busyCommand_fails hlit hbusy (by simp [hsel, hzero]) ..)
  case destroyPf => exact settlesTo_congr (busyCommand_fails hlit hbusy (by simp [hsel, hzero]) ..)
  case createAgain => exact settlesTo_congr (busyCommand_fails hlit hbusy (by simp [hsel, hreal hpos hfn, hcreated]) ..)
  case destroyNone => exact settlesTo_congr (busyCommand_fails hlit hbusy (by simp [hsel, hreal hpos hfn, hcreated]) ..)
  case resetNone => exact settlesTo_congr (busyCommand_fails hlit hbusy (by simp [hsel, hfn, hcreated]) ..)
  case pauseNone => exact settlesTo_congr (busyCommand_fails hlit hbusy (by simp [hsel, hfn, hcreated]) ..)
  case unpauseNone => exact settlesTo_congr (busyCommand_fails hlit hbusy (by simp [hsel, hfn, hcreated]) ..)
  case setwinNone => exact settlesTo_congr (busyCommand_fails hlit hbusy (by simp [hsel, hfn, hcreated]) ..)
  case createQueues => exact settlesTo_congr (busyCommand_fails hlit hbusy (by simp [hsel, hreal hpos hfn, hcreated, hncq]) ..)
  case createWindow =>
    exact settlesTo_congr (busyCommand_fails hlit hbusy
      (by simp [hsel, hreal hpos hfn, hcreated, hwin, Nat.ne_of_gt hlow, Nat.not_lt.2 hhigh]) ..)
  case create =>
    refine settlesTo_congr ((busyCommand_taken hlit hbusy hlog ?_ ..).trans ?_)
    · simp [hsel, hreal hpos hfn, hcreated, hwin, Nat.ne_of_gt hlow, Nat.not_lt.2 hhigh]
    · rw [hsel]
  case destroy =>
    refine settlesTo_congr ((busyCommand_taken hlit hbusy hlog ?_ ..).trans ?_)
    · simp [hsel, hreal hpos hfn, hcreated, hdoms, hfits]
    · simp only [hsel, hquiet, Bool.false_eq_true, if_false]
  case reset =>
    refine settlesTo_congr ((busyCommand_taken hlit hbusy hlog ?_ ..).trans ?_)
    · simp [hsel, hfn, hcreated]
    · rw [hsel]
  case pause =>
    refine settlesTo_congr ((busyCommand_taken hlit hbusy hlog ?_ ..).trans ?_)
    · simp [hsel, hfn, hcreated]
    · rw [hsel]
  case unpause =>
    refine settlesTo_congr ((busyCommand_taken hlit hbusy hlog ?_ ..).trans ?_)
    · simp [hsel, hfn, hcreated]
    · rw [hsel]
  case setwin =>
    refine settlesTo_congr ((busyCommand_taken hlit hbusy hlog ?_ ..).trans ?_)
    · simpa [hsel, hfn, hcreated, hwin] using fun k q hq => hidle (k, q) hq
    · rw [hsel]

end

section
/-!
The write path and the restore path of the engines: CHUNK, PROBE, PACK, SEAL, SPREAD and back (R25, R151 to R207).
-/

namespace Sys2Proof.Machine

/-! ## Programs -/

/-- Two changes of a program that agree on it are one. -/
theorem modProg_congr {k : Nat} {p : Prog} {f g : Prog → Prog} {s : State} (hprog : s.progAt k = some p) (h : f p = g p) :
    modProg k f s = modProg k g s := by
  have hsub : ∀ b, kvGet? s.css.subs k = some b → b.prog = some p := fun b hb => by
    simpa [State.progAt, State.subAt, kvGet, hb] using hprog
  have hmod : kvMod s.css.subs k (fun b => { b with prog := b.prog.map f }) = kvMod s.css.subs k (fun b => { b with prog := b.prog.map g }) := by
    cases hb : kvGet? s.css.subs k with
    | none => simp only [kvMod, hb]
    | some b => simp only [kvMod, hb, hsub b hb, Option.map_some, h]
  simp only [modProg, modSub, State.withCss, hmod]

/-! ## CHUNK (R151 to R155) -/

/-- A stream is the program of its subchannel. -/
theorem progAt_of_streams {k l : Nat} {p : Prog} {s : State} (h : s.streams k = some (p, l)) : s.progAt k = some p := by
  rw [State.streams] at h
  split at h
  case h_2 => exact nomatch h
  case h_1 q hq =>
    split at h
    case h_2 => exact nomatch h
    case h_1 =>
      split at h
      · cases h
        exact hq
      · exact nomatch h

/-- A byte inside an open chunk that is not digested: the hash and the chunk grow by it, then the chunk may be cut. -/
theorem feedByte_of_open {k : Nat} {p : Prog} {src : SrcPiece} {x : Byte} {v : State} (hprog : v.progAt k = some p) (hopen : p.open_ ≠ [])
    (hplain : src.sel.testBit 5 = false) :
    feedByte k src x v =
      let h := (2 * p.hash + gear (BitVec.toNat x)) % 2 ^ 64
      let len := p.open_.length + 1
      let fed := modProg k (fun p => { p with hash := h, open_ := p.open_ ++ [x], openSrc := p.openSrc, digest := p.digest }) v
      if src.sel.testBit 0 = true ∧ src.stages.chunkMin ≤ len ∧ h &&& cutMask src.stages.chunkLog = 0 then cutChunk k false fed
      else if len = src.stages.chunkMax then
        cutChunk k false (if src.sel.testBit 0 then fed.bump .ENG_CHUNK_MAXCUT_COUNT else fed)
      else fed := by
  have hopen' : p.open_.isEmpty = false := by simpa using hopen
  have hfed (h : Nat) : modProg k (fun q : Prog => { q with hash := h, open_ := q.open_ ++ [x], openSrc := if q.open_.isEmpty then some src else q.openSrc, digest := if false = true then q.digest ++ [x] else q.digest }) v =
      modProg k (fun q => { q with hash := h, open_ := q.open_ ++ [x], openSrc := q.openSrc, digest := q.digest }) v :=
    modProg_congr hprog (by rw [hopen']; rfl)
  simp only [feedByte, hprog]
  rw [hplain, hfed]
  simp only [Bool.and_eq_true, decide_eq_true_eq, beq_iff_eq, and_assoc]

/-! ## PACK (R154, R180, R182) -/

/-- The outcome of a PACK engine for a chunk whose program still runs. -/
theorem doPackChunkDone_of_up {k i e : Nat} {p : Prog} {x : Chunk} {s : State} (hprog : s.progAt k = some p) (hx : p.chunks[i]? = some x)
    (hplace : x.place = .packing e) (hup : s.packUp e = true) (heng : s.inEngines k = some p) (b : Bool) :
    doPackChunkDone k i e b s =
      let out := packStream x.stages.packFmt x.stages.packLevel x.stages.packWin x.data
      let on := fun (s : State) => commitStep k (dispatch k s)
      if ¬ out.length ≤ x.len - x.len * s.get .ENG_PACK_CTL_MIN_SAVE / 256 then on (storeRaw k i s)
      else if b = false ∧ (unpackStream x.stages.packFmt out).any (fun d => crc32c d == x.crc) = true then
        on (modChunk k i (fun c => { c with place := .packed, out := out, packed := true, raw := false, fmt := x.stages.packFmt })
          (if out.length < x.len then epbFlag .ENG_EPB_FLAGS_COMPRESSED s else s))
      else
        let v := epbFlag .ENG_EPB_FLAGS_RETRY (packMismatch e s)
        match v.packEngines.filter (· != e) with
        | o :: _ => if x.tries = 0 then modChunk k i (fun c => { c with place := .packing o, tries := 1, lastUnit := e }) v
          else on (storeRaw k i v)
        | [] => on (storeRaw k i v) := by
  simp only [doPackChunkDone, hprog, hx, heng]
  refine (if_neg (by simp [hplace, hup])).trans ((if_neg Bool.false_ne_true).trans ?_)
  have hchecks (out : List Byte) : x.checks out = (unpackStream x.stages.packFmt out).any (fun d => crc32c d == x.crc) := by
    rw [Chunk.checks]
    cases unpackStream x.stages.packFmt out <;> rfl
  simp only [hchecks, Bool.not_eq_true', decide_eq_false_iff_not, Bool.and_eq_true] <;> rfl

/-! ## Keys (R192) -/

/-- With nobody waiting, a pass over those who wait does nothing. -/
theorem foldl_map_of_nil {α β γ : Type} {f : γ → β → γ} {c : γ} {g : α → β} {l : List α} (h : l = []) : (l.map g).foldl f c = c := by
  rw [h]
  rfl

/-- No program waits for a key's slot. -/
theorem filter_keyLoad_of_none {n : Nat} {s : State}
    (h : ∀ q ∈ s.css.subs, (q.2.prog.bind (·.run)).map (·.place) ≠ some (.keyLoad n)) :
    s.css.subs.filter (fun q => match q.2.prog.bind (·.run) with | some r => r.place == .keyLoad n | none => false) = [] := by
  refine List.filter_eq_nil_iff.2 fun q hq => ?_
  have hq' := h q hq
  cases hrun : q.2.prog.bind (·.run) with
  | none => simp
  | some r => simpa [hrun] using hq'

end Sys2Proof.Machine

open Sys2Proof Sys2Proof.Machine

/-- Settles O46: each unit's command is unfolded to the branch its hypotheses choose, CHUNK byte by byte and PACK through the lemmas above. -/
theorem chunksPassDownTheWritePath : Obligations.ChunksPassDownTheWritePath := by
  intro k n b c s
  dsimp only
  refine ⟨fun p l f t hstream hfifo hshort => ?input, fun p v src x hprog hopen hplain => ⟨fun hcut => ?cut, fun hcut hmax => ?grows,
      fun hcut hmax => ?full⟩,
    fun p x ready heng hcut hup hprobe hready hkey => ⟨fun hnone => ?noDomain, fun d mac hd hdead hmac => ⟨fun hidx => ?invalid,
      fun hidx hmode => ⟨fun loc u hl => ?hit, fun u hl => ?miss⟩⟩⟩,
    fun dom fp v bk u hread => ⟨fun loc hb => ?bucket, fun hb => ?pend⟩,
    fun p x e i hprog hx hplace hup heng => ⟨fun hkeep => ?raw, fun hkeep hagrees => ?packed, fun eo t hkeep hbad hothers =>
      ⟨fun hfirst => ?again, fun hagain => ?rawAgain⟩⟩,
    fun p x e i hprog hx hplace hup heng => ?packedLate,
    fun p x loc v inv w heng hnext hup hn hslot hnonce hloc hinv => ⟨?sealed, ?mismatch⟩,
    fun p q x heng hq hx hplace hup hgoing => ⟨fun set hstripe hset => ?ask, fun y hy => ⟨fun hfits => ?closes, fun loc u hfits hloc hsealed hclose => ?put⟩⟩,
    fun y hy => ⟨fun hdig => ?digest, fun hdig hsyn hm => ?syndrome⟩,
    fun p r rs heng hrestore hverify => ⟨fun hplace hup hslot => ⟨?unsealMismatch, fun hbad => ?tag, fun d hd => ?unsealed⟩,
      fun x e hplace hengines hx he => ⟨fun d hd hlen hcrc => ?unpacked, fun hbad => ?decode⟩⟩,
    fun x hx hst hrun hrestart hup hdbg hwaits => ⟨fun hunwraps => ?loaded, ?unusable⟩⟩
  case input =>
    refine settlesTo_congr ?_
    have hrest : ¬(f.data.drop (min n (s.turnLeft k l p))).isEmpty = true := by
      rw [List.isEmpty_iff, List.drop_eq_nil_iff, not_le]
      exact hshort
    have hleft : modProg k (fun q => { q with fifo := { f with data := f.data.drop (min n (s.turnLeft k l q)) } :: t }) s =
        modProg k (fun q => { q with fifo := { f with data := f.data.drop (min n (s.turnLeft k l p)) } :: t }) s :=
      modProg_congr (progAt_of_streams hstream) rfl
    simp only [doChunkInputData, hstream, hfifo]
    rw [if_neg hrest, if_neg hrest, hleft]
  case cut => exact (feedByte_of_open hprog hopen hplain).trans (if_pos hcut)
  case grows => exact (feedByte_of_open hprog hopen hplain).trans ((if_neg hcut).trans (if_neg hmax))
  case full => exact (feedByte_of_open hprog hopen hplain).trans ((if_neg hcut).trans (if_pos hmax))
  case noDomain =>
    refine settlesTo_congr ?_
    simp only [doProbeLookup, heng, hcut, hup, hkey, hready, beq_eq_false_iff_ne.2 hprobe, Bool.not_true, Bool.or_self, Bool.false_eq_true, if_false]
    rcases hnone with h | h
    · simp only [h]
      rfl
    · simp only [List.isEmpty_eq_false_iff.2 h]
      cases kvGet? _ _ <;> rfl
  case invalid =>
    refine settlesTo_congr ?_
    simp only [doProbeLookup, heng, hcut, hup, hkey, hready, beq_eq_false_iff_ne.2 hprobe, Bool.not_true, Bool.or_self, Bool.false_eq_true, if_false,
      hd, hdead, List.isEmpty_nil, hmac]
    rw [probeKeyed]
    dsimp only
    exact if_pos (by rw [hidx]; rfl)
  case hit =>
    refine settlesTo_congr ?_
    simp only [doProbeLookup, heng, hcut, hup, hkey, hready, beq_eq_false_iff_ne.2 hprobe, Bool.not_true, Bool.or_self, Bool.false_eq_true, if_false,
      hd, hdead, List.isEmpty_nil, hmac]
    rw [probeKeyed]
    dsimp only
    refine (if_neg (by rw [hidx]; exact Bool.false_ne_true)).trans ?_
    rw [if_neg hmode, hl]
    rfl
  case miss =>
    refine settlesTo_congr ?_
    simp only [doProbeLookup, heng, hcut, hup, hkey, hready, beq_eq_false_iff_ne.2 hprobe, Bool.not_true, Bool.or_self, Bool.false_eq_true, if_false,
      hd, hdead, List.isEmpty_nil, hmac]
    rw [probeKeyed]
    dsimp only
    refine (if_neg (by rw [hidx]; exact Bool.false_ne_true)).trans ?_
    rw [if_neg hmode, hl]
    rfl
  case bucket => simp only [indexLookup, hread, hb, Option.some_or]
  case pend => simp only [indexLookup, hread, hb, Option.none_or]
  case raw =>
    exact settlesTo_congr ((doPackChunkDone_of_up hprog hx hplace hup heng b).trans (if_pos hkeep))
  case packed =>
    exact settlesTo_congr ((doPackChunkDone_of_up hprog hx hplace hup heng false).trans ((if_neg (not_not.2 hkeep)).trans (if_pos ⟨rfl, hagrees⟩)))
  case again =>
    refine settlesTo_congr ((doPackChunkDone_of_up hprog hx hplace hup heng b).trans ((if_neg (not_not.2 hkeep)).trans ((if_neg ?_).trans ?_)))
    · rintro ⟨hb, hok⟩
      rcases hbad with h | h
      · exact Bool.false_ne_true (hb.symm.trans h)
      · exact Bool.false_ne_true (h.symm.trans hok)
    · simp only [hothers, if_pos hfirst]
  case rawAgain =>
    refine settlesTo_congr ((doPackChunkDone_of_up hprog hx hplace hup heng b).trans ((if_neg (not_not.2 hkeep)).trans ((if_neg ?_).trans ?_)))
    · rintro ⟨hb, hok⟩
      rcases hbad with h | h
      · exact Bool.false_ne_true (hb.symm.trans h)
      · exact Bool.false_ne_true (h.symm.trans hok)
    · simp only [hothers, if_neg hagain]
  case packedLate =>
    refine settlesTo_congr ?_
    simp only [doPackChunkDone, hprog, hx, heng]
    exact (if_neg (by simp [hplace, hup])).trans (if_pos rfl)
  case sealed =>
    refine settlesTo_congr ?_
    simp only [doSealChunk, heng, hnext, hnonce, hloc, hinv]
    exact (if_neg (by simp only [hup, hslot]; simp; omega)).trans rfl
  case mismatch =>
    refine settlesTo_congr ?_
    simp only [doSealChunk, heng, hnext, hnonce, hloc, hinv]
    exact (if_neg (by simp only [hup, hslot]; simp; omega)).trans rfl
  case ask =>
    refine settlesTo_congr ?_
    simp only [doSpreadChunk, heng, hq, hx]
    refine (if_neg (by simp [hplace, hup, hgoing])).trans ?_
    simp only [hstripe, Option.bind_none, hset, Option.getD_some]
  case closes =>
    refine settlesTo_congr ?_
    simp only [doSpreadChunk, heng, hq, hx]
    refine (if_neg (by simp [hplace, hup, hgoing])).trans ?_
    simp only [hy]
    exact if_pos (by rw [hfits]; rfl)
  case put =>
    refine settlesTo_congr ?_
    simp only [doSpreadChunk, heng, hq, hx]
    refine (if_neg (by simp [hplace, hup, hgoing])).trans ?_
    simp only [hy]
    refine (if_neg (by rw [hfits]; exact Bool.false_ne_true)).trans ?_
    simp only [hloc, hsealed, hclose]
    rfl
  case digest => simp only [closeStripe, hy, hdig, if_true]
  case syndrome => simp only [closeStripe, hy, hdig]; exact (if_neg Bool.false_ne_true).trans (if_pos ⟨hsyn, hm⟩)
  case unsealMismatch =>
    refine settlesTo_congr ?_
    simp only [doUnsealChunk, heng, hrestore]
    exact (if_neg (by simp only [hverify, hplace, hup, hslot]; simp)).trans (if_pos trivial)
  case tag =>
    refine settlesTo_congr ?_
    simp only [doUnsealChunk, heng, hrestore]
    refine (if_neg (by simp only [hverify, hplace, hup, hslot]; simp)).trans ((if_neg Bool.false_ne_true).trans ?_)
    simp only [hbad]
  case unsealed =>
    refine settlesTo_congr ?_
    simp only [doUnsealChunk, heng, hrestore]
    refine (if_neg (by simp only [hverify, hplace, hup, hslot]; simp)).trans ((if_neg Bool.false_ne_true).trans ?_)
    simp only [hd]
  case unpacked =>
    refine settlesTo_congr ?_
    simp only [doUnpackChunk, heng, hrestore]
    refine (if_neg (by simp [hverify, hplace, hengines])).trans ?_
    simp only [hx, he, hd]
    exact if_pos (by rcases hcrc with h | h <;> simp [hlen, h])
  case decode =>
    refine settlesTo_congr ?_
    simp only [doUnpackChunk, heng, hrestore]
    refine (if_neg (by simp [hverify, hplace, hengines])).trans ?_
    simp only [hx, he, hbad]
    rfl
  case loaded =>
    refine settlesTo_congr ?_
    simp only [doKeySlotLoad, hx]
    refine (if_neg (by simp [hst, hrun, hrestart, hup, hdbg])).trans ((if_pos (by simp [hunwraps])).trans ?_)
    exact foldl_map_of_nil (filter_keyLoad_of_none hwaits)
  case unusable =>
    refine settlesTo_congr ?_
    simp only [doKeySlotLoad, hx]
    refine (if_neg (by simp [hst, hrun, hrestart, hup, hdbg])).trans ((if_neg (by simp)).trans ?_)
    exact foldl_map_of_nil (filter_keyLoad_of_none hwaits)

end

section
/-!
The tables and their commands: domains, the dedup index, the descriptor log and the stripe directory (R158 to R175, R215 to R219, R601).
-/

namespace Sys2Proof.Machine

/-! ## Commands -/

/-- A command of a block with BUSY 0, none of whose checks fails, that the log refuses (R10). -/
theorem busyCommand_refused {s : State} {o : Origin} {r : Reg} {busy : Fld} (hlit : s.lit o r) (hbusy : s.on busy = false)
    (hlog : s.logTakes o = false) {checks : List (Bool × Nat)} (hpass : checks.find? (·.1) = none) (v : Nat) (res : Fld) (refused : Nat)
    (act : State → State) : busyCommand o r busy v res refused checks act s = (logRefuse s).set res refused := by
  simp only [busyCommand_lit _ _ _ _ _ _ _ _ _ hlit hbusy, hpass, hlog, Bool.false_eq_true, if_false]

/-- A directory command of the firmware while no FLUSH runs. -/
theorem dirCommand_idle {o : Origin} {s : State} (hfw : isFw o = true) (hlit : s.lit o .ENG_DIR_CMD) (hbusy : s.on .ENG_DIR_CMD_BUSY = false)
    (act : State → State) : dirCommand o act s = act s := by
  rw [dirCommand, reach_lit _ _ _ hlit _]
  exact if_neg (by simp [hfw, hbusy])

/-- Nothing of ENG_DIR_CMD acts while a FLUSH runs (R602). -/
theorem dirCommand_busy {o : Origin} {s : State} (hlit : s.lit o .ENG_DIR_CMD) (hbusy : s.on .ENG_DIR_CMD_BUSY = true)
    (act : State → State) : dirCommand o act s = s := by
  rw [dirCommand, reach_lit _ _ _ hlit _]
  exact if_pos (.inr hbusy)

/-! ## The index's purges (R170 to R172) -/

/-- The purge slots a mask frees, where one alone is done. -/
theorem purgeSlots_of_done {n m : Nat} {s : State} (hn : n < 16) (hdone : ∀ i < 16, s.bitB .ENG_IDX_PURGE_DONE 0 i = (i == n)) :
    (List.range 16).filter (fun i => m.testBit i && s.bitB .ENG_IDX_PURGE_DONE 0 i) = if m.testBit n then [n] else [] := by
  have hmask : (List.range 16).filter (fun i => m.testBit i && s.bitB .ENG_IDX_PURGE_DONE 0 i) =
      (List.range 16).filter (fun i => m.testBit n && i == n) := by
    refine List.filter_congr fun i hi => ?_
    rw [hdone i (List.mem_range.1 hi)]
    by_cases h : i = n
    · rw [h]
    · rw [beq_eq_false_iff_ne.2 h, Bool.and_false, Bool.and_false]
  have hone : ∀ n < 16, (List.range 16).filter (· == n) = [n] := by decide
  rw [hmask]
  cases m.testBit n with
  | false => simp
  | true => simpa using hone n hn

/-! ## The descriptor log's head (R215) -/

/-- The head's way to `dest`: the entries behind it are freed, and REPAIR entries that waited get their room. -/
def headTo (dest : Nat) (s : State) : State :=
  let h := s.get .ENG_DLOG_CTL_HEAD
  let freed := (List.range ((dest + dlogSize - h) % dlogSize)).map (fun i => (h + i) % dlogSize)
  let left := (s.withEng (fun e => { e with dlog := e.dlog.filter (fun q => !freed.contains q.1) })).set .ENG_DLOG_CTL_HEAD dest
  pumpRepairs left.eng.repairWait left

theorem doDlogHeadWrite_fw {o : Origin} {v : Nat} {s : State} (hfw : isFw o = true) (hlit : s.lit o .ENG_DLOG_CTL) (hv : v < dlogSize) :
    doDlogHeadWrite o v s =
      let h := s.get .ENG_DLOG_CTL_HEAD
      let ahead := fun x => (x + dlogSize - h) % dlogSize
      let mark := s.get .ENG_DLOG_MARK_MARK
      headTo (if ahead v ≤ ahead mark then v else if ahead v ≤ ahead (s.get .ENG_DLOG_CTL_TAIL) then mark else h) s := by
  rw [doDlogHeadWrite, reach_lit _ _ _ hlit _]
  refine (if_neg (by rw [hfw]; exact Bool.false_ne_true)).trans ?_
  simp only [Nat.mod_eq_of_lt hv]
  rfl

end Sys2Proof.Machine

open Sys2Proof Sys2Proof.Machine

/-- Settles O47: the commands are taken or refused by the lemmas on BUSY commands, and each completion is unfolded to the branch its hypotheses choose. -/
theorem tablesFollowTheirCommands : Obligations.TablesFollowTheirCommands := by
  intro n v o s
  dsimp only
  refine ⟨fun hlit hbusy d hd => ?dom, fun c d new hcmd => ⟨?cmdRefused, fun hc hdbg => ?cmdDebug, fun hc hdbg => ?created,
      fun hc => ?destroyed⟩,
    fun hlit hbusy => ⟨fun hoff => ⟨?clearOff, ?purgeOff, ?loadOff⟩, fun hon hlog => ⟨?clear, fun i hfree hle => ?purge, fun hin halign => ?load⟩⟩,
    fun hbusy hstate => ?cleared, fun a k hcmd hstate => ?loaded, fun q hq hscan hstate => ?scanned,
    fun hlit hn hdone => ⟨?freed, ?freesNone⟩,
    fun hfw hlog hdreq hdir => ⟨fun hv => ⟨fun hmark => ?toHead, fun hmark htail => ?toMark, fun hmark htail => ?stays⟩,
      fun hheld hlook => ?dreqHead, fun r t hreqs hposted hpost => ?rearm,
      fun hbusy => ⟨?filledBusy, ?absentBusy, ?flushBusy⟩,
      fun hbusy => ⟨fun hwaits => ⟨?filledNone, ?absentNone⟩, fun k r rs hwaits hone hrestore => ?absent,
        fun d u hkind hwaits hslots hread htype hid => ?filled⟩,
      fun hbusy => ?flush⟩,
    fun r t hreq hpost => ?posted, fun hbusy => ?flushed⟩
  case dom =>
    subst hd
    refine ⟨fun h0 => ⟨?_, ?_, ?_⟩, fun h0 hhas => ?_, fun h0 hhas => ⟨?_, ?_⟩, fun hlog h0 hhas => ?_,
      fun hlog h0 => ⟨fun hhas hown => ?_, fun hhas => ?_, fun hhas hown => ?_⟩⟩
    · exact settlesTo_congr (busyCommand_fails hlit hbusy (by simp [h0]) ..)
    · exact settlesTo_congr (busyCommand_fails hlit hbusy (by simp [h0]) ..)
    · exact settlesTo_congr (busyCommand_fails hlit hbusy (by simp [h0]) ..)
    · exact settlesTo_congr (busyCommand_fails hlit hbusy (by simp [h0.ne', hhas]) ..)
    · exact settlesTo_congr (busyCommand_fails hlit hbusy (by simp [h0.ne', hhas]) ..)
    · exact settlesTo_congr (busyCommand_fails hlit hbusy (by simp [h0.ne', hhas]) ..)
    · exact settlesTo_congr (busyCommand_refused hlit hbusy hlog (by simp [h0.ne', hhas]) ..)
    · exact settlesTo_congr (busyCommand_taken hlit hbusy hlog (by rcases hown with h | h <;> simp [h0.ne', hhas, h]) ..)
    · exact settlesTo_congr (busyCommand_taken hlit hbusy hlog (by simp [h0.ne', hhas]) ..)
    · refine settlesTo_congr ((busyCommand_taken hlit hbusy hlog (by simp [h0.ne', hhas, hown]) ..).trans ?_)
      simp only [hown]
  case cmdRefused =>
    refine settlesTo_congr ?_
    simp only [doDomainCmdComplete, hcmd]
    rfl
  case cmdDebug =>
    refine settlesTo_congr ?_
    simp only [doDomainCmdComplete, hcmd]
    exact if_pos (by simp [hc, hdbg])
  case created =>
    refine settlesTo_congr ?_
    simp only [doDomainCmdComplete, hcmd]
    exact (if_neg (by simp [hdbg])).trans (if_pos hc)
  case destroyed =>
    refine settlesTo_congr ?_
    simp only [doDomainCmdComplete, hcmd]
    exact (if_neg (by simp [hc])).trans (if_neg (by simp [hc]))
  case clearOff => exact settlesTo_congr (busyCommand_fails hlit hbusy (by simp [State.idxOff, hoff]) ..)
  case purgeOff => exact settlesTo_congr (busyCommand_fails hlit hbusy (by simp [State.idxOff, hoff]) ..)
  case loadOff => exact settlesTo_congr (busyCommand_fails hlit hbusy (by simp [State.idxOff, hoff]) ..)
  case clear => exact settlesTo_congr (busyCommand_taken hlit hbusy hlog (by simp [State.idxOff, hon]) ..)
  case purge =>
    refine settlesTo_congr ((busyCommand_taken hlit hbusy hlog (by simp [State.idxOff, hon, hfree, hle]) ..).trans ?_)
    simp only [hfree]
  case load => exact settlesTo_congr (busyCommand_taken hlit hbusy hlog (by simp [State.idxOff, hon, hin, halign]) ..)
  case cleared => exact settlesTo_congr (if_pos (by simp [hbusy, hstate]))
  case loaded =>
    refine settlesTo_congr ?_
    simp only [doIdxLoadComplete, hcmd]
    exact if_neg hstate
  case scanned =>
    refine settlesTo_congr ?_
    simp only [doPurgeScanComplete, hq]
    refine (if_neg (by rw [hscan]; exact Bool.false_ne_true)).trans ?_
    rw [if_pos (by simp [hstate])]
  case freed =>
    refine settlesTo_congr ((reach_lit _ _ _ hlit _).trans ?_)
    rw [purgeSlots_of_done hn hdone, if_pos (by simp)]
    rfl
  case freesNone =>
    refine settlesTo_congr ((reach_lit _ _ _ hlit _).trans ?_)
    rw [purgeSlots_of_done hn hdone, if_neg (by simp)]
    rfl
  case toHead => exact settlesTo_congr ((doDlogHeadWrite_fw hfw hlog hv).trans (congrArg (headTo · s) (if_pos hmark)))
  case toMark =>
    exact settlesTo_congr ((doDlogHeadWrite_fw hfw hlog hv).trans (congrArg (headTo · s) ((if_neg (not_le.2 hmark)).trans (if_pos htail))))
  case stays =>
    exact settlesTo_congr ((doDlogHeadWrite_fw hfw hlog hv).trans (congrArg (headTo · s)
      ((if_neg (not_le.2 hmark)).trans (if_neg (not_le.2 htail)))))
  case dreqHead =>
    refine settlesTo_congr ((reach_lit _ _ _ hdreq _).trans ((if_neg (by rw [hfw]; exact Bool.false_ne_true)).trans ?_))
    dsimp only
    rw [hheld, hlook]
    rfl
  case rearm =>
    refine settlesTo_congr ((reach_lit _ _ _ hdreq _).trans ((if_neg (by rw [hfw]; exact Bool.false_ne_true)).trans ?_))
    rw [hreqs, List.foldl_cons, List.foldl_nil, if_pos hposted, hpost]
  case filledBusy => exact settlesTo_congr (dirCommand_busy hdir hbusy _)
  case absentBusy => exact settlesTo_congr (dirCommand_busy hdir hbusy _)
  case flushBusy => exact settlesTo_congr (dirCommand_busy hdir hbusy _)
  case filledNone => exact settlesTo_congr ((dirCommand_idle hfw hdir hbusy _).trans (if_pos (by rw [hwaits]; rfl)))
  case absentNone => exact settlesTo_congr ((dirCommand_idle hfw hdir hbusy _).trans (if_pos (by rw [hwaits]; rfl)))
  case absent =>
    refine settlesTo_congr ((dirCommand_idle hfw hdir hbusy _).trans ((if_neg (by rw [hwaits]; exact Bool.false_ne_true)).trans ?_))
    rw [hone, List.foldl_cons, List.foldl_nil, hrestore]
  case filled =>
    subst hkind
    refine settlesTo_congr ((dirCommand_idle hfw hdir hbusy _).trans ((if_neg (by rw [hwaits]; exact Bool.false_ne_true)).trans
      ((if_neg (by simp [hslots])).trans ?_)))
    rw [hread]
    exact if_pos ⟨htype, hid⟩
  case flush => exact settlesTo_congr (dirCommand_idle hfw hdir hbusy _)
  case posted =>
    refine settlesTo_congr ?_
    simp only [doDirRequestPost, hreq, hpost]
  case flushed => exact settlesTo_congr (if_pos hbusy)

end

section
/-!
The ring: frames, delivery in order, the node list, claims, and the ports' loss and wrap (R461 to R485).
-/

namespace Sys2Proof.Machine

/-! ## Frames at a port (R473 to R475) -/

/-- A frame whose header holds, where a port that can receive takes it. -/
theorem doRingFrameReceive_good {port : Nat} {f : Frame} {s : State} (hbypass : s.ring.bypass = false) (hport : port < 2)
    (hpd : s.pdOn (34 + port) = true) (hgood : frameBad f = false) (crc : Bool) :
    doRingFrameReceive port f crc true s =
      if crc then
        let t := keepClaim f.src f.pairId f.claim s
        if f.src = t.node then
          takeOff port f (if f.broadcast then deliverFrame port f (t.withRing (fun r => { r with farWrap := f.wrapped })) else t)
        else if f.broadcast then passOn port f (deliverFrame port f t)
        else if f.dst = t.node then takeOff port f (deliverFrame port f t)
        else passOn port f t
      else creditBack port f (raiseCe (39 + port) 11 7 f.src 0 (s.bumpB .RNG_CRC_DROP_COUNT port 1)) := by
  rw [doRingFrameReceive]
  refine (if_neg (by simp [hbypass, hpd, Nat.le_of_lt_succ hport])).trans ((if_neg (by simp [hgood])).trans ?_)
  cases crc <;> rfl

/-- The delivery of a frame of a session already known, at a claim that is not low. -/
theorem deliverFrame_known {port : Nat} {f : Frame} {s : State} (hsession : f.session = kvGet s.ring.sessions f.src 0) (hcls : f.cls ≠ clsLink) :
    deliverFrame port f s =
      if claimLow f s then
        queueOwn (s.shortWay f.src) (s.newFrame clsLink linkClaimNack f.src
          (leBytes 4 (s.getB .RNG_CLAIM_CLAIM f.pairId) ++ leBytes 4 f.seq ++ leBytes 1 f.cls)) (s.bump .RNG_CLAIM_DROP_COUNT)
      else acceptMsg f s := by
  have hsee : seeSession f.src f.session s = s := if_neg (by rw [hsession]; exact Nat.lt_irrefl _)
  rw [deliverFrame]
  refine (if_neg (by rw [hsession]; exact Nat.lt_irrefl _)).trans ?_
  dsimp only
  rw [hsee, if_neg hcls]

/-! ## Delivery in order (R479) -/

/-- A flow's receiver with `h` held and `c` delivered. -/
def holdAt (key : Nat) (h : KV Frame) (c : Nat) (s : State) : State :=
  s.withRing (fun r => { r with rx := kvSet r.rx key { cum := c, held := h } })

theorem rx_holdAt (key : Nat) (h : KV Frame) (c : Nat) (s : State) : kvGet (holdAt key h c s).ring.rx key {} = { cum := c, held := h } := by
  show (kvGet? (kvSet s.ring.rx key _) key).getD {} = _
  rw [kvGet?_kvSet_same]
  rfl

/-- A message past a gap waits. -/
theorem deliverHeld_gap {key n c q : Nat} {f : Frame} (hgap : q ≠ (c + 1) % 2 ^ 32) (s : State) :
    deliverHeld key (n + 1) (holdAt key [(q, f)] c s) = holdAt key [(q, f)] c s := by
  rw [deliverHeld_succ, rx_holdAt]
  simp only [kvGet?, if_neg hgap]

/-- The next message is delivered. -/
theorem deliverHeld_next {key n c : Nat} {f : Frame} (s : State) :
    deliverHeld key (n + 1) (holdAt key [((c + 1) % 2 ^ 32, f)] c s) =
      deliverHeld key n (deliverMsg f (holdAt key [] ((c + 1) % 2 ^ 32) (holdAt key [((c + 1) % 2 ^ 32, f)] c s))) := by
  rw [deliverHeld_succ, rx_holdAt]
  simp only [kvGet?, kvDel, if_true]
  rfl

/-- A message neither delivered nor held before, where nothing is held, is held until its turn. -/
theorem acceptMsg_new {f : Frame} {s : State} (hheld : (kvGet s.ring.rx (flowKey f.cls f.src) {}).held = [])
    (hlow : (f.seq + 2 ^ 32 - (kvGet s.ring.rx (flowKey f.cls f.src) {}).cum) % 2 ^ 32 ≠ 0)
    (hhigh : (f.seq + 2 ^ 32 - (kvGet s.ring.rx (flowKey f.cls f.src) {}).cum) % 2 ^ 32 ≤ 64) :
    acceptMsg f s = sendAck f.cls f.src (deliverHeld (flowKey f.cls f.src) 65
      (holdAt (flowKey f.cls f.src) [(f.seq, f)] (kvGet s.ring.rx (flowKey f.cls f.src) {}).cum s)) := by
  rw [acceptMsg]
  refine (if_neg ?_).trans ?_
  · rw [hheld]
    rintro (h | h | h)
    · exact hlow h
    · exact absurd hhigh (not_le.2 h)
    · exact Bool.false_ne_true h
  · rw [hheld]
    rfl

/-! ## Claims and spans (R465, R471) -/

/-- A claim of another pair is kept when it is higher than the one known, and nothing else follows. -/
theorem keepClaim_of_other {src n claim : Nat} {s : State} (hpair : n ≠ s.get .CLM_PAIR_PAIR_ID) :
    keepClaim src n claim s =
      if s.onB .RNG_CLAIM_VALID n ∧ claim ≤ s.getB .RNG_CLAIM_CLAIM n then s
      else ((s.setB .RNG_CLAIM_CLAIM n claim).setB .RNG_CLAIM_NODE n src).setB .RNG_CLAIM_VALID n 1 := by
  rw [keepClaim]
  refine if_neg fun h => hpair ?_
  rw [h.1]
  split
  · rfl
  · rw [State.get, getB_setB_ne _ _ _ _ _ _ (by simp), getB_setB_ne _ _ _ _ _ _ (by simp), getB_setB_ne _ _ _ _ _ _ (by simp)]
    rfl

/-- A port that loses its light is wrapped or not as before. -/
theorem wrapped_setLock (port p : Nat) (b : Bool) (s : State) : (setLock port b s).wrapped p = s.wrapped p := by
  simp only [State.wrapped, setLock, State.on]
  rw [getB_setB_ne _ _ _ _ _ _ (by simp), getB_setB_ne _ _ _ _ _ _ (by simp), getB_setB_ne _ _ _ _ _ _ (by simp),
    getB_setB_ne _ _ _ _ _ _ (by simp), getB_setB_ne _ _ _ _ _ _ (by simp), getB_setB_ne _ _ _ _ _ _ (by simp)]

/-- A span that goes dark waits out its drawn time. -/
theorem doPortLoss_new {port k : Nat} {s t : State} (hbypass : s.ring.bypass = false) (hport : port < 2) (hwrap : s.wrapped port = false)
    (hlost : kvHas s.ring.lost port = false) (hdraw : (setLock port false s).draw = (k, t)) :
    doPortLoss port s = raiseUe (39 + port) 1 0 7 s.node 0 (syncRing (t.withRing (fun r =>
      { r with lost := kvSet r.lost port (t.now + Config.freeNat k % 1000001) }))) := by
  rw [doPortLoss]
  refine (if_neg (by simp [hbypass, Nat.le_of_lt_succ hport])).trans ((if_neg (by simp [hwrap, hlost])).trans (congrArg _ ?_))
  rw [loseSpan]
  refine (if_neg ?_).trans ?_
  · rw [wrapped_setLock, hwrap]
    exact not_or.2 ⟨Bool.false_ne_true, hlost ▸ Bool.false_ne_true⟩
  · rw [hdraw]

/-! ## Frames that leave (R475) -/

/-- A port that can send sends the frame passing through or the node's own by turns. -/
theorem doFrameTransmit_open {port : Nat} {s : State} (hbypass : s.ring.bypass = false) (hport : port < 2) (hwrap : s.wrapped port = false)
    (hlost : kvHas s.ring.lost port = false) (hpd : s.pdOn (34 + port) = true) :
    doFrameTransmit port s =
      match s.nextFrame port (·.1) (kvGet s.ring.transit port []), s.nextFrame port id (s.ownReady port) with
      | some (q, t), some (g, _) => if 4 ≤ kvGet s.ring.since port 0 then sendOwnFrame port g s else sendTransit port q t s
      | some (q, t), none => sendTransit port q t s
      | none, some (g, _) => sendOwnFrame port g s
      | none, none => s := by
  rw [doFrameTransmit]
  refine (if_neg (by simp [hbypass, Nat.le_of_lt_succ hport, hwrap, hlost, hpd])).trans ?_
  rfl

end Sys2Proof.Machine

open Sys2Proof Sys2Proof.Machine

/-- Settles O49: a frame goes through the checks of its port in order and then its flow, and the other rows are unfolded to the branch their hypotheses choose. -/
theorem ringDeliversOnceAndKeepsItsList : Obligations.RingDeliversOnceAndKeepsItsList := by
  intro port src cls n seq b f o s
  dsimp only
  refine ⟨fun hbypass hport hpd => ⟨?malformed, fun hgood => ⟨?crc, fun t ht hsrc hone => ⟨fun hdst hwrap => ?passes,
      fun hdst => ⟨fun hold => ?stale, fun hsession hcls => ⟨fun hlow => ?claimNack, fun hlow => ⟨fun hdup => ?dup, fun hd hd' hheld => ?gap,
        fun hcum hseq hheld => ?inSequence⟩⟩⟩⟩⟩⟩,
    ⟨fun hcls cum bitmap => ?ack, fun m claim hone => ?nack, fun m hstate hcredit hfind => ⟨fun htries => ?again, fun htries => ?gives⟩⟩,
    fun mode serial pair claim sess => ⟨fun hsrc hserial => ?own, fun hsrc hserial => ?duplicate, fun hsrc hrange hstate hpair => ?heard⟩,
    fun hbypass hannounced => ?tick, fun hstate => ?listTimeout, fun hpresent => ?gone, fun hsrc => ?leave,
    fun hpair claim => ⟨fun hhigh => ?claimKept, fun hvalid hclaim => ?claimStale⟩,
    fun hsrc hbypass hleaving => ?remove,
    fun hbypass hport hwrap => ⟨fun hlost hother => ?wraps, fun hlost i t k hi hdraw => ?dark,
      fun hpd hlost => ⟨fun q rest htr hown => ?transit, fun g rest hown htr => ?ownFrame⟩⟩,
    fun hbypass hport hdown hpd => ?unwrap, fun hport hcls => ?credit, fun hstate => ⟨?loopback, ?loopFail⟩, ?mems,
    fun hlit hlog hinsert => ?insert, fun hleaving => ?bypass, fun hn hkind => ?inject⟩
  case malformed =>
    exact settlesTo_congr ((if_neg (by simp [hbypass, hpd, Nat.le_of_lt_succ hport])).trans (if_pos rfl))
  case crc => exact settlesTo_congr (doRingFrameReceive_good hbypass hport hpd hgood false)
  case passes =>
    refine settlesTo_congr ((doRingFrameReceive_good hbypass hport hpd hgood true).trans ?_)
    rw [if_pos rfl, ht]
    refine (if_neg hsrc).trans ((if_neg (by simp [hone])).trans ((if_neg hdst).trans ?_))
    simp only [passOn, hwrap]
    rfl
  case stale =>
    refine settlesTo_congr ((doRingFrameReceive_good hbypass hport hpd hgood true).trans ?_)
    rw [if_pos rfl, ht]
    refine (if_neg hsrc).trans ((if_neg (by simp [hone])).trans ((if_pos hdst).trans (congrArg (takeOff port f) ?_)))
    exact if_pos hold
  case claimNack =>
    refine settlesTo_congr ((doRingFrameReceive_good hbypass hport hpd hgood true).trans ?_)
    rw [if_pos rfl, ht]
    refine (if_neg hsrc).trans ((if_neg (by simp [hone])).trans ((if_pos hdst).trans (congrArg (takeOff port f) ?_)))
    exact (deliverFrame_known hsession hcls).trans (if_pos hlow)
  case dup =>
    refine settlesTo_congr ((doRingFrameReceive_good hbypass hport hpd hgood true).trans ?_)
    rw [if_pos rfl, ht]
    refine (if_neg hsrc).trans ((if_neg (by simp [hone])).trans ((if_pos hdst).trans (congrArg (takeOff port f) ?_)))
    exact (deliverFrame_known hsession hcls).trans ((if_neg (by simp [hlow])).trans (if_pos hdup))
  case gap =>
    refine settlesTo_congr ((doRingFrameReceive_good hbypass hport hpd hgood true).trans ?_)
    rw [if_pos rfl, ht]
    refine (if_neg hsrc).trans ((if_neg (by simp [hone])).trans ((if_pos hdst).trans (congrArg (takeOff port f) ?_)))
    refine (deliverFrame_known hsession hcls).trans ((if_neg (by simp [hlow])).trans ((acceptMsg_new hheld (by omega) hd').trans ?_))
    exact congrArg (sendAck f.cls f.src) (deliverHeld_gap (by omega) t)
  case inSequence =>
    refine settlesTo_congr ((doRingFrameReceive_good hbypass hport hpd hgood true).trans ?_)
    rw [if_pos rfl, ht]
    refine (if_neg hsrc).trans ((if_neg (by simp [hone])).trans ((if_pos hdst).trans (congrArg (takeOff port f) ?_)))
    refine (deliverFrame_known hsession hcls).trans ((if_neg (by simp [hlow])).trans
      ((acceptMsg_new hheld (by omega) (by omega)).trans ?_))
    rw [hseq]
    exact congrArg (sendAck f.cls f.src) (deliverHeld_next t)
  case ack =>
    refine settlesTo_congr ?_
    rw [hcls, doRingAck]
    exact congrArg (pumpFlow _ 64) (List.foldl_fixed' (fun m => if_neg (by rintro ⟨h, -⟩; exact absurd h (by decide))) _)
  case nack =>
    refine settlesTo_congr ?_
    rw [doClaimNack, hone]
    rfl
  case again =>
    refine settlesTo_congr ?_
    simp only [doRetxTimeout, hfind]
    exact (if_neg (by simp [hstate, hcredit])).trans (if_neg (not_le.2 htries))
  case gives =>
    refine settlesTo_congr ?_
    simp only [doRetxTimeout, hfind]
    exact (if_neg (by simp [hstate, hcredit])).trans (if_pos htries)
  case own => exact settlesTo_congr ((if_pos hsrc).trans (if_pos hserial))
  case duplicate => exact settlesTo_congr ((if_pos hsrc).trans (if_neg hserial))
  case heard =>
    refine settlesTo_congr ((if_neg hsrc).trans ((if_neg (by simp [hstate, hrange])).trans (congrArg pairLook ?_)))
    exact if_neg (by simp [hpair])
  case tick =>
    refine settlesTo_congr ((if_neg (by simp [hbypass])).trans ?_)
    exact if_neg (by simp [hannounced])
  case listTimeout => exact settlesTo_congr (if_pos hstate)
  case gone => exact if_neg (by simp [hpresent])
  case leave =>
    refine settlesTo_congr ((if_neg hsrc).trans ?_)
    simp only [State.neighbour, decide_eq_true_eq]
  case claimKept =>
    refine settlesTo_congr ((keepClaim_of_other hpair).trans (if_neg ?_))
    rintro ⟨hv, hc⟩
    rcases hhigh with h | h
    · exact Bool.false_ne_true (h.symm.trans hv)
    · exact absurd hc (not_le.2 h)
  case claimStale => exact settlesTo_congr ((keepClaim_of_other hpair).trans (if_pos ⟨hvalid, hclaim⟩))
  case remove =>
    refine settlesTo_congr ((if_pos ⟨rfl, hsrc⟩).trans ?_)
    rw [beginLeave, if_neg (by simp [hbypass, hleaving])]
  case wraps =>
    refine settlesTo_congr ((if_pos hlost).trans ((if_neg (by simp [hbypass, hwrap, Nat.le_of_lt_succ hport])).trans (congrArg syncRing (if_neg ?_))))
    rw [hother]
    exact Bool.false_ne_true
  case dark =>
    have hloss := doPortLoss_new hbypass hport hwrap hlost hdraw
    rcases List.mem_pair.1 hi with rfl | rfl
    · exact settlesTo_congr hloss
    · exact settlesTo_congr ((if_neg (by simp [hlost])).trans hloss)
  case transit =>
    refine settlesTo_congr ((doFrameTransmit_open hbypass hport hwrap hlost hpd).trans ?_)
    rw [htr]
    rcases hown with hown | hsince
    · rw [hown]
      rfl
    · cases s.nextFrame port id (s.ownReady port) with
      | none => rfl
      | some g => exact if_neg (not_le.2 hsince)
  case ownFrame =>
    refine settlesTo_congr ((doFrameTransmit_open hbypass hport hwrap hlost hpd).trans ?_)
    rw [hown]
    rcases htr with htr | hsince
    · rw [htr]
      rfl
    · cases s.nextFrame port (·.1) (kvGet s.ring.transit port []) with
      | none => rfl
      | some q => exact if_pos hsince
  case unwrap => exact settlesTo_congr (if_neg (by rcases hdown with h | h <;> simp [hbypass, Nat.le_of_lt_succ hport, h, hpd]))
  case credit => exact settlesTo_congr (if_neg (by omega))
  case loopback => exact settlesTo_congr (if_neg (not_not.2 hstate))
  case loopFail => exact settlesTo_congr (if_neg (not_not.2 hstate))
  case mems => exact settlesTo_congr (if_pos rfl)
  case insert =>
    refine settlesTo_congr ((reach_lit _ _ _ hlit _).trans ((if_pos hlog).trans ?_))
    rw [hinsert]
  case bypass => exact settlesTo_congr (if_pos hleaving)
  case inject =>
    refine settlesTo_congr ((if_pos hn).trans (if_neg ?_))
    rw [hkind]
    decide

end

section
/-!
Remote subchannels and mirroring: the messages of the REMOTE class, and the mirror messages of a pair (R101, R103, R124, R140, R143, R483, R521).
-/

namespace Sys2Proof.Machine

/-! ## The executing node (R101) -/

/-- The program a message's token names. -/
theorem execOf_of_token {h : RemoteHdr} {p : Prog} {s : State} (hprog : s.progAt (execKey h.src h.sch) = some p) (htoken : p.token = h.token) :
    s.execOf h = some (execKey h.src h.sch) := by
  rw [State.execOf, hprog]
  exact if_pos (congrArg some htoken)

/-- A message of another token names no program. -/
theorem execOf_of_other {h : RemoteHdr} {p : Prog} {s : State} (hprog : s.progAt (execKey h.src h.sch) = some p) (htoken : p.token ≠ h.token) :
    s.execOf h = none := by
  rw [State.execOf, hprog]
  exact if_neg fun heq => htoken (Option.some.inj heq)

/-- A part of a block that more parts follow. -/
theorem feedPart_of_more {k len : Nat} {asks : List Nat} {p : Prog} {s : State} (hprog : s.progAt k = some p) (hasks : p.blockAsks = len :: asks)
    (data : HostRead) (hmore : p.blockGot.length + 1 < divUp len 9152) :
    feedPart k data s = modProg k (fun q => { q with blockGot := q.blockGot ++ [data] }) s := by
  simp only [feedPart, hprog, Option.map_some, hasks]
  refine (if_pos ?_).trans (modProg_congr hprog rfl)
  rw [List.length_append, List.length_singleton]
  exact lt_of_lt_of_le hmore (le_max_right ..)

/-- The last part of a block. -/
theorem feedPart_of_last {k len : Nat} {asks : List Nat} {p : Prog} {s : State} (hprog : s.progAt k = some p) (hasks : p.blockAsks = len :: asks)
    (data : HostRead) (hlast : divUp len 9152 ≤ p.blockGot.length + 1) :
    feedPart k data s = feedBlock k (joinReads (p.blockGot ++ [data])) (modProg k (fun q => { q with blockAsks := asks, blockGot := [] }) s) := by
  simp only [feedPart, hprog, Option.map_some, hasks]
  refine if_neg (not_lt.2 ?_)
  rw [List.length_append, List.length_singleton]
  exact max_le (Nat.le_add_left ..) hlast

/-- The block an order at the front of its program asked for. -/
theorem feedBlock_front {k : Nat} {p : Prog} {f : Fetched} {t : List Fetched} {s : State} (hprog : s.progAt k = some p)
    (hfetched : p.fetched = f :: t) (data : HostRead) :
    ((parseOrd f.raw).op = opIngest → feedBlock k data s = doOrdIngest k data s) ∧
    ((parseOrd f.raw).op = opSpread → feedBlock k data s = doOrdSpread k data s) ∧
    ((parseOrd f.raw).op = opGather → feedBlock k data s = doOrdGather k data s) := by
  simp only [feedBlock, hprog, hfetched]
  refine ⟨fun hop => if_pos hop, fun hop => ?_, fun hop => ?_⟩
  · rw [hop]
    exact (if_neg (by decide)).trans (if_pos rfl)
  · rw [hop]
    exact (if_neg (by decide)).trans ((if_neg (by decide)).trans (if_pos rfl))

/-- A program after a change of it. -/
theorem progAt_modProg {k : Nat} {p : Prog} {s : State} (hprog : s.progAt k = some p) (g : Prog → Prog) : (modProg k g s).progAt k = some (g p) := by
  show (kvGet (kvMod s.css.subs k _) k noSub).prog = _
  have hsub : (kvGet s.css.subs k noSub).prog = some p := hprog
  rw [kvGet, kvGet?_kvMod_same]
  rw [kvGet] at hsub
  cases hget : kvGet? s.css.subs k with
  | none =>
    rw [hget] at hsub
    exact nomatch hsub
  | some b =>
    rw [hget] at hsub
    exact congrArg (Option.map g) hsub

/-! ## The attached node (R103, R140, R143) -/

/-- The word a STATUS message carries, as it is posted: with REPOST once the program was driven again (R140). -/
def wordOf (redriven : Bool) (h : RemoteHdr) (bytes : List Byte) (s : State) : StatusWord :=
  let w := parseWord bytes
  { w with sch := (s.subAt h.sch).rel, flags := if redriven && w.flags != 0 then w.flags ||| flRepost else w.flags }

/-- A STATUS of a program whose final is not posted: a final, a note or, with no flag, where the program stands. -/
theorem doRemoteStatus_of_open {h : RemoteHdr} {k : Nat} {p : Prog} {s : State} (hgen : s.oldGen h = false) (hk : s.attachedOf h = some k)
    (hprog : s.progAt h.sch = some p) (hopen : p.ending = none) (bytes : List Byte) :
    doRemoteStatus h bytes s =
      let w := wordOf p.redriven h bytes s
      if w.flags.testBit 0 then
        jnlAsk (s.jrec k h.token (.final w)) [.final k w true] (modProg k (fun p => { p with ending := some w }) s)
      else if w.flags = 0 then farState k w s
      else queuePost (s.subAt k).fn (s.subAt k).cq { w := w, sch := k, kind := .note } s := by
  rw [doRemoteStatus]
  refine (if_neg (by rw [hgen]; exact Bool.false_ne_true)).trans ?_
  simp only [hk, hprog, Option.map_some, hopen, Option.any_some]
  rfl

theorem wordOf_of_flags {redriven : Bool} {h : RemoteHdr} {bytes : List Byte} {s : State} (hflags : (parseWord bytes).flags ≠ 0) :
    wordOf redriven h bytes s = { parseWord bytes with
      sch := (s.subAt h.sch).rel, flags := if redriven then (parseWord bytes).flags ||| flRepost else (parseWord bytes).flags } := by
  simp only [wordOf, bne_iff_ne.2 hflags, Bool.and_true]

theorem wordOf_of_noFlags {redriven : Bool} {h : RemoteHdr} {bytes : List Byte} {s : State} (hflags : (parseWord bytes).flags = 0) :
    wordOf redriven h bytes s = { parseWord bytes with sch := (s.subAt h.sch).rel } := by
  rw [wordOf]
  refine congrArg (fun n => ({ parseWord bytes with sch := (s.subAt h.sch).rel, flags := n } : StatusWord)) (if_neg ?_)
  simp [hflags]

theorem wordOf_flags_bit {redriven : Bool} {h : RemoteHdr} {bytes : List Byte} {s : State} :
    (wordOf redriven h bytes s).flags.testBit 0 = (parseWord bytes).flags.testBit 0 := by
  have hrepost : flRepost.testBit 0 = false := by decide
  rw [wordOf]
  dsimp only
  split
  · rw [Nat.testBit_or, hrepost, Bool.or_false]
  · rfl

end Sys2Proof.Machine

open Sys2Proof Sys2Proof.Machine

/-- Settles O50: the token finds the program or none, and each message then does its row at the executing or the attached node. -/
theorem remoteMessagesFollowTheirToken : Obligations.RemoteMessagesFollowTheirToken := by
  intro h addr ctl tag gen seq k b data bytes m s
  dsimp only
  refine ⟨fun e he => ⟨fun hmode hnone => ?start, fun p hp => ⟨fun hother => ⟨?controlOther, ?dataOther, fun b => ?answerOther⟩,
      fun htoken => ⟨?startAgain, fun hctl hend => ?control, fun r dl hst hrun hplace => ?resume, fun hreq hat => ?order, fun hreq hat => ?orderOld,
        fun hreq => ?source, fun hreq len asks hasks hmore => ?part, fun hreq f t len asks hfetched hasks hlast => ⟨fun hop => ?ingest,
        fun hop => ?spread, fun hop => ?gather⟩, fun hreq => ?noted, fun hreq hst hask => ⟨?posted, ?redriven⟩⟩⟩⟩,
    fun hnone => ?resetNone, fun x p hsubs hexec hnode hfn hp hgen => ?reset,
    fun hk => ⟨fun hd3 => ⟨fun d => ?read, ?readFailed⟩, fun hgen p hp hend => ⟨fun hfinal => ?final, fun hfinal hflags => ?note,
      fun hflags hres hst => ?far⟩, fun hopen => ?query⟩,
    fun hk => ⟨?readNone, fun hgen hfinal => ?statusNone, ?queryNone⟩, fun hgen => ?write, fun hgen => ⟨?writeOld, ?statusOld⟩,
    fun pair hpair => ?mirror, fun hrole kind => ?notStandby, fun hrole => ⟨?journal, ?dlog, ?custody, ?handle, ?reserve, ?gen⟩⟩
  case start =>
    subst he
    refine settlesTo_congr ((if_neg (by simp [hmode, hnone])).trans ?_)
    rw [dropExec, hnone]
  case controlOther =>
    subst he
    refine settlesTo_congr ?_
    rw [doRemoteControl, execOf_of_other hp hother]
  case dataOther =>
    subst he
    refine settlesTo_congr ?_
    rw [doReadData, execOf_of_other hp hother]
  case answerOther =>
    subst he
    refine settlesTo_congr ?_
    rw [doRemoteAnswer, execOf_of_other hp hother]
  case startAgain =>
    subst he
    exact settlesTo_congr (if_pos (.inr (by rw [hp]; exact congrArg some htoken)))
  case control =>
    subst he
    refine settlesTo_congr ?_
    rw [doRemoteControl, execOf_of_token hp htoken]
    refine (if_pos hctl).trans (if_neg ?_)
    simp [hp, hend]
  case resume =>
    subst he
    refine settlesTo_congr ?_
    rw [doRemoteControl, execOf_of_token hp htoken]
    refine (if_neg (by decide)).trans ((if_pos rfl).trans ?_)
    simp only [resumeProg, hst, hp, Option.bind_some, hrun, hplace]
  case order =>
    subst he
    refine settlesTo_congr ?_
    rw [doReadData, execOf_of_token hp htoken]
    exact (if_pos hreq).trans (if_pos (by rw [hp]; exact hat))
  case orderOld =>
    subst he
    refine settlesTo_congr ?_
    rw [doReadData, execOf_of_token hp htoken]
    exact (if_pos hreq).trans (if_neg (by rw [hp]; exact hat))
  case source =>
    subst he
    refine settlesTo_congr ?_
    rw [doReadData, execOf_of_token hp htoken, hreq]
    rfl
  case part =>
    subst he
    refine settlesTo_congr ?_
    rw [doReadData, execOf_of_token hp htoken, hreq]
    exact feedPart_of_more hp hasks data hmore
  case ingest =>
    subst he
    refine settlesTo_congr ?_
    rw [doReadData, execOf_of_token hp htoken, hreq]
    exact (feedPart_of_last hp hasks data hlast).trans ((feedBlock_front (progAt_modProg hp _) hfetched _).1 hop)
  case spread =>
    subst he
    refine settlesTo_congr ?_
    rw [doReadData, execOf_of_token hp htoken, hreq]
    exact (feedPart_of_last hp hasks data hlast).trans ((feedBlock_front (progAt_modProg hp _) hfetched _).2.1 hop)
  case gather =>
    subst he
    refine settlesTo_congr ?_
    rw [doReadData, execOf_of_token hp htoken, hreq]
    exact (feedPart_of_last hp hasks data hlast).trans ((feedBlock_front (progAt_modProg hp _) hfetched _).2.2 hop)
  case noted =>
    subst he
    refine settlesTo_congr ?_
    simp only [doRemoteAnswer, execOf_of_token hp htoken, hp]
    exact if_pos hreq
  case posted =>
    subst he
    refine settlesTo_congr ?_
    simp only [doRemoteAnswer, execOf_of_token hp htoken, hp]
    exact (if_neg hreq).trans ((if_neg (by simp [hst, hask])).trans rfl)
  case redriven =>
    subst he
    refine settlesTo_congr ?_
    simp only [doRemoteAnswer, execOf_of_token hp htoken, hp]
    exact (if_neg hreq).trans ((if_neg (by simp [hst, hask])).trans rfl)
  case resetNone =>
    refine settlesTo_congr ?_
    rw [doRemoteReset, List.filter_eq_nil_iff.2]
    · rfl
    · intro q hq hall
      simp only [Bool.and_eq_true, beq_iff_eq] at hall
      exact hnone q hq hall.1.1.1 hall.1.1.2 hall.1.2
  case reset =>
    refine settlesTo_congr ?_
    have hone : s.css.subs.filter (fun q => isExec q.1 && execNode q.1 == h.src && q.2.fn == h.fn && (match q.2.prog with
        | some p => p.token % 65536 != gen
        | none => false)) = [(execKey h.src k, x)] := by
      rw [hsubs]
      simp [hexec, hnode, hfn, hp, hgen]
    exact congrArg (fun l => (l.map (·.1)).foldl (fun s k => resetProg k s) s) hone
  case read =>
    refine settlesTo_congr ?_
    simp only [doRemoteRead, hk, hd3]
    rfl
  case readFailed =>
    refine settlesTo_congr ?_
    simp only [doRemoteRead, hk, hd3]
    rfl
  case final =>
    refine settlesTo_congr ((doRemoteStatus_of_open hgen hk hp hend bytes).trans ?_)
    have hflags : (parseWord bytes).flags ≠ 0 := by
      intro h0
      rw [h0] at hfinal
      exact absurd hfinal (by decide)
    refine (if_pos (wordOf_flags_bit.trans hfinal)).trans ?_
    rw [wordOf_of_flags hflags]
  case note =>
    refine settlesTo_congr ((doRemoteStatus_of_open hgen hk hp hend bytes).trans ?_)
    refine (if_neg (by rw [wordOf_flags_bit, hfinal]; exact Bool.false_ne_true)).trans ?_
    rw [wordOf_of_flags hflags]
    refine if_neg ?_
    dsimp only
    split
    · exact fun h0 => hflags (Nat.or_eq_zero_iff.1 h0).1
    · exact hflags
  case far =>
    refine settlesTo_congr ((doRemoteStatus_of_open hgen hk hp hend bytes).trans ?_)
    rw [wordOf_of_noFlags hflags]
    refine (if_neg (by simp [hflags])).trans ((if_pos hflags).trans ?_)
    simp only [farState, hres, hst, if_true]
    rfl
  case query =>
    refine settlesTo_congr ?_
    simp only [doRemoteQuery, hk, hopen]
    rfl
  case readNone =>
    refine settlesTo_congr ?_
    simp only [doRemoteRead, hk]
  case statusNone =>
    refine settlesTo_congr ((if_neg (by rw [hgen]; exact Bool.false_ne_true)).trans ?_)
    simp only [hk]
    exact if_pos (wordOf_flags_bit.trans hfinal)
  case queryNone =>
    refine settlesTo_congr ?_
    simp only [doRemoteQuery, hk]
    rfl
  case write => exact settlesTo_congr (if_neg (by rw [hgen]; exact Bool.false_ne_true))
  case writeOld => exact settlesTo_congr (if_pos hgen)
  case statusOld => exact settlesTo_congr (if_pos hgen)
  case mirror =>
    subst hpair
    exact settlesTo_congr rfl
  case notStandby => exact if_pos hrole
  case journal => exact if_neg (not_not.2 hrole)
  case dlog => exact if_neg (not_not.2 hrole)
  case custody => exact if_neg (not_not.2 hrole)
  case handle => exact if_neg (not_not.2 hrole)
  case reserve => exact if_neg (not_not.2 hrole)
  case gen => exact if_neg (not_not.2 hrole)

end

section
/-!
The redundant pair: heartbeats, takeover, isolation, resynchronisation and switch-back (R517 to R529).
-/

namespace Sys2Proof.Machine

/-! ## Claims (R517) -/

/-- A bit put into a number below it all: the number's other bits and that one. -/
theorem putBit_zero (v : Nat) (b : Bool) : putBit v 0 b = 2 * (v / 2) + b2n b := by
  cases b with
  | true =>
    have hdiv : (v ||| 1) / 2 = v / 2 := by rw [Nat.or_div_two, Nat.or_zero]
    have hmod : (v ||| 1) % 2 = 1 := Nat.or_mod_two_eq_one.2 (.inr rfl)
    show v ||| 1 = 2 * (v / 2) + 1
    omega
  | false =>
    have hodd : v.testBit 0 = true ↔ v % 2 = 1 := by rw [Nat.testBit_zero, decide_eq_true_eq]
    show (if v.testBit 0 then v - 1 else v) = 2 * (v / 2)
    split
    case isTrue h =>
      have := hodd.1 h
      omega
    case isFalse h =>
      have := mt hodd.2 h
      omega

/-- The claim a member takes is above every one seen, and its low bit is the member's. -/
theorem nextClaim_spec {s : State} (hroom : max (s.get .CLM_CLAIM_CLAIM) (s.get .CLM_PEER_CLAIM_CLAIM) + 3 < 2 ^ 32) :
    max (s.get .CLM_CLAIM_CLAIM) (s.get .CLM_PEER_CLAIM_CLAIM) < s.nextClaim ∧ s.nextClaim % 2 = b2n (s.on .CLM_PAIR_MEMBER) := by
  rw [State.nextClaim, putBit_zero, Nat.mod_eq_of_lt (by omega)]
  cases s.on .CLM_PAIR_MEMBER with
  | false => exact ⟨by simp only [b2n]; omega, by simp [b2n]⟩
  | true => exact ⟨by simp only [b2n]; omega, by simp [b2n]⟩

/-! ## Heartbeats (R520) -/

/-- A member sends its heartbeat while it is paired and in one of the modes that beat. -/
theorem beats_iff (s : State) :
    s.beats = true ↔ s.on .CLM_PAIR_PAIRED = true ∧ s.mode ∈ [Mode.fiddlehead, Mode.frond, Mode.standby, Mode.maintenance] := by
  simp [State.beats]

/-- A heartbeat of its pair that is valid is kept, its claim seen, and its flags answered by the role. -/
theorem doHeartbeatReceive_valid {frame : List Byte} {s : State} (hmode : s.mode ≠ Mode.off) (hpaired : s.on .CLM_PAIR_PAIRED = true)
    (hlen : frame.length = 8) (hcrc : crc8 (frame.take 7) = fieldAt frame 7 1) (hpair : fieldAt frame 6 1 = s.get .CLM_PAIR_PAIR_ID % 256) :
    doHeartbeatReceive frame s =
      let t := (s.withPair (fun p =>
        { p with hbAt := some s.now, hbMode := fieldAt frame 4 1 % 16, hbFlags := fieldAt frame 5 1, lostAt := none })).set
          .CLM_STATUS_HB_LOST 0
      let u := seeClaim seenHeartbeat (fieldAt frame 0 4) (if t.on .CLM_STATUS_HOLD then endHold t else t)
      pairLook (match u.get .CLM_STATUS_ROLE with
        | 1 => activeHears (fieldAt frame 5 1) u
        | 2 => standbyHears (fieldAt frame 5 1) u
        | _ => u) :=
  if_neg (by simp [hmode, hpaired, hlen, hcrc, hpair])

/-- No reservation command is out or waits. -/
theorem reserves_none {s : State} (hcmds : ∀ q ∈ s.mpt.cmds, ∀ p, q.2.use ≠ .reserve p) (hwaiting : s.mpt.waiting = []) :
    (s.mpt.cmds.any (fun q => q.2.use.isReserve) || s.mpt.waiting.any (fun w => w.use.isReserve)) = false := by
  rw [hwaiting, List.any_nil, Bool.or_false, List.any_eq_false]
  intro q hq hres
  cases huse : q.2.use with
  | reserve p => exact hcmds q hq p huse
  | _ =>
    rw [huse] at hres
    exact nomatch hres

/-- While a member is held and a drive is there, the reservation's holder decides once the time is up (R525). -/
theorem doIsolationCheck_held {s : State} (hhold : s.on .CLM_STATUS_HOLD = true) (hssp : ∃ d < 1024, s.devState d = devPresent ∧ s.isSsp d = true)
    (holder : Option Nat) :
    doIsolationCheck holder s =
      let t := timeTo ((s.pair.holdAt.getD s.now) + max 3500 (s.get .CLM_CTL_FENCE_MS) * 1000000) s
      match holder with
      | none => t
      | some h =>
        if h = t.ownKey then runDetached t
        else if h / 2 ^ 32 = t.ownKey / 2 ^ 32 then seeClaim seenHolder (h % 2 ^ 32) t
        else t := by
  have hany : (List.range 1024).any (fun d => s.devState d == devPresent && s.isSsp d) = true := by
    obtain ⟨d, hd, hstate, hdrive⟩ := hssp
    exact List.any_eq_true.2 ⟨d, List.mem_range.2 hd, by simp [hstate, hdrive]⟩
  exact if_neg (by simp only [hhold, hany]; simp)

end Sys2Proof.Machine

open Sys2Proof Sys2Proof.Machine

/-- Settles O51: heartbeats, the isolation check and the commands are taken to their branch by the lemmas above, and a claim is above all seen by its arithmetic. -/
theorem pairKeepsOneActiveMember : Obligations.PairKeepsOneActiveMember := by
  intro o frame digest holder s
  dsimp only
  refine ⟨fun hbeats => ?beat, fun hbeats => ?silent,
    fun hmode hpaired hlen hcrc => ⟨fun hpair => ?foreign, fun hpair t u ht hu => ⟨fun hrole => ?active, fun hrole => ?standby, fun hrole => ?noRole⟩⟩,
    fun hsync => ?inStep, fun hsay => ?detachAcked, ?resyncAsked, fun htake => ?yielded, fun hsync => ?detached,
    fun hbeats hseen hlost => ?loss, fun htake hlost hfrond hmaint at_ hat => ⟨fun hsoon => ?confirmed, fun hlate => ?late⟩,
    fun c hc hroom => ?claim,
    fun htaking hmode hworlds hcmds hwaiting => ⟨fun hread => ?spore, fun hread => ?frond⟩,
    fun hhold hssp t ht => ⟨fun hh => ?noHolder, fun hh => ?ownHolder, fun h hh hne hpair => ?peerHolder, fun h hh hpair => ?foreignHolder⟩,
    fun hlit hbusy => ⟨fun hpaired i hi => ?unpaired, fun hpaired => ⟨fun hrole => ⟨?takeoverRole, ?forceRole⟩, fun hrole => ?detachRole,
      fun hrole => ?resyncRole, fun hrole hmode htaking => ⟨fun hsync => ?takeoverStep, fun hsync hlog => ?takeover, fun hwait hlog => ?force⟩,
      fun hrole hlog t ht => ⟨fun hactive hvalid => ?detachAsk, fun hactive hvalid => ?detachAlone⟩,
      fun hlog t ht => ⟨fun hrole hrole' => ?copy, fun hrole hrole' => ?leave⟩⟩⟩,
    fun hsync => ⟨fun hdiff => ?mismatch, fun hsame => ?agree⟩,
    fun hlit hbusy => ⟨fun hrole => ?backRole, fun hrole hsync => ?backStep, fun hrole hsync hlog => ?back⟩⟩
  case beat => exact settlesTo_congr (if_pos ((beats_iff s).2 hbeats))
  case silent => exact settlesTo_congr (if_neg (hbeats ∘ (beats_iff s).1))
  case foreign => exact settlesTo_congr (if_pos (by simp [hpair]))
  case active =>
    refine settlesTo_congr ((doHeartbeatReceive_valid hmode hpaired hlen hcrc hpair).trans ?_)
    simp only [ht, hu, hrole]
  case standby =>
    refine settlesTo_congr ((doHeartbeatReceive_valid hmode hpaired hlen hcrc hpair).trans ?_)
    simp only [ht, hu, hrole]
  case noRole =>
    refine settlesTo_congr ((doHeartbeatReceive_valid hmode hpaired hlen hcrc hpair).trans ?_)
    simp only [ht, hu, hrole]
  case inStep =>
    have h2 : (1 : Nat).testBit 2 = false := rfl
    have h3 : (1 : Nat).testBit 3 = false := rfl
    simp [activeHears, h2, h3, hsync]
  case detachAcked =>
    have h0 : (4 : Nat).testBit 0 = false := rfl
    have h2 : (4 : Nat).testBit 2 = true := rfl
    have h3 : (4 : Nat).testBit 3 = false := rfl
    simp [activeHears, h0, h2, h3, hsay]
  case resyncAsked =>
    have h0 : (8 : Nat).testBit 0 = false := rfl
    have h2 : (8 : Nat).testBit 2 = false := rfl
    have h3 : (8 : Nat).testBit 3 = true := rfl
    simp [activeHears, h0, h2, h3]
  case yielded =>
    have h1 : (16 : Nat).testBit 1 = false := rfl
    have h4 : (16 : Nat).testBit 4 = true := rfl
    simp [standbyHears, h1, h4, htake]
  case detached =>
    have h1 : (2 : Nat).testBit 1 = true := rfl
    have h4 : (2 : Nat).testBit 4 = false := rfl
    simp only [standbyHears, h1, h4, if_true, Bool.false_eq_true, false_and, if_false]
    exact if_neg hsync
  case loss =>
    refine settlesTo_congr (if_neg ?_)
    simp [(beats_iff s).2 hbeats, hseen, hlost]
  case confirmed => exact settlesTo_congr (if_pos (by simp [htake, hlost, hat, hsoon, hfrond, hmaint]))
  case late => exact settlesTo_congr (if_neg (by simp [hat, not_le.2 hlate]))
  case claim =>
    subst hc
    obtain ⟨habove, hbit⟩ := nextClaim_spec hroom
    exact ⟨habove, hbit, rfl⟩
  case spore =>
    refine settlesTo_congr ((if_neg ?_).trans (if_pos (by simp [hread])))
    simp [htaking, hworlds, hmode, reserves_none hcmds hwaiting]
  case frond =>
    refine settlesTo_congr ((if_neg ?_).trans (if_neg (by simp [hread])))
    simp [htaking, hworlds, hmode, reserves_none hcmds hwaiting]
  case noHolder =>
    refine settlesTo_congr ((doIsolationCheck_held hhold hssp holder).trans ?_)
    rw [ht, hh]
  case ownHolder =>
    refine settlesTo_congr ((doIsolationCheck_held hhold hssp holder).trans ?_)
    rw [ht, hh]
    exact if_pos rfl
  case peerHolder =>
    refine settlesTo_congr ((doIsolationCheck_held hhold hssp holder).trans ?_)
    rw [ht, hh]
    exact (if_neg hne).trans (if_pos hpair)
  case foreignHolder =>
    refine settlesTo_congr ((doIsolationCheck_held hhold hssp holder).trans ?_)
    rw [ht, hh]
    exact (if_neg fun heq => hpair (by rw [heq])).trans (if_neg hpair)
  case unpaired =>
    simp only [List.mem_cons, List.not_mem_nil, or_false] at hi
    rcases hi with rfl | rfl | rfl | rfl <;> exact settlesTo_congr (busyCommand_fails hlit hbusy (by simp [hpaired]) ..)
  case takeoverRole => exact settlesTo_congr (busyCommand_fails hlit hbusy (by simp [hpaired, hrole]) ..)
  case forceRole => exact settlesTo_congr (busyCommand_fails hlit hbusy (by simp [hpaired, hrole]) ..)
  case detachRole => exact settlesTo_congr (busyCommand_fails hlit hbusy (by simp [hpaired, hrole]) ..)
  case resyncRole => exact settlesTo_congr (busyCommand_fails hlit hbusy (by simp [hpaired, hrole]) ..)
  case takeoverStep => exact settlesTo_congr (busyCommand_fails hlit hbusy (by simp [hpaired, hrole, hmode, htaking, hsync]) ..)
  case takeover => exact settlesTo_congr (busyCommand_taken hlit hbusy hlog (by simp [hpaired, hrole, hmode, htaking, hsync]) ..)
  case force => exact settlesTo_congr (busyCommand_taken hlit hbusy hlog (by simp [hpaired, hrole, hmode, htaking, hwait]) ..)
  case detachAsk =>
    refine settlesTo_congr ((busyCommand_taken hlit hbusy hlog (by simp [hpaired, hrole]) ..).trans ?_)
    rw [ht]
    exact (if_neg (by simp [hactive])).trans (if_pos hvalid)
  case detachAlone =>
    refine settlesTo_congr ((busyCommand_taken hlit hbusy hlog (by simp [hpaired, hrole]) ..).trans ?_)
    rw [ht]
    exact (if_neg (by simp [hactive])).trans (if_neg (by simp [hvalid]))
  case copy =>
    refine settlesTo_congr ((busyCommand_taken hlit hbusy hlog (by simp [hpaired, hrole]) ..).trans ?_)
    rw [ht]
    exact if_pos hrole'
  case leave =>
    refine settlesTo_congr ((busyCommand_taken hlit hbusy hlog (by simp [hpaired, hrole]) ..).trans ?_)
    rw [ht]
    exact if_neg (by rw [hrole']; decide)
  case mismatch => exact settlesTo_congr ((if_neg (not_not.2 hsync)).trans (if_neg hdiff))
  case agree => exact settlesTo_congr ((if_neg (not_not.2 hsync)).trans (if_pos hsame))
  case backRole => exact settlesTo_congr (busyCommand_fails hlit hbusy (by simp [hrole]) ..)
  case backStep => exact settlesTo_congr (busyCommand_fails hlit hbusy (by simp [hrole, hsync]) ..)
  case back => exact settlesTo_congr (busyCommand_taken hlit hbusy hlog (by simp [hrole, hsync]) ..)

end

section
/-!
Tuber's mailbox, its solo restart and debug unlock, and the change log's ring and checkpoints (R531 to R556).
-/

namespace Sys2Proof.Machine

/-! ## A request and its service (R546) -/

/-- The services of the mailbox and the codes of their requests. -/
def tmbRows : List (Nat × Instr) :=
  [(0x01, .tmbAttest), (0x02, .tmbCerts), (0x03, .tmbRandom), (0x10, .tmbKeyCreate), (0x11, .tmbKeyImport), (0x12, .tmbKeyRevoke),
    (0x13, .tmbKekProvision), (0x20, .tmbFuseSlot), (0x21, .tmbFuseRevoke), (0x22, .tmbRollback), (0x23, .tmbDebugKill)]

section Mode
variable {s : State} {code : Nat} (hmaint : s.mode ≠ Mode.maintenance)
include hmaint

theorem careMode_of_ne : s.careMode = false := beq_eq_false_iff_ne.2 hmaint

theorem workMode_of_ne (hfrond : s.mode ≠ Mode.frond) : s.workMode = false := by
  rw [State.workMode, beq_eq_false_iff_ne.2 hmaint, beq_eq_false_iff_ne.2 hfrond]
  rfl

/-- A service outside the list of those that MAINTENANCE alone allows works in FROND too. -/
theorem workMode_of_row (hrow : code ∉ [0x13, 0x20, 0x21, 0x23]) (hmode : s.mode ≠ Mode.frond ∨ code ∈ [0x13, 0x20, 0x21, 0x23]) :
    s.workMode = false :=
  workMode_of_ne hmaint (hmode.resolve_right hrow)

end Mode

/-- Every row is a service that Tuber runs on its request, and those that change something need their mode. -/
theorem service_of_row {r : Nat × Instr} (hr : r ∈ tmbRows) :
    ∃ run, (∀ w, exec r.2 w = .next (settle (service r.1 run w))) ∧ ∀ q s, ∃ mode need checks act, run q s = tubServe mode need q checks act s ∧
      (0x10 ≤ r.1 → s.mode ≠ Mode.maintenance → (s.mode ≠ Mode.frond ∨ r.1 ∈ [0x13, 0x20, 0x21, 0x23]) → mode = false) := by
  simp only [tmbRows, List.mem_cons, List.not_mem_nil, or_false] at hr
  rcases hr with rfl | rfl | rfl | rfl | rfl | rfl | rfl | rfl | rfl | rfl | rfl
  · exact ⟨_, fun w => rfl, fun q s => ⟨_, _, _, _, rfl, fun h => absurd h (by decide)⟩⟩
  · exact ⟨_, fun w => rfl, fun q s => ⟨_, _, _, _, rfl, fun h => absurd h (by decide)⟩⟩
  · exact ⟨_, fun w => rfl, fun q s => ⟨_, _, _, _, rfl, fun h => absurd h (by decide)⟩⟩
  · exact ⟨_, fun w => rfl, fun q s => ⟨_, _, _, _, rfl, fun _ hm => workMode_of_row hm (by decide)⟩⟩
  · exact ⟨_, fun w => rfl, fun q s => ⟨_, _, _, _, rfl, fun _ hm => workMode_of_row hm (by decide)⟩⟩
  · exact ⟨_, fun w => rfl, fun q s => ⟨_, _, _, _, rfl, fun _ hm => workMode_of_row hm (by decide)⟩⟩
  · exact ⟨_, fun w => rfl, fun q s => ⟨_, _, _, _, rfl, fun _ hm _ => careMode_of_ne hm⟩⟩
  · exact ⟨_, fun w => rfl, fun q s => ⟨_, _, _, _, rfl, fun _ hm _ => careMode_of_ne hm⟩⟩
  · exact ⟨_, fun w => rfl, fun q s => ⟨_, _, _, _, rfl, fun _ hm _ => careMode_of_ne hm⟩⟩
  · exact ⟨_, fun w => rfl, fun q s => ⟨_, _, _, _, rfl, fun _ hm => workMode_of_row hm (by decide)⟩⟩
  · exact ⟨_, fun w => rfl, fun q s => ⟨_, _, _, _, rfl, fun _ hm _ => careMode_of_ne hm⟩⟩

/-- Without power or a request nothing is served. -/
theorem service_idle {code : Nat} {run : TubReq → State → State} {w : State} (hidle : w.pdOn 1 = false ∨ (frontRequest w).1 = none) :
    service code run w = w := by
  rw [service]
  by_cases hpd : w.pdOn 1 = true
  · refine (if_neg (by simp [hpd])).trans ?_
    have hnone : (frontRequest w).1 = none := hidle.resolve_left (by rw [hpd]; decide)
    rcases hfront : frontRequest w with ⟨_ | d, t⟩
    · rfl
    · rw [hfront] at hnone
      exact nomatch hnone
  · exact if_pos (by simpa using hpd)

/-- A request of another service of the list is left to that service. -/
theorem service_other {code : Nat} {run : TubReq → State → State} {w s : State} {d : List Byte} (hpd : w.pdOn 1 = true)
    (hfront : frontRequest w = (some d, s)) (hcode : (parseReq d).code ≠ code) (hknown : (parseReq d).code ∈ serviceCodes) :
    service code run w = w := by
  rw [service]
  refine (if_neg (by simp [hpd])).trans ?_
  rw [hfront]
  exact (if_neg hcode).trans (if_pos (List.contains_iff_mem.2 hknown))

/-- While Tuber restarts alone, every request is answered RETRY (R547). -/
theorem tubServe_restarting {mode : Bool} {need : Nat} {q : TubReq} {checks : List (Bool × Nat)} {act : State → State} {s : State}
    (hrestart : s.on .TMB_STATUS_RESTARTING = true) : tubServe mode need q checks act s = respond q.code rspRetry q.tag 0 [] s :=
  if_pos hrestart

section Running
variable {s : State} (hrestart : s.on .TMB_STATUS_RESTARTING = false) (hrun : s.on .TMB_STATUS_RUNNING = true)
include hrestart hrun

/-- A request in another mode is refused. -/
theorem tubServe_refused {need : Nat} {q : TubReq} {checks : List (Bool × Nat)} {act : State → State} :
    tubServe false need q checks act s = respond q.code rspRefused q.tag 0 [] s := by
  rw [tubServe_running _ _ _ _ _ _ hrestart hrun]
  exact if_pos (Bool.not_false)

/-- A buffer too short or outside the window is a bad argument. -/
theorem tubServe_misfit {need : Nat} {q : TubReq} {checks : List (Bool × Nat)} {act : State → State} (hneed : 0 < need)
    (hmisfit : ¬(need ≤ q.len ∧ s.inTmbWindow q.buf need = true)) :
    tubServe true need q checks act s = respond q.code rspBadArg q.tag 0 [] s := by
  rw [tubServe_running _ _ _ _ _ _ hrestart hrun]
  refine (if_neg Bool.false_ne_true).trans (if_pos ?_)
  by_cases hlen : need ≤ q.len
  · have hwindow : s.inTmbWindow q.buf need = false := by simpa [hlen] using hmisfit
    simp [hneed, hwindow]
  · simp [hneed, not_le.1 hlen]

section Fits
variable {need : Nat} {q : TubReq} (hfits : need = 0 ∨ need ≤ q.len ∧ s.inTmbWindow q.buf need = true)
include hfits

/-- The service's own checks, once mode and buffer are good. -/
theorem tubServe_checks {checks : List (Bool × Nat)} {act : State → State} :
    tubServe true need q checks act s = match checks.find? (·.1) with
      | some p => respond q.code p.2 q.tag 0 [] s
      | none => act s := by
  rw [tubServe_running _ _ _ _ _ _ hrestart hrun]
  refine (if_neg Bool.false_ne_true).trans ((if_neg ?_).trans rfl)
  rcases hfits with rfl | ⟨hlen, hwindow⟩
  · simp
  · simp [hlen, hwindow]

/-- The first check that fails is answered. -/
theorem tubServe_fails {checks : List (Bool × Nat)} {code : Nat} (hfail : (checks.find? (·.1)).map (·.2) = some code) {act : State → State} :
    tubServe true need q checks act s = respond q.code code q.tag 0 [] s := by
  obtain ⟨p, hp, rfl⟩ := Option.map_eq_some_iff.1 hfail
  rw [tubServe_checks hrestart hrun hfits, hp]

/-- A request that passes every check is served. -/
theorem tubServe_does {checks : List (Bool × Nat)} (hpass : checks.find? (·.1) = none) {act : State → State} :
    tubServe true need q checks act s = act s := by
  rw [tubServe_checks hrestart hrun hfits, hpass]

end Fits
end Running

theorem workMode_iff (s : State) : s.workMode = true ↔ s.mode = Mode.frond ∨ s.mode = Mode.maintenance := by
  simp [State.workMode]

theorem careMode_iff (s : State) : s.careMode = true ↔ s.mode = Mode.maintenance := by simp [State.careMode]

/-! ## Debug unlock (R555) -/

theorem dbgReach_debug {s : State} (hkilled : s.dbgKilled = false) : s.dbgReach .debug = true := by
  rw [State.dbgReach, hkilled]
  rfl

theorem dbgReach_killed {s : State} (hkilled : s.dbgKilled = true) (o : Origin) : s.dbgReach o = false := by
  unfold State.dbgReach
  rw [hkilled, Bool.not_true, Bool.false_and]

/-! ## Checkpoints (R554) -/

theorem tuberRuns_of {s : State} (hrun : s.on .TMB_STATUS_RUNNING = true) (hrestart : s.on .TMB_STATUS_RESTARTING = false) :
    s.tuberRuns = true := by
  rw [State.tuberRuns, hrun, hrestart]
  rfl

/-- A checkpoint is closed over the entries since the last, with the first of them whose chain is broken. -/
theorem doCheckpointClose_open {bad : Option Nat} {s t : State} (hrun : s.on .TMB_STATUS_RUNNING = true)
    (hrestart : s.on .TMB_STATUS_RESTARTING = false) (hclosing : s.log.closing = none)
    (hroom : s.get .LOG_CKPT_EXPORTED_MADE - s.get .LOG_CKPT_EXPORTED_COUNT < 512)
    (hsome : s.get .LOG_CKPT_SEQ_SEQ + 1 ≤ s.get .LOG_SEQ_SEQ)
    (ht : (if 2 ^ clamp 10 20 (s.get .LOG_CTL_CKPT_LOG2) ≤ s.get .LOG_SEQ_SEQ + 1 - (s.get .LOG_CKPT_SEQ_SEQ + 1) then s
      else timeTo (s.log.lastCkptTime + max 1 (s.get .LOG_CTL_CKPT_SEC) * 1000000000) s) = t) :
    doCheckpointClose bad s =
      let first := s.get .LOG_CKPT_SEQ_SEQ + 1
      let last := s.get .LOG_SEQ_SEQ
      let x := (t.chainLook first last).or bad
      let c : LogCkpt := { first := first, last := last, header := t.ckptHeader first last x, signed := false }
      let u := (t.withLog (fun l => { l with closing := some c })).set .LOG_STATUS_SIGNING 1
      match x with
      | some _ => raiseUe 44 1 0 0 0 0 (u.set .LOG_STATUS_CHAIN_BROKEN 1)
      | none => u := by
  rw [doCheckpointClose]
  refine (if_neg ?_).trans ?_
  · simp only [tuberRuns_of hrun hrestart, hclosing, hroom]
    simp [not_lt.2 hsome]
  · subst ht
    simp only [decide_eq_true_eq] <;> rfl

end Sys2Proof.Machine

open Sys2Proof Sys2Proof.Machine

/-- Settles O52: a request goes through power, ring, restart, mode, buffer and its service's own checks in that order; the log and debug rows choose their branch. -/
theorem tuberServesAndTheLogExports : Obligations.TuberServesAndTheLogExports := by
  intro o d nonce blob n v b bad w s
  dsimp only
  refine ⟨fun r hr hidle => ?idle, fun hpd hfront => ⟨fun r hr hcode hknown => ?other, fun r hr hcode hrestart => ?retry,
      fun hrestart hrun => ⟨fun r hr hcode h16 hmaint hmode => ?refused,
        fun hcode => ⟨fun hfits => ?attestBad, fun hfits => ?attest⟩, fun hcode hfits => ?certs,
        fun hcode hfits => ⟨fun hcount => ?randomBad, fun hcount hdrbg => ?randomRetry, fun hcount hdrbg d u hd => ?random⟩,
        fun hmode => ⟨fun hfits hbad => ⟨fun hcode => ?createBad, fun hcode => ?importBad⟩,
          fun hfits hgood hroom => ⟨fun hcode hlog hdrbg key t h u hkey hnew => ?create, fun hcode t h u hread hlog hunwrap hnew => ?imported⟩,
          fun hcode => ⟨fun hnone => ?revokeBad, fun x hx => ⟨fun hst => ?revoked, fun hst hlog => ?revoke, fun hst hlog => ?revokeFull⟩⟩,
          fun hcode f m hf hm => ⟨fun hbad => ?rollbackBad, fun hfw hmain hmax => ⟨fun hfused => ?rollbackDone, fun hfused hlog => ?rollback⟩⟩⟩,
        fun hmode => ⟨fun hcode hfits hslot hnone key t hread hnone' hlog => ?kek, fun hcode hfits hslot hsome hused => ?kekUsed,
          fun hcode hfits => ⟨fun hbad => ?slotBad, fun hslot hprog keys t hread hlog u hu => ?slot⟩,
          fun hcode hslot => ⟨fun hleft => ?fuseBad, fun hleft hlog => ?fuse⟩, fun hcode hlog t ht => ?kill⟩⟩⟩,
    fun hrun => ⟨?kick, ?watchdog, ?entropy, ?startUp⟩, fun ho => ?kickOther, fun hrestart => ⟨fun hbad => ?restartBad, fun hgood => ?restart⟩,
    fun hkilled hmode hrun => ⟨fun t ht hmode' hrun' hdrbg hfails hlevel d u hd => ?request,
      fun hvalid hfails hlog pass hpass => ⟨fun hp => ?unlocked, fun hp => ?failed⟩⟩,
    fun hkilled hmode => ⟨?killedReq, ?killedCheck⟩, fun hvalid => ?expire,
    fun hmode => ⟨fun hv => ?exported, fun hv => ?exportedOld, fun hv hv' => ?ckptExported, fun hon k e hk hlast hroom he => ?entry⟩,
    fun ho => ⟨?exportedOther, ?ckptExportedOther⟩, fun hlit hlog hoff hv => ?enable,
    fun hrun hrestart => ⟨fun hclosing hroom hsome t ht => ⟨fun hgood hnone h hh => ?close, fun x hx h hh => ?closeBroken⟩, fun k hk => ?signed⟩⟩
  case idle =>
    obtain ⟨run, hexec, -⟩ := service_of_row hr
    rw [hexec, service_idle hidle]
  case other =>
    obtain ⟨run, hexec, -⟩ := service_of_row hr
    rw [hexec, service_other hpd hfront hcode hknown]
  case retry =>
    obtain ⟨run, hexec, hrun⟩ := service_of_row hr
    obtain ⟨mode, need, checks, act, hserve, -⟩ := hrun (parseReq d) s
    rw [hexec, service_front _ _ _ _ _ hpd hfront hcode, hserve, tubServe_restarting hrestart, hcode]
  case refused =>
    obtain ⟨run, hexec, hrow⟩ := service_of_row hr
    obtain ⟨mode, need, checks, act, hserve, hoff⟩ := hrow (parseReq d) s
    rw [hexec, service_front _ _ _ _ _ hpd hfront hcode, hserve, hoff h16 hmaint hmode, tubServe_refused hrestart hrun, hcode]
  case attestBad =>
    refine settlesTo_congr ((service_front _ _ _ _ _ hpd hfront hcode).trans ((tubServe_misfit hrestart hrun (by decide) hfits).trans ?_))
    rw [hcode]
  case attest => exact settlesTo_congr ((service_front _ _ _ _ _ hpd hfront hcode).trans (tubServe_does hrestart hrun (.inr hfits) rfl))
  case certs => exact settlesTo_congr ((service_front _ _ _ _ _ hpd hfront hcode).trans (tubServe_does hrestart hrun (.inr hfits) rfl))
  case randomBad =>
    refine settlesTo_congr ((service_front _ _ _ _ _ hpd hfront hcode).trans ((tubServe_fails hrestart hrun (.inr hfits) (code := rspBadArg)
      (by simp [hcount])).trans ?_))
    rw [hcode]
  case randomRetry =>
    refine settlesTo_congr ((service_front _ _ _ _ _ hpd hfront hcode).trans ((tubServe_fails hrestart hrun (.inr hfits) (code := rspRetry)
      (by simp [hcount, hdrbg])).trans ?_))
    rw [hcode]
  case random =>
    refine settlesTo_congr ((service_front _ _ _ _ _ hpd hfront hcode).trans ((tubServe_does hrestart hrun (.inr hfits)
      (by simp [hcount, hdrbg])).trans ?_))
    rw [hd]
  case createBad =>
    refine settlesTo_congr ((service_front _ _ _ _ _ hpd hfront hcode).trans ?_)
    dsimp only
    rw [(workMode_iff s).2 hmode, tubServe_fails hrestart hrun (.inr hfits) (code := rspBadArg) (by simp [hbad]), hcode]
  case importBad =>
    refine settlesTo_congr ((service_front _ _ _ _ _ hpd hfront hcode).trans ?_)
    dsimp only
    rw [(workMode_iff s).2 hmode, tubServe_fails hrestart hrun (.inr hfits) (code := rspBadArg) (by simp [hbad]), hcode]
  case create =>
    refine settlesTo_congr ((service_front _ _ _ _ _ hpd hfront hcode).trans ?_)
    dsimp only
    rw [(workMode_iff s).2 hmode, tubServe_does hrestart hrun (.inr hfits) (by simp [hgood, hroom, hdrbg]), serviceLogged_taken _ _ _ _ _ _ _ _ hlog]
    rw [hkey]
    dsimp only
    rw [hnew]
  case imported =>
    refine settlesTo_congr ((service_front _ _ _ _ _ hpd hfront hcode).trans ?_)
    dsimp only
    rw [(workMode_iff s).2 hmode, tubServe_does hrestart hrun (.inr hfits) (by simp [hgood, hroom]), hread]
    refine (if_neg (by simpa [Option.isNone_iff_eq_none] using hunwrap)).trans ?_
    rw [serviceLogged_taken _ _ _ _ _ _ _ _ hlog, hnew]
  case revokeBad =>
    refine settlesTo_congr ((service_front _ _ _ _ _ hpd hfront hcode).trans ?_)
    dsimp only
    rw [(workMode_iff s).2 hmode, tubServe_does hrestart hrun (.inl rfl) rfl, hnone]
  case revoked =>
    refine settlesTo_congr ((service_front _ _ _ _ _ hpd hfront hcode).trans ?_)
    dsimp only
    rw [(workMode_iff s).2 hmode, tubServe_does hrestart hrun (.inl rfl) rfl, hx]
    exact if_pos hst
  case revoke =>
    refine settlesTo_congr ((service_front _ _ _ _ _ hpd hfront hcode).trans ?_)
    dsimp only
    rw [(workMode_iff s).2 hmode, tubServe_does hrestart hrun (.inl rfl) rfl, hx]
    exact (if_neg (by simp [hst])).trans (serviceLogged_taken _ _ _ _ _ _ _ _ hlog)
  case revokeFull =>
    refine settlesTo_congr ((service_front _ _ _ _ _ hpd hfront hcode).trans ?_)
    dsimp only
    rw [(workMode_iff s).2 hmode, tubServe_does hrestart hrun (.inl rfl) rfl, hx]
    exact (if_neg (by simp [hst])).trans (serviceLogged_refused _ _ _ _ _ _ _ _ hlog)
  case rollbackBad =>
    refine settlesTo_congr ((service_front _ _ _ _ _ hpd hfront hcode).trans ?_)
    dsimp only
    rw [(workMode_iff s).2 hmode, tubServe_fails hrestart hrun (.inl rfl) (code := rspBadArg) (by
      rcases hbad with h | h | h <;> simp [hf, hm, h]), hcode]
  case rollbackDone =>
    refine settlesTo_congr ((service_front _ _ _ _ _ hpd hfront hcode).trans ?_)
    dsimp only
    rw [(workMode_iff s).2 hmode, tubServe_does hrestart hrun (.inl rfl) (by simp [hf, hm, hfw, hmain, hmax])]
    exact if_pos hfused
  case rollback =>
    refine settlesTo_congr ((service_front _ _ _ _ _ hpd hfront hcode).trans ?_)
    dsimp only
    rw [(workMode_iff s).2 hmode, tubServe_does hrestart hrun (.inl rfl) (by simp [hf, hm, hfw, hmain, hmax])]
    exact (if_neg (not_le.2 hfused)).trans (serviceLogged_taken _ _ _ _ _ _ _ _ hlog)
  case kek =>
    refine settlesTo_congr ((service_front _ _ _ _ _ hpd hfront hcode).trans ?_)
    dsimp only
    rw [(careMode_iff s).2 hmode, tubServe_does hrestart hrun (.inr hfits) (by simp [hslot, hnone]), hread]
    dsimp only
    rw [hnone', serviceLogged_taken _ _ _ _ _ _ _ _ hlog]
  case kekUsed =>
    refine settlesTo_congr ((service_front _ _ _ _ _ hpd hfront hcode).trans ?_)
    have hany : (s.kek? (fieldAt (parseReq d).args 0 1)).isSome = true := Option.isSome_iff_ne_none.2 hsome
    have hheld : s.tub.handles.any (fun p => p.2.kek == fieldAt (parseReq d).args 0 1 && (p.2.st == 1 || p.2.st == 2)) = true := by
      obtain ⟨p, hp, hkek, hst⟩ := hused
      exact List.any_eq_true.2 ⟨p, hp, by simpa [hkek] using hst⟩
    dsimp only
    rw [(careMode_iff s).2 hmode, tubServe_fails hrestart hrun (.inr hfits) (code := rspRefused) (by
      rw [hany, hheld]
      simp [hslot]), hcode]
  case slotBad =>
    refine settlesTo_congr ((service_front _ _ _ _ _ hpd hfront hcode).trans ?_)
    dsimp only
    rw [(careMode_iff s).2 hmode, tubServe_fails hrestart hrun (.inr hfits) (code := rspBadArg) (by
      rcases hbad with h | h <;> simp [h]), hcode]
  case slot =>
    refine settlesTo_congr ((service_front _ _ _ _ _ hpd hfront hcode).trans ?_)
    dsimp only
    rw [(careMode_iff s).2 hmode, tubServe_does hrestart hrun (.inr hfits) (by simp [hslot, hprog]), hread]
    dsimp only
    rw [serviceLogged_taken _ _ _ _ _ _ _ _ hlog, hu]
  case fuseBad =>
    refine settlesTo_congr ((service_front _ _ _ _ _ hpd hfront hcode).trans ?_)
    dsimp only
    rw [(careMode_iff s).2 hmode, tubServe_fails hrestart hrun (.inl rfl) (code := rspBadArg) (by simp [hleft]), hcode]
  case fuse =>
    refine settlesTo_congr ((service_front _ _ _ _ _ hpd hfront hcode).trans ?_)
    dsimp only
    rw [(careMode_iff s).2 hmode, tubServe_does hrestart hrun (.inl rfl) (by simp [hslot, hleft]), serviceLogged_taken _ _ _ _ _ _ _ _ hlog]
  case kill =>
    refine settlesTo_congr ((service_front _ _ _ _ _ hpd hfront hcode).trans ?_)
    dsimp only
    rw [(careMode_iff s).2 hmode, tubServe_does hrestart hrun (.inl rfl) rfl, serviceLogged_taken _ _ _ _ _ _ _ _ hlog, ht]
  case kick => exact settlesTo_congr (if_pos ⟨rfl, hrun⟩)
  case watchdog => exact settlesTo_congr (if_pos hrun)
  case entropy => exact settlesTo_congr (if_pos hrun)
  case startUp => exact settlesTo_congr (if_pos hrun)
  case kickOther => exact settlesTo_congr (if_neg fun h => ho h.1)
  case restartBad => exact settlesTo_congr ((if_neg (by simp [hrestart])).trans (if_neg hbad))
  case restart => exact settlesTo_congr ((if_neg (by simp [hrestart])).trans (if_pos hgood))
  case request =>
    refine settlesTo_congr ((if_neg ?_).trans ?_)
    · simp [dbgReach_debug hkilled, hmode, Mode.maintenance, Mode.off]
    · dsimp only
      rw [ht, if_neg (by rcases hlevel with h | h <;> simp [hmode', hmode, hrun', hdrbg, hfails, h]), hd]
  case unlocked =>
    subst hpass
    refine settlesTo_congr ((if_neg ?_).trans ((if_pos hlog).trans (if_pos hp)))
    simp [dbgReach_debug hkilled, hmode, hrun, hvalid, hfails]
  case failed =>
    subst hpass
    refine settlesTo_congr ((if_neg ?_).trans ((if_pos hlog).trans (if_neg (by simp [hp]))))
    simp [dbgReach_debug hkilled, hmode, hrun, hvalid, hfails]
  case killedReq => exact settlesTo_congr (if_pos (.inl (by simp [dbgReach_killed hkilled])))
  case killedCheck => exact settlesTo_congr (if_pos (.inl (by simp [dbgReach_killed hkilled])))
  case expire => exact settlesTo_congr (if_pos hvalid)
  case exported => exact settlesTo_congr ((if_neg (by simp [hmode])).trans (if_neg (not_le.2 hv)))
  case exportedOld => exact settlesTo_congr ((if_neg (by simp [hmode])).trans (if_pos hv))
  case ckptExported =>
    refine settlesTo_congr ?_
    rw [doLogCkptExportedWrite, Nat.mod_eq_of_lt hv]
    exact (if_neg (by simp [hmode])).trans (if_neg (not_le.2 hv'))
  case entry =>
    subst hk
    refine settlesTo_congr ((if_neg ?_).trans ?_)
    · simp [hon, hmode, hlast, hroom]
    · rw [withLog_log]
      dsimp only
      rw [he]
  case exportedOther => exact settlesTo_congr (if_pos (.inl ho))
  case ckptExportedOther => exact settlesTo_congr (if_pos (.inl ho))
  case enable =>
    refine settlesTo_congr ((reach_lit _ _ _ hlit _).trans ?_)
    rw [hv]
    refine (if_pos hlog).trans (if_pos ⟨?_, ?_⟩)
    · rw [Nat.testBit_zero, hv]
      rfl
    · rw [hoff]
      rfl
  case close =>
    refine settlesTo_congr ((doCheckpointClose_open hrun hrestart hclosing hroom hsome ht).trans ?_)
    dsimp only
    rw [hgood, hnone, ← hh]
    rfl
  case closeBroken =>
    refine settlesTo_congr ((doCheckpointClose_open hrun hrestart hclosing hroom hsome ht).trans ?_)
    dsimp only
    rw [hx, ← hh]
  case signed =>
    refine settlesTo_congr ?_
    simp only [doCheckpointSigned, hk]
    exact if_neg (by simp [tuberRuns_of hrun hrestart])

end

section
/-!
Modes: the commands of MOD_CMD, SPORE and the steps of the staged start (R534 to R587).
-/

namespace Sys2Proof.Machine

/-! ## Images (R534) -/

/-- An image is good when it is sound and both its signatures verify. -/
theorem verdict_eq_zero_iff (kind : Nat) (d : List Byte) (s : State) :
    s.verdict kind d = 0 ↔ s.imageSound kind d = true ∧
      Config.verify 0 (derBytes (bytesAt d 256 512)) (d.take 256) (bytesAt d 832 384) = true ∧
      Config.verify 1 (bytesAt d 768 48) (d.take 256) (bytesAt d 1216 16224) = true := by
  rw [State.verdict]
  generalize Config.verify 0 (derBytes (bytesAt d 256 512)) (d.take 256) (bytesAt d 832 384) = rsa
  generalize Config.verify 1 (bytesAt d 768 48) (d.take 256) (bytesAt d 1216 16224) = slh
  cases s.imageSound kind d <;> cases rsa <;> cases slh <;> decide

/-- What makes INSTALL write a set (R535, R577). -/
theorem installGood_iff (addr len : Nat) (fw main : List Byte) (readBack : Bool) (t : State) :
    (addr % 4096 == 0 && decide (len ≤ 2 ^ 31) && t.verdict 1 fw == 0 && t.verdict 2 main == 0 &&
      decide (fw.length + main.length ≤ 2 ^ 30) && readBack) = true ↔
      addr % 4096 = 0 ∧ len ≤ 2 ^ 31 ∧ t.verdict 1 fw = 0 ∧ t.verdict 2 main = 0 ∧ fw.length + main.length ≤ 2 ^ 30 ∧ readBack = true := by
  simp only [Bool.and_eq_true, beq_iff_eq, decide_eq_true_eq, and_assoc]

/-- No image is not a good image. -/
theorem verdict_nil (kind : Nat) (s : State) : s.verdict kind [] ≠ 0 := by
  rw [ne_eq, verdict_eq_zero_iff]
  rintro ⟨hsound, -⟩
  rw [State.imageSound, show (fieldAt [] 0 4 == 0x45495657) = false from rfl] at hsound
  simp only [Bool.false_and, Bool.false_eq_true] at hsound

theorem setImages_nil : setImages [] = ([], []) := by
  simp [setImages]

/-! ## Start steps (R571) -/

/-- A step of FIDDLEHEAD that has not passed. -/
theorem startStep_open {k : Nat} {s : State} (hmode : s.mode = Mode.fiddlehead) (hpassed : s.passed k = false) :
    ¬(s.mode ≠ Mode.fiddlehead ∨ s.passed k = true) := by
  rintro (h | h)
  · exact h hmode
  · exact Bool.false_ne_true (hpassed.symm.trans h)

/-- Tuber's image in FIDDLEHEAD: the boot bank, then the other one, or the start fails. -/
theorem doTuberVerifyDone_start {s : State} (hmode : s.mode = Mode.fiddlehead) (hpassed : s.passed 0 = false) (boot other : Bool) :
    doTuberVerifyDone boot other s =
      let b := s.tub.bootBank
      if s.bankVerdict b 1 boot = 0 then stepDone 0 (tuberUp b s)
      else if s.bankVerdict (1 - b) 1 other = 0 then stepDone 0 (tuberUp (1 - b) s)
      else failStart (s.bankVerdict b 1 boot * 256 + 1) s := by
  have hstart : (s.mode == Mode.fiddlehead && !s.passed 0) = true := by rw [hmode, hpassed]; rfl
  rw [doTuberVerifyDone]
  dsimp only
  rw [hstart]
  exact if_neg (by simp)

/-- Stripes that failed their training and are marked already are no news (R283). -/
theorem fresh_of_marked {l : List Nat} {s : State} (hmarked : ∀ k ∈ l, s.marked.contains k = true) :
    l.filter (fun k => decide (k < 6) && !s.marked.contains k) = [] :=
  List.filter_eq_nil_iff.2 fun k hk => by rw [hmarked k hk]; simp

/-- DRAM training in FIDDLEHEAD with too few stripes marked to fail at once. -/
theorem doDramTrainingDone_start {l : List Nat} {s : State} (hmode : s.mode = Mode.fiddlehead) (hpassed : s.passed 1 = false)
    (hfew : s.marked.length < 2) :
    doDramTrainingDone l s =
      let bad := l.filter (fun k => decide (k < 6) && !s.marked.contains k)
      let fresh := bad.filter (fun k => !s.bitB .MEM_STRIPE_STATUS_FAILED 0 k)
      if !fresh.isEmpty then failStart (0x0400 + fresh.foldl max 0) s
      else stepDone 1 (dramTrained (s.withMem (fun m => { m with clearNext := m.clearNext.filter (fun k => !bad.contains k) }))) :=
  (if_pos ⟨hmode, by simp [hpassed]⟩).trans (if_neg (not_le.2 hfew))

/-- A change of the memory that leaves it as it was. -/
theorem withMem_of_eq {g : MemState → MemState} {s : State} (h : g s.mem = s.mem) : s.withMem g = s := by
  rw [State.withMem, h]

/-- The count of usable pods looks at the pods' own fields only. -/
theorem usablePods_set_selftest (v : Nat) (s : State) : (s.set .POD_SELFTEST_FAILED v).usablePods = s.usablePods := by
  have hphys := get_set_ne s .POD_SELFTEST_FAILED .POD_PHYS_STATE v (by decide)
  simp only [State.usablePods, State.physState, hphys]

/-- The main image in FIDDLEHEAD: Tuber's bank, then the other one, or the start fails. -/
theorem doMainImageLoaded_start {s : State} (hmode : s.mode = Mode.fiddlehead) (htuber : s.passed 0 = true) (hdram : s.passed 1 = true)
    (hpassed : s.passed 4 = false) (boot other : Bool) :
    doMainImageLoaded boot other s =
      let go := fun k : Nat =>
        stepDone 4 (startCoresAt (BitVec.ofNat 64 (fieldAt ((loadMain k s).bankImage (k * 2 + 1)) 32 8)) (loadMain k s))
      let b := s.get .TMB_STATUS_BANK
      if s.bankVerdict b 2 boot = 0 then go b
      else if s.bankVerdict (1 - b) 2 other = 0 then go (1 - b)
      else failStart (s.bankVerdict b 2 boot * 256 + 2) s := by
  have hstart : (s.mode == Mode.fiddlehead && s.passed 0 && s.passed 1 && !s.passed 4) = true := by rw [hmode, htuber, hdram, hpassed]; rfl
  have hcrust (b : Bool) : (s.mode == Mode.crust && s.tuberRuns && !s.coreUp && b) = false := by
    rw [hmode, show (Mode.fiddlehead == Mode.crust) = false from rfl, Bool.false_and, Bool.false_and, Bool.false_and]
  rw [doMainImageLoaded]
  dsimp only
  rw [hstart, hcrust]
  exact if_neg (by simp)

end Sys2Proof.Machine

open Sys2Proof Sys2Proof.Machine

/-- Settles O53: the commands pass or fail their checks, and each start step is taken to the branch that its mode, its bit and its outcome choose. -/
theorem modesFollowTheirCommandsAndSteps : Obligations.ModesFollowTheirCommandsAndSteps := by
  intro o b c n l set s
  dsimp only
  refine ⟨fun hlit hbusy => ⟨fun hmay => ?restartRefused, fun hmay hlog t ht u hu => ?restart, fun hmode => ?dormantMode,
      fun hmode hmay => ?dormantRefused, fun hmode hmay hlog => ?dormant, fun hmode => ?wakeMode, fun hmode hlog => ?wake,
      fun hfrond hstandby => ?maintMode, fun hmode hlog t ht l hl => ?maint, fun hcrust hmaint => ?installMode,
      fun hmode htuber => ?installTuber, fun hmode htuber hlog t ht => ⟨fun hdata => ?installUnread,
      fun d fw main hdata himages => ⟨fun hgood => ?install, fun hbad => ?installBad⟩⟩⟩,
    fun hpend => ?drain, fun hmode => ⟨?wakeTime, fun hwaking hn => ?wakeFails, fun hwaking cause by_ => ?wakes⟩,
    fun hmode => ⟨fun hheld => ?power, fun hheld => ?heldOff⟩,
    fun hmode => ⟨fun hready t ht => ⟨fun hretry => ?readyWaits, fun hretry => ?readyGoes⟩,
      fun hretry t ht => ⟨fun hready => ?retryGoes, fun hready => ?retryWaits⟩, fun hcount => ?toFiddlehead, fun hcount => ?toCrust⟩,
    fun hmode hpassed => ⟨fun hfirst => ?tuberBoot, fun hfirst hsecond => ?tuberOther, fun hfirst hsecond => ?tuberFails⟩,
    fun hmode hpassed => ⟨fun hmany => ?dramMarked, fun hfew hknown => ?dram, fun hfew hn hnew hfailed => ?dramFails⟩,
    fun hmode hwaking => ?wakeDone, fun hmode hpassed => ⟨fun hfew => ?podsFew, fun henough => ?pods⟩,
    fun hmode hpassed => ⟨fun hn => ?ringFails, fun p htest hp => ?ringTest, fun htest hstate => ?ringBusy,
      fun htest hstate hstate' role waits hrole => ?ring⟩,
    fun hmode htuber hdram hpassed => ⟨fun hfirst => ?mainBoot, fun hfirst hsecond => ?mainOther, fun hfirst hsecond => ?mainFails⟩,
    fun hmode => ?watchdog, fun hmode => ?countClear, fun k => ?step, fun kind d => verdict_eq_zero_iff kind d s⟩
  case restartRefused => exact settlesTo_congr (busyCommand_fails hlit hbusy (by simp [hmay]) ..)
  case restart =>
    refine settlesTo_congr ((busyCommand_taken hlit hbusy hlog (by simp [hmay]) ..).trans ?_)
    dsimp only
    rw [ht, hu]
  case dormantMode => exact settlesTo_congr (busyCommand_fails hlit hbusy (by simp [hmode]) ..)
  case dormantRefused => exact settlesTo_congr (busyCommand_fails hlit hbusy (by simp [hmode, hmay]) ..)
  case dormant => exact settlesTo_congr (busyCommand_taken hlit hbusy hlog (by simp [hmode, hmay]) ..)
  case wakeMode => exact settlesTo_congr (busyCommand_fails hlit hbusy (by simp [hmode]) ..)
  case wake => exact settlesTo_congr (busyCommand_taken hlit hbusy hlog (by simp [hmode]) ..)
  case maintMode => exact settlesTo_congr (busyCommand_fails hlit hbusy (by simp [hfrond, hstandby]) ..)
  case maint =>
    refine settlesTo_congr ((busyCommand_taken hlit hbusy hlog (by rcases hmode with h | h <;> simp [h]) ..).trans ?_)
    dsimp only
    rw [ht, hl]
  case installMode => exact settlesTo_congr (busyCommand_fails hlit hbusy (by simp [hcrust, hmaint]) ..)
  case installTuber =>
    exact settlesTo_congr (busyCommand_fails hlit hbusy (by rcases hmode with h | h <;> simp [h, htuber]) ..)
  case installUnread =>
    refine settlesTo_congr ((busyCommand_taken hlit hbusy hlog (by rcases hmode with h | h <;> simp [h, htuber]) ..).trans ?_)
    dsimp only
    rw [ht, hdata]
    dsimp only
    rw [setImages_nil]
    have hbad := mt (installGood_iff (s.get .MOD_INSTALL_ADDR_VALUE) (s.get .MOD_INSTALL_LEN_VALUE) [] [] set.readBackOk t).1
      fun h => verdict_nil 1 t h.2.2.1
    exact (if_neg hbad).trans (by rw [if_neg hbad])
  case install =>
    refine settlesTo_congr ((busyCommand_taken hlit hbusy hlog (by rcases hmode with h | h <;> simp [h, htuber]) ..).trans ?_)
    dsimp only
    rw [ht, hdata]
    dsimp only
    rw [himages]
    have hgood' := (installGood_iff (s.get .MOD_INSTALL_ADDR_VALUE) (s.get .MOD_INSTALL_LEN_VALUE) fw main set.readBackOk t).2 hgood
    exact (if_pos hgood').trans (by rw [if_pos hgood'])
  case installBad =>
    refine settlesTo_congr ((busyCommand_taken hlit hbusy hlog (by rcases hmode with h | h <;> simp [h, htuber]) ..).trans ?_)
    dsimp only
    rw [ht, hdata]
    dsimp only
    rw [himages]
    have hbad' := mt (installGood_iff (s.get .MOD_INSTALL_ADDR_VALUE) (s.get .MOD_INSTALL_LEN_VALUE) fw main set.readBackOk t).1 hbad
    exact (if_neg hbad').trans (by rw [if_neg hbad'])
  case drain => exact settlesTo_congr (if_neg (not_not.2 hpend))
  case wakeTime => exact settlesTo_congr (if_pos hmode)
  case wakeFails =>
    refine settlesTo_congr ((if_pos ⟨hmode, hwaking⟩).trans ?_)
    rw [Nat.mod_eq_of_lt hn]
  case wakes => exact if_neg (by simp [hmode, hwaking])
  case power => exact settlesTo_congr ((if_neg (not_not.2 hmode)).trans (if_neg (by simp [hheld])))
  case heldOff => exact settlesTo_congr ((if_neg (not_not.2 hmode)).trans (if_pos hheld))
  case readyWaits =>
    refine settlesTo_congr ((if_neg (by simp [hmode, hready])).trans ?_)
    rw [← ht]
    exact if_pos hretry
  case readyGoes =>
    refine settlesTo_congr ((if_neg (by simp [hmode, hready])).trans ?_)
    rw [← ht]
    exact if_neg (by simp [hretry])
  case retryGoes =>
    refine settlesTo_congr ((if_pos ⟨hmode, hretry⟩).trans ?_)
    rw [ht]
    exact if_pos hready
  case retryWaits =>
    refine settlesTo_congr ((if_pos ⟨hmode, hretry⟩).trans ?_)
    rw [ht]
    exact if_neg (by simp [hready])
  case toFiddlehead => exact if_neg (not_le.2 hcount)
  case toCrust => exact if_pos hcount
  case tuberBoot => exact settlesTo_congr ((doTuberVerifyDone_start hmode hpassed b c).trans (if_pos hfirst))
  case tuberOther =>
    exact settlesTo_congr ((doTuberVerifyDone_start hmode hpassed b c).trans ((if_neg hfirst).trans (if_pos hsecond)))
  case tuberFails =>
    exact settlesTo_congr ((doTuberVerifyDone_start hmode hpassed b c).trans ((if_neg hfirst).trans (if_neg hsecond)))
  case dramMarked => exact settlesTo_congr ((if_pos ⟨hmode, by simp [hpassed]⟩).trans (if_pos hmany))
  case dram =>
    refine settlesTo_congr ((doDramTrainingDone_start hmode hpassed hfew).trans ?_)
    dsimp only
    rw [fresh_of_marked hknown]
    refine (if_neg (by simp)).trans (congrArg (fun t => stepDone 1 (dramTrained t)) (withMem_of_eq ?_))
    rw [List.filter_eq_self.2 (by simp)]
  case dramFails =>
    refine settlesTo_congr ((doDramTrainingDone_start hmode hpassed hfew).trans ?_)
    have hbad : [n].filter (fun k => decide (k < 6) && !s.marked.contains k) = [n] :=
      List.filter_cons_of_pos (by rw [hnew, decide_eq_true hn]; rfl)
    have hfresh : [n].filter (fun k => !s.bitB .MEM_STRIPE_STATUS_FAILED 0 k) = [n] := List.filter_cons_of_pos (by rw [hfailed]; rfl)
    dsimp only
    rw [hbad, hfresh]
    refine (if_pos rfl).trans ?_
    rw [List.foldl_cons, List.foldl_nil, Nat.zero_max]
  case wakeDone =>
    refine settlesTo_congr ((if_neg ?_).trans ((if_neg ?_).trans ((if_pos ⟨hmode, hwaking⟩).trans (if_pos rfl))))
    · rw [hmode]
      exact fun h => absurd h.1 (by decide)
    · rw [hmode]
      exact fun h => absurd h.1 (by decide)
  case podsFew => exact settlesTo_congr ((if_neg (startStep_open hmode hpassed)).trans (if_pos hfew))
  case pods =>
    refine settlesTo_congr ((if_neg (startStep_open hmode hpassed)).trans ((if_neg (not_lt.2 henough)).trans ?_))
    have hnone : (List.range 16).filter (fun n => ([] : List Nat).contains n && s.physState n != 2) = [] :=
      List.filter_eq_nil_iff.2 fun _ _ => Bool.false_ne_true
    dsimp only
    rw [hnone]
    exact if_neg (by rw [List.foldl_nil, usablePods_set_selftest]; exact not_lt.2 henough)
  case ringFails =>
    refine settlesTo_congr ((if_neg (startStep_open hmode hpassed)).trans ?_)
    rw [Nat.mod_eq_of_lt hn]
  case ringTest =>
    refine settlesTo_congr ((if_neg (startStep_open hmode hpassed)).trans ?_)
    rw [htest]
    dsimp only
    rw [Nat.mod_eq_of_lt hp]
  case ringBusy =>
    refine settlesTo_congr ((if_neg (startStep_open hmode hpassed)).trans ?_)
    rw [htest]
    exact if_pos (by simpa using hstate)
  case ring =>
    refine settlesTo_congr ((if_neg (startStep_open hmode hpassed)).trans ?_)
    rw [htest]
    refine (if_neg (by simp [hstate, hstate'])).trans ?_
    rw [hrole]
  case mainBoot => exact settlesTo_congr ((doMainImageLoaded_start hmode htuber hdram hpassed b c).trans (if_pos hfirst))
  case mainOther =>
    exact settlesTo_congr ((doMainImageLoaded_start hmode htuber hdram hpassed b c).trans ((if_neg hfirst).trans (if_pos hsecond)))
  case mainFails =>
    exact settlesTo_congr ((doMainImageLoaded_start hmode htuber hdram hpassed b c).trans ((if_neg hfirst).trans (if_neg hsecond)))
  case watchdog => exact settlesTo_congr (if_pos hmode)
  case countClear => exact settlesTo_congr (if_pos hmode)
  case step => rfl

end

section
/-!
Power requests and holds, thermal and ageing, the timebase, and management over MCTP (R549 to R600).
-/

namespace Sys2Proof.Machine

/-! ## Power requests (R549, R550, R563) -/

theorem logged_taken {o : Origin} {kind target old new : Nat} {no act : State → State} {s : State} (hlog : s.logTakes o = true) :
    logged o kind target old new no act s = act (logBy o kind target old new s) := if_pos hlog

theorem logged_refused {o : Origin} {kind target old new : Nat} {no act : State → State} {s : State} (hlog : s.logTakes o = false) :
    logged o kind target old new no act s = no (logRefuse s) := if_neg (by rw [hlog]; exact Bool.false_ne_true)

/-- A request word names its domain and what is asked for. -/
theorem request_word {d op : Nat} (hd : d < 64) (hop : op < 4) : (d + 64 * op) % 64 = d ∧ (d + 64 * op) / 64 % 4 = op := by omega

/-- What a request that is logged comes to: none, shared, refused, deferred or done. -/
def requestGoes (o : Origin) (d op : Nat) (s : State) : State :=
  if op = 0 ∨ (s.sharesDeferral d ∧ op ≠ 1) then s
  else if s.powerBusy then s.set .PWR_RESULT_RESULT 5
  else if s.powerRule d op ≠ 0 then s.set .PWR_RESULT_RESULT (s.powerRule d op)
  else
    let held := op != 1 && s.bitB .PWR_HOLD_HELD 0 d && (o matches .hw | .tuber) == false
    (if held then deferPower d op else runPower d op) (s.set .PWR_RESULT_RESULT 0)

theorem doPwrReq_taken {o : Origin} {d op : Nat} {s : State} (hlit : s.lit o .PWR_REQ) (hlog : s.logTakes o = true) (hd : d < 64) (hop : op < 4) :
    doPwrReq o (d + 64 * op) s = requestGoes o d op (setRequest (d + 64 * op)
      (logBy o 1 (regBase .PWR_REQ) (s.regRaw .PWR_REQ 0) ((setRequest (d + 64 * op) s).regRaw .PWR_REQ 0) s)) := by
  obtain ⟨hdom, hreq⟩ := request_word hd hop
  unfold doPwrReq
  rw [hdom, hreq]
  exact (reach_lit _ _ _ hlit _).trans (logged_taken hlog)

theorem doPwrReq_refused {o : Origin} {d op : Nat} {s : State} (hlit : s.lit o .PWR_REQ) (hlog : s.logTakes o = false) (hd : d < 64)
    (hpos : 0 < op) (hop : op < 4) : doPwrReq o (d + 64 * op) s = (logRefuse s).set .PWR_RESULT_RESULT 4 := by
  obtain ⟨hdom, hreq⟩ := request_word hd hop
  unfold doPwrReq
  rw [hdom, hreq]
  exact (reach_lit _ _ _ hlit _).trans ((logged_refused hlog).trans (if_neg hpos.ne'))

/-- A request that shares no deferral. -/
theorem requestGoes_alone {o : Origin} {d op : Nat} {s : State} (hpos : 0 < op) (halone : s.sharesDeferral d = false ∨ op = 1) :
    requestGoes o d op s =
      if s.powerBusy then s.set .PWR_RESULT_RESULT 5
      else if s.powerRule d op ≠ 0 then s.set .PWR_RESULT_RESULT (s.powerRule d op)
      else
        let held := op != 1 && s.bitB .PWR_HOLD_HELD 0 d && (o matches .hw | .tuber) == false
        (if held then deferPower d op else runPower d op) (s.set .PWR_RESULT_RESULT 0) := by
  refine if_neg ?_
  rintro (h | ⟨h, hne⟩)
  · exact hpos.ne' h
  · exact halone.elim (fun h' => Bool.false_ne_true (h'.symm.trans h)) hne

/-- A forced request's word: its reason, and that it goes. -/
theorem force_word (v : Nat) : (v % 65536 + 65536) % 65536 = v % 65536 ∧ ((v % 65536 + 65536) / 65536 % 2 == 1) = true := by
  refine ⟨by omega, beq_iff_eq.2 (by omega)⟩

/-- What a forced request that goes comes to once its reason is logged (R550). -/
def forceGoes (d op reason : Nat) (s : State) : State :=
  if s.powerBusy ∧ s.mod_.pwr = none then s.set .PWR_RESULT_RESULT 5
  else if s.powerRule d op ≠ 0 then s.set .PWR_RESULT_RESULT (s.powerRule d op)
  else logged .pf 11 d reason 0 (fun s => s.set .PWR_RESULT_RESULT 4) (fun s => forcePower d op (s.set .PWR_RESULT_RESULT 0)) s

/-- Anyone but the PF only writes the reason. -/
theorem doPwrForce_other {o : Origin} {v : Nat} {s : State} (ho : o ≠ .pf) (hlit : s.lit o .PWR_FORCE) (hlog : s.logTakes o = true) :
    doPwrForce o v s =
      (logBy o 1 (regBase .PWR_FORCE) (s.get .PWR_FORCE_REASON) (v % 65536) s).set .PWR_FORCE_REASON (v % 65536) := by
  rw [doPwrForce, beq_eq_false_iff_ne.2 ho, reach_lit _ _ _ hlit]
  rcases s.forcedRequest with ⟨dom, want⟩
  exact (logged_taken hlog).trans (if_pos (.inl rfl))

section Force
variable {v dom want : Nat} {s : State} (hlit : s.lit .pf .PWR_FORCE) (hreq : s.forcedRequest = (dom, want)) (hwant : 2 ≤ want)
include hlit hreq hwant

theorem doPwrForce_refused (hlog : s.logTakes .pf = false) :
    doPwrForce .pf (v % 65536 + 65536) s = (logRefuse s).set .PWR_RESULT_RESULT 4 := by
  obtain ⟨hreason, hgo⟩ := force_word v
  rw [doPwrForce, hreason, hgo]
  refine (reach_lit _ _ _ hlit _).trans ?_
  dsimp only
  rw [hreq]
  exact (logged_refused hlog).trans (if_pos ⟨rfl, hwant⟩)

theorem doPwrForce_taken (hlog : s.logTakes .pf = true) :
    doPwrForce .pf (v % 65536 + 65536) s = forceGoes dom want (v % 65536)
      ((logBy .pf 1 (regBase .PWR_FORCE) (s.get .PWR_FORCE_REASON) (v % 65536) s).set .PWR_FORCE_REASON (v % 65536)) := by
  obtain ⟨hreason, hgo⟩ := force_word v
  have hrefuse : (fun s : State => if (Origin.pf == .pf && true) = true ∧ 2 ≤ want then s.set .PWR_RESULT_RESULT 4 else s) =
      fun s => s.set .PWR_RESULT_RESULT 4 := funext fun s => if_pos ⟨rfl, hwant⟩
  rw [doPwrForce, hreason, hgo]
  refine (reach_lit _ _ _ hlit _).trans ?_
  dsimp only
  rw [hreq]
  dsimp only
  rw [hrefuse]
  refine (logged_taken hlog).trans (if_neg ?_)
  rintro (h | h)
  · exact Bool.false_ne_true h
  · exact absurd hwant (not_le.2 h)

end Force

/-! ## Management (R581) -/

theorem mctp_silent {act : State → State} {s : State} (hsilent : s.mode = Mode.off ∨ s.on .MOD_MCTP_DISABLE = true) : mctp act s = s :=
  if_pos hsilent

end Sys2Proof.Machine

open Sys2Proof Sys2Proof.Machine

/-- Settles O54: a request is logged, then judged and done or put off; the events and the MCTP commands choose their branch. -/
theorem powerTimeAndManagementCompleteAsCommanded : Obligations.PowerTimeAndManagementCompleteAsCommanded := by
  intro o d op v n data needs s
  dsimp only
  refine ⟨fun hlit hd hpos hop => ⟨fun hlog => ?reqRefused, fun hlog => ⟨fun hshares hne => ?reqShared, fun halone => ⟨fun hbusy => ?reqBusy,
      fun hbusy hrule => ?reqRule, fun hbusy hrule => ⟨fun hheld => ?reqRuns, fun hne hheld hhw htuber => ?reqDeferred⟩⟩⟩⟩,
    fun hd hmode => ?ruleFree, fun hmode => ?ruleTuber, fun hd hd' => ?ruleOther,
    fun hd hheld hrun t ht => ⟨fun hnone => ?clearAlone, fun w hw hdom => ?clearGoes⟩, fun w hw => ?holdTimeout,
    fun hlit dom want hreq hwant => ⟨fun hlog => ?forceRefused, fun hlog => ⟨fun hbusy => ?forceBusy, fun hfree => ⟨fun hrule => ?forceRule,
      fun hrule hlog' => ?force⟩⟩⟩,
    fun ho hlit hlog => ?forceReason, fun hrun hfree => ?powerEnds, fun hrun hne hheld => ?powerWaits,
    fun hlit hn t ht => ⟨fun hoff => ?mhzOff, fun hon hmode hcrust => ⟨fun hcool => ?mhz, fun hhot => ?mhzThrottled⟩⟩,
    fun hmode tj lid island t ht => ⟨fun htj => ?tooHot, fun htj htj' => ?hot, fun htj htj' => ?warm, fun htj hthrottle => ?cool⟩,
    fun hmode hneeds => ?ages, fun hrunning hmode => ?refresh, fun hmode => ⟨fun hlog => ?epoch, fun ho => ?epochOther, ?save, ?reset⟩,
    fun hmode hsupply t ht => ?release, fun hsilent i hi => ?silent,
    fun hmode hmctp => ⟨fun hop hlow hhigh => ?setEid, ?getEid, ?version, ?types, fun k t hdraw => ?vendor,
      fun volts amps watts t hmeasure => ⟨?status, ?sensors⟩, fun hlen => ?modeLen, fun hlen hbad => ?modeBad,
      fun hlen hlow hhigh code hcode => ?modeAsked, fun hlen hlow hhigh hend => ?spore⟩⟩
  case reqRefused => exact settlesTo_congr (doPwrReq_refused hlit hlog hd hpos hop)
  case reqShared => exact settlesTo_congr ((doPwrReq_taken hlit hlog hd hop).trans (if_pos (.inr ⟨hshares, hne⟩)))
  case reqBusy =>
    exact settlesTo_congr ((doPwrReq_taken hlit hlog hd hop).trans ((requestGoes_alone hpos halone).trans (if_pos hbusy)))
  case reqRule =>
    exact settlesTo_congr ((doPwrReq_taken hlit hlog hd hop).trans ((requestGoes_alone hpos halone).trans
      ((if_neg (by rw [hbusy]; exact Bool.false_ne_true)).trans (if_pos hrule))))
  case reqRuns =>
    refine settlesTo_congr ((doPwrReq_taken hlit hlog hd hop).trans ((requestGoes_alone hpos halone).trans
      ((if_neg (by rw [hbusy]; exact Bool.false_ne_true)).trans ((if_neg (not_not.2 hrule)).trans ?_))))
    dsimp only
    rw [if_neg (by rcases hheld with h | h <;> simp [h])]
  case reqDeferred =>
    refine settlesTo_congr ((doPwrReq_taken hlit hlog hd hop).trans ((requestGoes_alone hpos halone).trans
      ((if_neg (by rw [hbusy]; exact Bool.false_ne_true)).trans ((if_neg (not_not.2 hrule)).trans ?_))))
    dsimp only
    rw [if_pos]
    rw [bne_iff_ne.2 hne, hheld]
    cases o with
    | hw => exact absurd rfl hhw
    | tuber => exact absurd rfl htuber
    | _ => rfl
  case ruleFree => exact if_pos ⟨List.contains_iff_mem.2 hd, hmode⟩
  case ruleTuber =>
    rw [State.powerRule, if_neg (by simp), if_neg (by simp [hmode]), if_neg (by simp)]
  case ruleOther =>
    have hnot : [26, 27, 28, 29, 31, 32, 34, 35].contains d = false := by
      interval_cases d <;> decide
    rw [State.powerRule, hnot, if_neg (by simp), if_neg (by omega), if_neg (by omega)]
  case clearAlone =>
    refine settlesTo_congr ((if_neg (by simp [hd, hheld, hrun])).trans ?_)
    rw [ht]
    dsimp only
    rw [hnone]
  case clearGoes =>
    refine settlesTo_congr ((if_neg (by simp [hd, hheld, hrun])).trans ?_)
    rw [ht]
    dsimp only
    rw [hw]
    refine (if_pos hdom).trans ?_
    rw [← hdom]
    rfl
  case holdTimeout =>
    refine settlesTo_congr ?_
    simp only [doPwrHoldTimeout, hw]
  case forceRefused => exact settlesTo_congr (doPwrForce_refused hlit hreq hwant hlog)
  case forceBusy => exact settlesTo_congr ((doPwrForce_taken hlit hreq hwant hlog).trans (if_pos hbusy))
  case forceRule => exact settlesTo_congr ((doPwrForce_taken hlit hreq hwant hlog).trans ((if_neg hfree).trans (if_pos hrule)))
  case force =>
    exact settlesTo_congr ((doPwrForce_taken hlit hreq hwant hlog).trans ((if_neg hfree).trans ((if_neg (not_not.2 hrule)).trans
      (logged_taken hlog'))))
  case forceReason => exact settlesTo_congr (doPwrForce_other ho hlit hlog)
  case powerEnds =>
    refine settlesTo_congr ?_
    simp only [doDomainPowerComplete, hrun]
    exact if_neg fun h => hfree.elim h.1 fun h' => Bool.false_ne_true (h'.symm.trans h.2)
  case powerWaits =>
    refine settlesTo_congr ?_
    simp only [doDomainPowerComplete, hrun]
    exact if_pos ⟨hne, hheld⟩
  case mhzOff =>
    refine settlesTo_congr ((if_neg (not_le.2 hn)).trans ((reach_lit _ _ _ hlit _).trans ?_))
    exact (if_pos (.inl hoff)).trans ht
  case mhz =>
    refine settlesTo_congr ((if_neg (not_le.2 hn)).trans ((reach_lit _ _ _ hlit _).trans ?_))
    dsimp only
    rw [ht, if_neg (by simp [hon, hmode, hcrust]), if_neg (by rw [hcool]; exact Bool.false_ne_true)]
  case mhzThrottled =>
    refine settlesTo_congr ((if_neg (not_le.2 hn)).trans ((reach_lit _ _ _ hlit _).trans ?_))
    dsimp only
    rw [ht, if_neg (by simp [hon, hmode, hcrust]), if_pos hhot]
  case tooHot =>
    refine settlesTo_congr ((if_neg hmode).trans ?_)
    dsimp only
    rw [ht, if_pos htj]
  case hot =>
    refine settlesTo_congr ((if_neg hmode).trans ?_)
    dsimp only
    rw [ht, if_neg (not_lt.2 htj'), if_pos htj]
  case warm =>
    refine settlesTo_congr ((if_neg hmode).trans ?_)
    dsimp only
    rw [ht, if_neg (by omega), if_neg (by omega), if_neg fun h => absurd h.1 (not_lt.2 htj)]
  case cool =>
    refine settlesTo_congr ((if_neg hmode).trans ?_)
    dsimp only
    rw [ht, if_neg (by omega), if_neg (by omega), if_pos ⟨htj, hthrottle⟩]
  case ages =>
    refine settlesTo_congr ((if_neg hmode).trans ?_)
    rw [List.filter_eq_self.2 fun q hq => decide_eq_true (hneeds q hq)]
  case refresh => exact settlesTo_congr (if_pos ⟨hrunning, hmode⟩)
  case epoch => exact settlesTo_congr ((if_neg (by simp [hmode])).trans (logged_taken hlog))
  case epochOther => exact settlesTo_congr (if_pos (.inl ho))
  case save => exact settlesTo_congr (if_neg hmode)
  case reset =>
    refine settlesTo_congr ?_
    rw [doResetNAssert, if_neg hmode]
  case release =>
    subst ht
    exact settlesTo_congr (if_pos ⟨hmode, by simp [hsupply]⟩)
  case silent =>
    simp only [List.mem_cons, List.not_mem_nil, or_false] at hi
    rcases hi with rfl | rfl | rfl | rfl | rfl | rfl | rfl | rfl | rfl <;> exact settlesTo_congr (mctp_silent hsilent)
  case setEid => exact settlesTo_congr ((mctp_on _ _ hmode hmctp).trans (if_pos ⟨hop, hlow, hhigh⟩))
  case getEid => exact settlesTo_congr (mctp_on _ _ hmode hmctp)
  case version => exact settlesTo_congr ((mctp_on _ _ hmode hmctp).trans (if_pos (.inl rfl)))
  case types => exact settlesTo_congr (mctp_on _ _ hmode hmctp)
  case vendor =>
    refine settlesTo_congr ((mctp_on _ _ hmode hmctp).trans ((if_pos rfl).trans ?_))
    rw [hdraw]
  case status =>
    refine settlesTo_congr ((mctp_on _ _ hmode hmctp).trans ((if_neg (not_not.2 rfl)).trans ?_))
    rw [hmeasure]
  case sensors =>
    refine settlesTo_congr ((mctp_on _ _ hmode hmctp).trans ((if_neg (not_not.2 rfl)).trans ?_))
    rw [hmeasure]
  case modeLen => exact settlesTo_congr ((mctp_on _ _ hmode hmctp).trans (if_pos hlen))
  case modeBad => exact settlesTo_congr ((mctp_on _ _ hmode hmctp).trans ((if_neg (not_not.2 hlen)).trans (if_pos hbad)))
  case modeAsked =>
    subst hcode
    exact settlesTo_congr ((mctp_on _ _ hmode hmctp).trans ((if_neg (not_not.2 hlen)).trans (if_neg (by omega))))
  case spore => exact settlesTo_congr ((mctp_on _ _ hmode hmctp).trans ((if_neg (not_not.2 hlen)).trans (if_neg (by omega))))

end
